-- ==== Sys2Proof/Word.lean ====
section
/-! DEFINITION. The word types of the Garavakin 4 (spec 00 R6, R7; 03 R43, R46): names only.
Bit fields, sign extension and byte order stand in Machine/Bits.lean. -/

namespace Sys2Proof

/-- One byte of memory. -/
abbrev Byte := BitVec 8

/-- A scalar register, an address operand, a control register (R43). -/
abbrev Word := BitVec 64

/-- A vector register of 512 bytes, byte 0 in its lowest bits (R46). -/
abbrev VecReg := BitVec 4096

/-- A tensor descriptor of 32 bytes (R56). -/
abbrev TdWord := BitVec 256

/-- A core of the package: die·32 + row·8 + column (R14, R350 coreid). -/
abbrev CoreId := Fin 256

/-- A cluster: die·8 + (row div 2)·4 + (column div 2) (R14). -/
abbrev ClusterId := Fin 64

/-- A bank engine, named by its pseudo-channel stack·64 + channel (R98). -/
abbrev EngineId := Fin 512

/-- A strand (R306). -/
abbrev StrandId := Fin 512

/-- A ring: fibre·64 + k (R403). -/
abbrev RingId := Fin 4096

end Sys2Proof
end

