-- ==== Sys2Proof/Syntax.lean ====
section
/-! DEFINITION. Every row of spec/opcode_table.json as a constructor of `Instr`: the Loxon instructions
(spec 07 R127-R135), the Crisum commands (14 R292) and the events of the engines around the cores. A Loxon
instruction carries its operand fields; its guard stands in the bundle's slot (07 R121). An event concerns
the current core or subject that the step's agenda names, and carries what it brings from outside the module. -/

namespace Sys2Proof

/-- Slot classes (07 R120). -/
inductive SlotClass where
  | k | s | v | m | c | x
deriving DecidableEq, Repr

/-- Element types of the V slot (07 R131). -/
inductive Ty where
  | f32 | bf16 | f16 | i32 | n32 | i16 | i8 | n8
deriving DecidableEq, Repr

/-- Element formats of descriptors and of XCVT (03 R56, 07 R135). -/
inductive Fmt where
  | f32 | bf16 | f16 | e4m3 | e5m2 | b4 | i8 | n8 | i16 | i32 | n32
deriving DecidableEq, Repr

/-- Conditions of CMP (07 R130). -/
inductive Cond where
  | eq | ne | lt | ge | ltn | gen | le | gt | len | gtn
deriving DecidableEq, Repr

/-- Conditions of FCMP (07 R130). -/
inductive FCond where
  | eq | ne | lt | ge | le | gt | un
deriving DecidableEq, Repr

/-- Conditions of WAITA (07 R130). -/
inductive WCond where
  | eq | ne | ge | lt | gen | ltn | chg
deriving DecidableEq, Repr

/-- Access sizes of LDL and STL (07 R129). -/
inductive Size where
  | n8 | i8 | n16 | i16 | n32 | i32 | d64
deriving DecidableEq, Repr

/-- The width of WAITA and AMO (07 R127, R134). -/
inductive Width where
  | w4 | w8
deriving DecidableEq, Repr

/-- Descriptor fields that TDSET writes (07 R129). -/
inductive TdField where
  | base | format | flags | layout | retain | rows | cols | stride | scaleOff | tscale | link
deriving DecidableEq, Repr

/-- The group of a widening or narrowing instruction (03 R49, 09 R189). -/
inductive Group where
  | pair | quad
deriving DecidableEq, Repr

/-- Operation of VRED and VSCAN (07 R132). -/
inductive RedOp where
  | add | max | min
deriving DecidableEq, Repr

/-- Width code of the transform instructions (11 R225). -/
inductive XW where
  | w32 | w16 | w8 | w4
deriving DecidableEq, Repr

/-- XCVT's round field (04 R71). -/
inductive XRound where
  | rne | rz | sr | fm
deriving DecidableEq, Repr

/-- Order of an atomic (06 R114). -/
inductive Order where
  | rlx | acq | rel | acqrel
deriving DecidableEq, Repr

/-- Retention hints (05 R99). -/
inductive Hint where
  | dflt | streaming | sticky | bypass
deriving DecidableEq, Repr

/-- Clock domains (01 R17, 07 R127). -/
inductive Domain where
  | seq | vec | mat | copy
deriving DecidableEq, Repr

/-- The queues of a core (06 R103). -/
inductive QueueId where
  | ca | cb | m | bank | dec
deriving DecidableEq, Repr

/-- Element types of BMAC and BMACN (14 R292). -/
inductive BTy where
  | bf16 | e4m3 | e5m2 | b4
deriving DecidableEq, Repr

/-- Formats of BCVT, and the tag of an accumulator set (14 R292, R296). -/
inductive BFmt where
  | f32 | bf16 | f16
deriving DecidableEq, Repr

/-- A mask of queues (07 R127 WAITQ, R134 QFENCE). -/
structure QMask where
  ca : Bool
  cb : Bool
  m : Bool
  bank : Bool
  dec : Bool
deriving DecidableEq, Repr

/-- What a peer module answers to a request that left this module (05 R94, R101, 15 R310). -/
inductive PeerAnswer where
  /-- The request performed; a read or an atomic returns these bytes. -/
  | ok (bytes : List Byte)
  | noModule
  | hibernating
  | refused
deriving DecidableEq, Repr

/-- A request that arrives from a peer module or from the supervisor complex (06 R103, 21 R375). -/
inductive Incoming where
  | read (len : Nat)
  | write (bytes : List Byte)
  /-- An atomic with AMO's operation code and operand. -/
  | amo (op : BitVec 4) (width : Width) (v : Word)
deriving DecidableEq, Repr

/-- The access a HOME_ACCESS performs (06 R104). -/
inductive HomeAccess where
  /-- Bytes [off, off + len) of the access at place k in the list of accesses on their way, with the answer of the
  peer if its home is one; an access that performs as one piece performs whole. -/
  | pending (k off len : Nat) (ans : PeerAnswer)
  /-- A request of a peer module, which arrives over the fabric. -/
  | fromPeer (ia : BitVec 56) (req : Incoming)
  /-- A request of the supervisor complex. -/
  | fromSupervisor (ia : BitVec 56) (req : Incoming)
  /-- A peer's home recalls this module's granules of one of its lines, for a write if so (05 R90). -/
  | peerRecall (ia : BitVec 56) (write : Bool)
deriving DecidableEq, Repr

/-- The virtual channels of a message class (15 R309). -/
inductive VChan where
  | detour | first | second
deriving DecidableEq, Repr

/-- The flits of a packet, whether it is of the response class, and, in transit, the peer index and the channel it came on (15 R308,
R309). -/
structure PacketFlits where
  count : Nat
  response : Bool
  via : Option (Fin 30 × VChan)
deriving DecidableEq, Repr

/-- The retained outcome of one fibre's training (24 R412). -/
structure TrainResult where
  /-- The fibre is in service. -/
  ok : Bool
  /-- For each ring of the fibre, whether steps 2 to 5 enabled it. -/
  rings : List Bool
  /-- For each ring, the heater code the sweep left. -/
  heaters : List (BitVec 10)
  /-- What step 7 has found: the fabric's extents, the modules that are trained, and whether a coordinator is there. -/
  rows : BitVec 5
  cols : BitVec 5
  trained : BitVec 256
  coord : Bool
deriving DecidableEq, Repr

/-- The eight slots of a bundle (07 R120), in the order of their numbers. -/
inductive Slot where
  | k | s | va | vb | m | ca | cb | x
deriving DecidableEq, Repr

/-- The rows of spec/opcode_table.json. -/
inductive Instr where
  -- K slot (07 R127, 08)
  | br (off : BitVec 22)
  | bri (a : BitVec 5)
  | call (off : BitVec 22)
  | calli (a : BitVec 5)
  | loop (lc : BitVec 2) (count : BitVec 5) (len : BitVec 15)
  | loopi (lc : BitVec 2) (count : BitVec 10) (len : BitVec 10)
  | mloop (lc : BitVec 2) (count : BitVec 5) (stages : BitVec 4) (len : BitVec 11)
  | lexit (lc : BitVec 2)
  | waitf (h : BitVec 4) (n : BitVec 10)
  | waite (h : BitVec 4) (n : BitVec 10)
  | waita (addr value : BitVec 5) (cond : WCond) (w : Width)
  | waitb (n : BitVec 6)
  | waitq (mask : QMask)
  | probe (base len : BitVec 5) (w : Bool)
  | spawn (task : BitVec 5) (pd : BitVec 4)
  | spawnw (task : BitVec 5)
  | trap (imm : BitVec 16)
  | clkdiv (dom : Domain) (code : BitVec 4)
  | rot (imm : BitVec 10)
  | mtsr (a : BitVec 5) (index : BitVec 17)
  | mfsr (d : BitVec 5) (index : BitVec 17)
  | xinv (ia len : BitVec 5)
  | errack (a : BitVec 5)
  | ckmark (a : BitVec 5)
  -- S slot (07 R129, 08)
  | add (d a b : BitVec 5)
  | sub (d a b : BitVec 5)
  | mul (d a b : BitVec 5)
  | mulh (d a b : BitVec 5)
  | mulhn (d a b : BitVec 5)
  | div (d a b : BitVec 5)
  | divn (d a b : BitVec 5)
  | rem (d a b : BitVec 5)
  | and (d a b : BitVec 5)
  | or (d a b : BitVec 5)
  | xor (d a b : BitVec 5)
  | shl (d a b : BitVec 5)
  | shr (d a b : BitVec 5)
  | sra (d a b : BitVec 5)
  | min (d a b : BitVec 5)
  | max (d a b : BitVec 5)
  | minn (d a b : BitVec 5)
  | maxn (d a b : BitVec 5)
  | clz (d a : BitVec 5)
  | popc (d a : BitVec 5)
  | sel (d a b : BitVec 5) (p : BitVec 4)
  | addi (d a : BitVec 5) (imm : BitVec 12)
  | andi (d a : BitVec 5) (imm : BitVec 12)
  | ori (d a : BitVec 5) (imm : BitVec 12)
  | xori (d a : BitVec 5) (imm : BitVec 12)
  | shli (d a : BitVec 5) (imm : BitVec 6)
  | shri (d a : BitVec 5) (imm : BitVec 6)
  | srai (d a : BitVec 5) (imm : BitVec 6)
  | movi (d : BitVec 5) (imm : BitVec 17)
  | movh (d : BitVec 5) (imm : BitVec 17)
  | cmp (pd pc : BitVec 4) (a b : BitVec 5) (cond : Cond)
  | cmpeqi (pd pc : BitVec 4) (a : BitVec 5) (imm : BitVec 9)
  | cmplti (pd pc : BitVec 4) (a : BitVec 5) (imm : BitVec 9)
  | cmpltni (pd pc : BitVec 4) (a : BitVec 5) (imm : BitVec 9)
  | pand (pd pa pb : BitVec 4)
  | por (pd pa pb : BitVec 4)
  | pxor (pd pa pb : BitVec 4)
  | pandn (pd pa pb : BitVec 4)
  | ldl (d a : BitVec 5) (size : Size) (imm : BitVec 9)
  | stl (d a : BitVec 5) (size : Size) (imm : BitVec 9)
  | ldsp (d : BitVec 5) (imm : BitVec 11)
  | stsp (a : BitVec 5) (imm : BitVec 11)
  | mfc (d : BitVec 5) (index : BitVec 12)
  | mtc (a : BitVec 5) (index : BitVec 12)
  | mfv (d : BitVec 5) (v : BitVec 6) (el : BitVec 7)
  | mtv (v : BitVec 6) (a : BitVec 5) (el : BitVec 7)
  | fadd (d a b : BitVec 5)
  | fsub (d a b : BitVec 5)
  | fmul (d a b : BitVec 5)
  | fma (d a b c : BitVec 5)
  | fcvtif (d a : BitVec 5)
  | fcvtfi (d a : BitVec 5)
  | fcmp (pd pc : BitVec 4) (a b : BitVec 5) (cond : FCond)
  | bdmov (bd : BitVec 4) (a : BitVec 5)
  | tdld (td : BitVec 6) (a : BitVec 5) (imm : BitVec 11)
  | tdst (td : BitVec 6) (a : BitVec 5) (imm : BitVec 11)
  | tdset (td : BitVec 6) (field : TdField) (a : BitVec 5)
  | hset (h : BitVec 4) (a : BitVec 5)
  | haddr (d : BitVec 5) (h : BitVec 4) (k : BitVec 10)
  | advc (h : BitVec 4) (n : BitVec 10)
  | advp (h : BitVec 4) (n : BitVec 10)
  | chset (entry : BitVec 3) (a b : BitVec 5)
  -- V slot (07 R132, 09)
  | vadd (d a b : BitVec 6) (ty : Ty) (t : Bool)
  | vsub (d a b : BitVec 6) (ty : Ty) (t : Bool)
  | vmul (d a b : BitVec 6) (ty : Ty) (t : Bool)
  | vfma (d a b : BitVec 6) (ty : Ty) (t : Bool)
  | vfms (d a b : BitVec 6) (ty : Ty) (t : Bool)
  | vmin (d a b : BitVec 6) (ty : Ty) (t : Bool)
  | vmax (d a b : BitVec 6) (ty : Ty) (t : Bool)
  | vabs (d a : BitVec 6) (ty : Ty) (t : Bool)
  | vneg (d a : BitVec 6) (ty : Ty) (t : Bool)
  | vand (d a b : BitVec 6) (ty : Ty) (t : Bool)
  | vor (d a b : BitVec 6) (ty : Ty) (t : Bool)
  | vxor (d a b : BitVec 6) (ty : Ty) (t : Bool)
  | vshl (d a b : BitVec 6) (ty : Ty) (t : Bool)
  | vshr (d a b : BitVec 6) (ty : Ty) (t : Bool)
  | vsra (d a b : BitVec 6) (ty : Ty) (t : Bool)
  | vsel (d a b : BitVec 6) (ty : Ty) (t : Bool)
  | vcmpeq (d a b : BitVec 6) (ty : Ty) (t : Bool)
  | vcmplt (d a b : BitVec 6) (ty : Ty) (t : Bool)
  | vcmple (d a b : BitVec 6) (ty : Ty) (t : Bool)
  | vadds (d a : BitVec 6) (b : BitVec 5) (ty : Ty) (t : Bool)
  | vmuls (d a : BitVec 6) (b : BitVec 5) (ty : Ty) (t : Bool)
  | vfmas (d a : BitVec 6) (b : BitVec 5) (ty : Ty) (t : Bool)
  | vmaxs (d a : BitVec 6) (b : BitVec 5) (ty : Ty) (t : Bool)
  | vwmul (d a b : BitVec 6) (ty : Ty) (g : Group)
  | vwadd (d a b : BitVec 6) (ty : Ty) (g : Group)
  | vnarrow (d a : BitVec 6) (ty : Ty) (g : Group)
  | vcvt (d a : BitVec 6) (src dst : Ty) (t : Bool)
  | vrsqe (d a : BitVec 6) (t : Bool)
  | vrcpe (d a : BitVec 6) (t : Bool)
  | vexp2e (d a : BitVec 6) (t : Bool)
  | vlog2e (d a : BitVec 6) (t : Bool)
  | vred (d a : BitVec 6) (op : RedOp) (ty : Ty) (t : Bool)
  | vscan (d a : BitVec 6) (op : RedOp) (ty : Ty) (t : Bool)
  | vperm (d a b : BitVec 6) (ty : Ty) (t : Bool)
  | vshuf (d a b : BitVec 6) (ty : Ty) (t : Bool)
  | vbcast (d a : BitVec 6) (b : BitVec 5) (ty : Ty) (t : Bool)
  | vdot (d a b : BitVec 6) (ty : Ty) (acc : Bool)
  | vch (d a b : BitVec 6) (e : BitVec 3) (t : Bool)
  | vmov (d a : BitVec 6) (ty : Ty) (t : Bool)
  | vmovs (d : BitVec 6) (b : BitVec 5) (ty : Ty) (t : Bool)
  | viota (d : BitVec 6) (ty : Ty) (t : Bool)
  | vcnt (d a : BitVec 6) (ty : Ty) (t : Bool)
  | vld (d : BitVec 6) (a : BitVec 5) (imm : BitVec 11)
  | vst (d : BitVec 6) (a : BitVec 5) (imm : BitVec 11)
  | vldc (d : BitVec 6) (base count : BitVec 5) (imm : BitVec 6)
  | vstc (d : BitVec 6) (base count : BitVec 5) (imm : BitVec 6)
  | vldh (d : BitVec 6) (h : BitVec 4) (k : BitVec 10)
  | vsth (d : BitVec 6) (h : BitVec 4) (k : BitVec 10)
  | vwin (a : BitVec 5) (imm : BitVec 11)
  -- M slot (07 R133, 12, 13)
  | omclm (first n : BitVec 6) (pd : BitVec 4)
  | omrel (first n : BitVec 6)
  | mma (tdA tdB : BitVec 6) (z rd tb ta : Bool)
  | mmar (tdA tdB : BitVec 6) (z rd tb ta : Bool)
  | mdrain (td : BitVec 6)
  | mstat (d : BitVec 5)
  | macc (td : BitVec 6)
  | chbeg (pricking : BitVec 5) (tdIn tdOut : BitVec 6)
  | chstep (n : BitVec 4)
  | chgrad (tdLeft tdRight tdGrad : BitVec 6)
  -- C slot (07 R134, 10, 11, 14, 15, 19)
  | copy (tdD tdS : BitVec 6) (hint : Hint)
  | copyh (h : BitVec 4) (tdS : BitVec 6) (hint : Hint)
  | cbatch (addr value : BitVec 5) (counters : Bool)
  | gather (tdD tdS tdI : BitVec 6) (hint : Hint)
  | scatter (tdD tdS tdI : BitVec 6) (hint : Hint)
  | amo (op : BitVec 4) (addr value result : BitVec 5) (order : Order) (w : Width)
  | amocas (addr expected new result : BitVec 5) (order : Order)
  | qfence (mask : QMask)
  | stmap (entry : BitVec 3) (rec : BitVec 5)
  | stflush (mask : BitVec 8)
  | stinv (mask : BitVec 8)
  | pref (td : BitVec 6) (hint : Hint)
  | decomp (tdS tdI : BitVec 6) (ratio : BitVec 4)
  | ddict (td : BitVec 6)
  | bkcmd (prog engines args : BitVec 5)
  | bkvec (td : BitVec 6) (engines : BitVec 5)
  | lease (drow dcol : BitVec 4) (n : BitVec 6) (dur : BitVec 3) (status : BitVec 5)
  | lrel (drow dcol : BitVec 4) (n : BitVec 6) (status : BitVec 5)
  | lrenew (drow dcol : BitVec 4) (dur : BitVec 3) (status : BitVec 5)
  | lqry (drow dcol : BitVec 4) (d : BitVec 5)
  | colstep (group : BitVec 6) (step : BitVec 5)
  | persist (tdD tdS : BitVec 6)
  | scmrd (tdD tdS : BitVec 6)
  -- X slot (07 R135, 11)
  | xpose (d a : BitVec 6) (c : BitVec 3) (w : XW) (t : Bool)
  | xcvt (d a : BitVec 6) (fin fout : Fmt) (round : XRound)
  | xpack (d a b : BitVec 6) (bty : BitVec 2) (srcBf16 : Bool)
  | xunpk (d a b : BitVec 6) (dstBf16 : Bool)
  | xtbl (d a : BitVec 6) (fn : BitVec 4) (t : Bool)
  | xtld (d a : BitVec 6) (fn : BitVec 4)
  | xexp (d k : BitVec 6) (n1 : BitVec 3) (adv : Bool)
  | xzip (d a b : BitVec 6) (w : XW)
  | xunzip (d a : BitVec 6) (w : XW)
  | xexpand (d a b : BitVec 6) (w : XW) (t : Bool)
  | xcompr (d a b : BitVec 6) (w : XW) (t : Bool)
  -- queues, memory and arrays
  | stashFillComplete (ans : PeerAnswer)
  | homeAccess (a : HomeAccess)
  | queueCommandStart (q : QueueId)
  | queueCommandComplete (q : QueueId) (k : Nat)
  | batchComplete (q : QueueId)
  | mmarFetchReturn (ans : PeerAnswer)
  -- Crisum (14 R292)
  | bsetrLo (g : BitVec 4) (imm : BitVec 16)
  | bsetrHi (g : BitVec 4) (imm : BitVec 16)
  | bsetrAdd (g : BitVec 4) (imm : BitVec 16)
  | bseg (sg : BitVec 2) (gb gl : BitVec 4)
  | bmac (acc sg : BitVec 2) (gv : BitVec 4) (ty : BTy) (n1 : BitVec 10)
  | bmacn (acc sg : BitVec 2) (gv : BitVec 4) (ty : BTy) (n1 : BitVec 10)
  | bred (d s : BitVec 2)
  | bredTree (d : BitVec 2)
  | bscl (acc : BitVec 2) (g : BitVec 4)
  | bcvt (acc : BitVec 2) (fmt : BFmt)
  | bout (acc : BitVec 2) (go : BitVec 4) (n1 : BitVec 6)
  | bclr (mask : BitVec 4)
  | bloop (g : BitVec 4)
  | bsig (g : BitVec 4)
  | bldv (gv : BitVec 4) (sg : BitVec 2) (n1 : BitVec 10)
  -- fabric and leases
  | fabricPacket (row col : BitVec 4) (flits : PacketFlits)
  -- dispatcher
  | regStart (v : Word)
  | regKill (v : Word)
  | regUpdate (v : Word)
  | elogLostClear (v : Word)
  | systemRegisterWrite (index : BitVec 17) (v : Word)
  -- migration
  | migCtl (v : Word)
  -- power
  | pwCap (v : Word)
  | pwGive (v : Word)
  | pwShed (v : Word)
  | pwBo (v : Word)
  | pwLgate (v : Word)
  | pwL2gate (b : Fin 4) (v : Word)
  | localBankWakeDone (bank : Fin 32)
  | l2WayWakeDone (b : Fin 4) (way : Fin 16)
  | grantPeriodEnd (draw : BitVec 16)
  | tokenArrival (n : BitVec 16) (period : BitVec 24)
  | brownoutShed (volts : BitVec 16)
  | brownoutAllShed (volts : BitVec 16)
  | brownoutRestore (volts : BitVec 16)
  | inputLoss (volts : BitVec 16)
  -- hibernation and boot
  | powerOff (inputPresent : Bool)
  | powerOn (volts : BitVec 16)
  | flashImageWrite (kind : BitVec 16) (slot : Bool) (image : List Byte)
  | attCtl (v : Word)
  | partCtl (p : BitVec 3) (v : Word)
  -- optics
  | ostrCtl (s : StrandId) (v : Word)
  | ostrWth (s : StrandId) (v : Word)
  | orngHtr (r : RingId) (v : Word)
  | orngMap (r : RingId) (v : Word)
  | lockLoopPeriod (chiplet : Fin 16) (drift : List Int)
  | linkTraining (fibre : Fin 64) (res : TrainResult)
  -- encodings that are no instruction
  | nonInstruction (cls : SlotClass) (w : BitVec 32)
  | crisumUnassigned (w : BitVec 32)
  -- the supervisor complex, peers and the coordinator
  | rejoinTraffic (group : BitVec 6) (member : BitVec 8) (step : Word)
  | inBandControlFlit (peer : Fin 30) (strand : StrandId) (amask : BitVec 8)
  | coordinatorTokens (n : BitVec 16) (period : BitVec 24)
  -- rows without an operand: what they concern is the machine's current core, engine or subject
  -- K slot (07 R127, 08)
  | nop
  | nullifierSkip
  | ret
  | exit
  | yield
  | hbar
  | hbarComplete
  | drain
  | waitSatisfied
  | spawnwConversion
  | spawnWaitRetry
  | tret
  | rte
  | halt
  | pfack
  | pfbudExhausted
  | pfwHoldExpiry
  -- M slot (07 R133, 12, 13)
  | mlease
  | mrel
  | mzero
  | mresume
  | chrun
  | chend
  | chabort
  -- X slot (07 R135, 11)
  | xtsw
  -- queues, memory and arrays
  | asyncTrapDelivery
  | decoderResume
  | arrayGrant
  | arrayPassComplete
  | mmarFetchTimeout
  | bankCommandAccept
  | bankProgramStart
  | bankProgramComplete
  -- Crisum (14 R292)
  | bnop
  | bend
  | bhalt
  -- fabric and leases
  | leaseAccept
  | leaseNoticeEnd
  | strandRetuneDone
  | leaseStarvationGrant
  | leaseExpiry
  -- dispatcher
  | dispatchDecision
  | taskRetire
  | waitYield
  | accountingCharge
  -- migration
  | migrationHoldDone
  | migrationCopyDone
  | migrationForward
  | migrationEnd
  -- hibernation and boot
  | hibernateQuiesce
  | hibernateFlush
  | hibernateDrain
  | hibernateSeal
  | hbCtlResume
  | rejoinTimeout
  | hbCtlRelease
  | attestationDone
  -- optics
  | strandPark
  | autoWake
  | wakeComplete
  | ringResettleDone
  | cdrLoss
  -- the supervisor complex, peers and the coordinator
  | eventAcknowledge
  | killBySupervisor
  | supervisorPreempt
deriving DecidableEq, Repr

/-- One slot of a bundle: its place, its guard predicate and its instruction (07 R121). -/
structure SlotWord where
  slot : Slot
  guard : BitVec 4
  instr : Instr
deriving DecidableEq, Repr

end Sys2Proof
end

