-- ==== Sys2Proof/WellFormed.lean ====
section
/-! DEFINITION. Which instruction terms have an encoding that decodes back to them (07 R124): the type
suffixes each V-slot instruction implements (09 R183), the alignment of register groups (03 R49, 11 R225)
and the formats of XCVT (11 R229). Everything else the syntax itself bounds. -/

namespace Sys2Proof

/-- Bytes of an element of a V-slot type (03 R46). -/
def Ty.bytes : Ty → Nat
  | .f32 | .i32 | .n32 => 4
  | .bf16 | .f16 | .i16 => 2
  | .i8 | .n8 => 1

/-- VABS and VNEG implement the floating and the signed types (09 R183). -/
def Ty.signed : Ty → Bool
  | .n32 | .n8 => false
  | _ => true

/-- The integer types, without an n16, which no V-slot type names (09 R183, shifts). -/
def Ty.isInt : Ty → Bool
  | .i32 | .n32 | .i16 | .i8 | .n8 => true
  | _ => false

/-- The types of VSHUF (09 R183). -/
def Ty.shufOk : Ty → Bool
  | .i8 | .n8 => false
  | _ => true

/-- The types of VDOT (09 R183). -/
def Ty.dotOk : Ty → Bool
  | .bf16 | .f16 | .i8 | .n8 => true
  | _ => false

/-- The narrow types and groups of VWMUL, VWADD and VNARROW (09 R189). -/
def Ty.widenOk : Ty → Group → Bool
  | .bf16, .pair | .f16, .pair | .i16, .pair => true
  | .i8, _ | .n8, _ => true
  | _, _ => false

/-- Registers of a group (03 R49). -/
def Group.count : Group → Nat
  | .pair => 2
  | .quad => 4

/-- The destination of a widening instruction, and the source group of a narrowing one, is even for a pair, a multiple of 4 for a quad
(03 R49, 09 R189). -/
def Group.aligned (g : Group) (d : BitVec 6) : Bool := d.toNat % g.count == 0

/-- The group that holds 512 elements of a source or target format in XPACK and XUNPK (11 R230, R231). -/
def packGroup (bf16 : Bool) : Group := if bf16 then .pair else .quad

/-- The term stands for an instruction the hardware has (07 R124). -/
def Instr.wf : Instr → Bool
  | .vabs _ _ ty _ | .vneg _ _ ty _ => ty.signed
  | .vshl _ _ _ ty _ | .vshr _ _ _ ty _ | .vsra _ _ _ ty _ => ty.isInt
  | .vwmul d _ _ ty g | .vwadd d _ _ ty g => ty.widenOk g && g.aligned d
  | .vnarrow _ a ty g => ty.widenOk g && g.aligned a
  | .vshuf _ _ _ ty _ => ty.shufOk
  | .vdot _ _ _ ty _ => ty.dotOk
  | .xcvt _ _ fin fout _ => fin != .b4 && fout != .b4
  | .xpack _ a _ _ src => (packGroup src).aligned a
  | .xunpk d _ _ dst => (packGroup dst).aligned d
  | .xtld _ a _ => Group.quad.aligned a
  | .xzip d _ _ _ => Group.pair.aligned d
  | .xunzip _ a _ => Group.pair.aligned a
  | _ => true

end Sys2Proof
end

