-- ==== Sys2Proof/Decode.lean ====
section
/-! DEFINITION. From bits to instructions and back: the slot words and bundles of spec 07 (R120-R135, with the
operand fields of the X slot from 11 R225) and the Crisum words of 14 R292. A word that is no instruction is
rejected by name: the decoder answers `nonInstruction` or `crisumUnassigned`, which carry the word (07 R124,
14 R299). The encoder is written from the same tables. -/

namespace Sys2Proof

/-- Bits [lo + n - 1 : lo] of a word. -/
def fld (w : BitVec 32) (lo n : Nat) : BitVec n := w.extractLsb' lo n

/-- Bit i of a word. -/
def bit (w : BitVec 32) (i : Nat) : Bool := w.getLsbD i

/-- The guard field of a slot word (07 R121). -/
def guardOf (w : BitVec 32) : BitVec 4 := fld w 28 4

/-- The opcode field of a slot word (07 R121). -/
def opOf (w : BitVec 32) : BitVec 6 := fld w 22 6

/-- Answers i only if the reserved bits [lo + n - 1 : lo] are zero (07 R124). -/
def zero (w : BitVec 32) (lo n : Nat) (i : Option Instr) : Option Instr :=
  if (fld w lo n).toNat = 0 then i else none

/-- Answers i only if it is well formed: a type the instruction implements, groups aligned (07 R124). -/
def ifWf (i : Instr) : Option Instr := if i.wf then some i else none

/-- A field's value at its place in a word. -/
def put {n : Nat} (lo : Nat) (x : BitVec n) : Nat := x.toNat * 2 ^ lo

/-- The five queue bits of WAITQ and QFENCE: ca, cb, m, bank, dec from the top (07 R127, R134). -/
def QMask.code (q : QMask) : BitVec 5 :=
  BitVec.ofNat 5 (q.ca.toNat * 16 + q.cb.toNat * 8 + q.m.toNat * 4 + q.bank.toNat * 2 + q.dec.toNat)

/-- The queues a five-bit mask names (07 R127, R134). -/
def QMask.ofCode (x : BitVec 5) : QMask :=
  { ca := x.getLsbD 4, cb := x.getLsbD 3, m := x.getLsbD 2, bank := x.getLsbD 1, dec := x.getLsbD 0 }

/-- Codes of WCond (07 R130). -/
def WCond.code : WCond → BitVec 3
  | .eq => 0
  | .ne => 1
  | .ge => 2
  | .lt => 3
  | .gen => 4
  | .ltn => 5
  | .chg => 6

/-- The value a code of WCond names, if it names one (07 R130). -/
def WCond.ofCode (x : BitVec 3) : Option WCond :=
  match x.toNat with
  | 0 => some .eq
  | 1 => some .ne
  | 2 => some .ge
  | 3 => some .lt
  | 4 => some .gen
  | 5 => some .ltn
  | 6 => some .chg
  | _ => none

/-- Codes of Width (07 R127). -/
def Width.code : Width → BitVec 1
  | .w4 => 0
  | .w8 => 1

/-- The value a code of Width names, if it names one (07 R127). -/
def Width.ofCode (x : BitVec 1) : Option Width :=
  match x.toNat with
  | 0 => some .w4
  | 1 => some .w8
  | _ => none

/-- Codes of Domain (07 R127). -/
def Domain.code : Domain → BitVec 2
  | .seq => 0
  | .vec => 1
  | .mat => 2
  | .copy => 3

/-- The value a code of Domain names, if it names one (07 R127). -/
def Domain.ofCode (x : BitVec 2) : Option Domain :=
  match x.toNat with
  | 0 => some .seq
  | 1 => some .vec
  | 2 => some .mat
  | 3 => some .copy
  | _ => none

/-- Codes of Cond (07 R130). -/
def Cond.code : Cond → BitVec 4
  | .eq => 0
  | .ne => 1
  | .lt => 2
  | .ge => 3
  | .ltn => 4
  | .gen => 5
  | .le => 6
  | .gt => 7
  | .len => 8
  | .gtn => 9

/-- The value a code of Cond names, if it names one (07 R130). -/
def Cond.ofCode (x : BitVec 4) : Option Cond :=
  match x.toNat with
  | 0 => some .eq
  | 1 => some .ne
  | 2 => some .lt
  | 3 => some .ge
  | 4 => some .ltn
  | 5 => some .gen
  | 6 => some .le
  | 7 => some .gt
  | 8 => some .len
  | 9 => some .gtn
  | _ => none

/-- Codes of FCond (07 R130). -/
def FCond.code : FCond → BitVec 4
  | .eq => 0
  | .ne => 1
  | .lt => 2
  | .ge => 3
  | .le => 6
  | .gt => 7
  | .un => 10

/-- The value a code of FCond names, if it names one (07 R130). -/
def FCond.ofCode (x : BitVec 4) : Option FCond :=
  match x.toNat with
  | 0 => some .eq
  | 1 => some .ne
  | 2 => some .lt
  | 3 => some .ge
  | 6 => some .le
  | 7 => some .gt
  | 10 => some .un
  | _ => none

/-- Codes of Size (07 R129). -/
def Size.code : Size → BitVec 3
  | .n8 => 0
  | .i8 => 1
  | .n16 => 2
  | .i16 => 3
  | .n32 => 4
  | .i32 => 5
  | .d64 => 6

/-- The value a code of Size names, if it names one (07 R129). -/
def Size.ofCode (x : BitVec 3) : Option Size :=
  match x.toNat with
  | 0 => some .n8
  | 1 => some .i8
  | 2 => some .n16
  | 3 => some .i16
  | 4 => some .n32
  | 5 => some .i32
  | 6 => some .d64
  | _ => none

/-- Codes of TdField (07 R129). -/
def TdField.code : TdField → BitVec 4
  | .base => 0
  | .format => 1
  | .flags => 2
  | .layout => 3
  | .retain => 4
  | .rows => 5
  | .cols => 6
  | .stride => 7
  | .scaleOff => 8
  | .tscale => 9
  | .link => 10

/-- The value a code of TdField names, if it names one (07 R129). -/
def TdField.ofCode (x : BitVec 4) : Option TdField :=
  match x.toNat with
  | 0 => some .base
  | 1 => some .format
  | 2 => some .flags
  | 3 => some .layout
  | 4 => some .retain
  | 5 => some .rows
  | 6 => some .cols
  | 7 => some .stride
  | 8 => some .scaleOff
  | 9 => some .tscale
  | 10 => some .link
  | _ => none

/-- Codes of Ty (07 R131). -/
def Ty.code : Ty → BitVec 3
  | .f32 => 0
  | .bf16 => 1
  | .f16 => 2
  | .i32 => 3
  | .n32 => 4
  | .i16 => 5
  | .i8 => 6
  | .n8 => 7

/-- The value a code of Ty names, if it names one (07 R131). -/
def Ty.ofCode (x : BitVec 3) : Option Ty :=
  match x.toNat with
  | 0 => some .f32
  | 1 => some .bf16
  | 2 => some .f16
  | 3 => some .i32
  | 4 => some .n32
  | 5 => some .i16
  | 6 => some .i8
  | 7 => some .n8
  | _ => none

/-- Codes of Group (09 R189). -/
def Group.code : Group → BitVec 1
  | .pair => 0
  | .quad => 1

/-- The value a code of Group names, if it names one (09 R189). -/
def Group.ofCode (x : BitVec 1) : Option Group :=
  match x.toNat with
  | 0 => some .pair
  | 1 => some .quad
  | _ => none

/-- Codes of RedOp (07 R132). -/
def RedOp.code : RedOp → BitVec 2
  | .add => 0
  | .max => 1
  | .min => 2

/-- The value a code of RedOp names, if it names one (07 R132). -/
def RedOp.ofCode (x : BitVec 2) : Option RedOp :=
  match x.toNat with
  | 0 => some .add
  | 1 => some .max
  | 2 => some .min
  | _ => none

/-- Codes of Hint (05 R99). -/
def Hint.code : Hint → BitVec 2
  | .dflt => 0
  | .streaming => 1
  | .sticky => 2
  | .bypass => 3

/-- The value a code of Hint names, if it names one (05 R99). -/
def Hint.ofCode (x : BitVec 2) : Option Hint :=
  match x.toNat with
  | 0 => some .dflt
  | 1 => some .streaming
  | 2 => some .sticky
  | 3 => some .bypass
  | _ => none

/-- Codes of Order (06 R114). -/
def Order.code : Order → BitVec 2
  | .rlx => 0
  | .acq => 1
  | .rel => 2
  | .acqrel => 3

/-- The value a code of Order names, if it names one (06 R114). -/
def Order.ofCode (x : BitVec 2) : Option Order :=
  match x.toNat with
  | 0 => some .rlx
  | 1 => some .acq
  | 2 => some .rel
  | 3 => some .acqrel
  | _ => none

/-- Codes of XW (11 R225). -/
def XW.code : XW → BitVec 3
  | .w32 => 0
  | .w16 => 1
  | .w8 => 2
  | .w4 => 3

/-- The value a code of XW names, if it names one (11 R225). -/
def XW.ofCode (x : BitVec 3) : Option XW :=
  match x.toNat with
  | 0 => some .w32
  | 1 => some .w16
  | 2 => some .w8
  | 3 => some .w4
  | _ => none

/-- Codes of Fmt (03 R56). -/
def Fmt.code : Fmt → BitVec 4
  | .f32 => 0
  | .bf16 => 1
  | .f16 => 2
  | .e4m3 => 3
  | .e5m2 => 4
  | .b4 => 5
  | .i8 => 6
  | .n8 => 7
  | .i16 => 8
  | .i32 => 9
  | .n32 => 10

/-- The value a code of Fmt names, if it names one (03 R56). -/
def Fmt.ofCode (x : BitVec 4) : Option Fmt :=
  match x.toNat with
  | 0 => some .f32
  | 1 => some .bf16
  | 2 => some .f16
  | 3 => some .e4m3
  | 4 => some .e5m2
  | 5 => some .b4
  | 6 => some .i8
  | 7 => some .n8
  | 8 => some .i16
  | 9 => some .i32
  | 10 => some .n32
  | _ => none

/-- Codes of XRound (04 R71). -/
def XRound.code : XRound → BitVec 2
  | .rne => 0
  | .rz => 1
  | .sr => 2
  | .fm => 3

/-- The value a code of XRound names, if it names one (04 R71). -/
def XRound.ofCode (x : BitVec 2) : Option XRound :=
  match x.toNat with
  | 0 => some .rne
  | 1 => some .rz
  | 2 => some .sr
  | 3 => some .fm
  | _ => none

/-- Codes of BTy (14 R292). -/
def BTy.code : BTy → BitVec 2
  | .bf16 => 0
  | .e4m3 => 1
  | .e5m2 => 2
  | .b4 => 3

/-- The value a code of BTy names, if it names one (14 R292). -/
def BTy.ofCode (x : BitVec 2) : Option BTy :=
  match x.toNat with
  | 0 => some .bf16
  | 1 => some .e4m3
  | 2 => some .e5m2
  | 3 => some .b4
  | _ => none

/-- Codes of BFmt (14 R292). -/
def BFmt.code : BFmt → BitVec 2
  | .f32 => 0
  | .bf16 => 1
  | .f16 => 2

/-- The value a code of BFmt names, if it names one (14 R292). -/
def BFmt.ofCode (x : BitVec 2) : Option BFmt :=
  match x.toNat with
  | 0 => some .f32
  | 1 => some .bf16
  | 2 => some .f16
  | _ => none
/-- The opcode map of the K slot (07 R127). -/
def decodeK (w : BitVec 32) : Option Instr :=
  match (opOf w).toNat with
  | 0x01 => some (.br (fld w 0 22))
  | 0x02 => zero w 0 17 <| some (.bri (fld w 17 5))
  | 0x03 => some (.call (fld w 0 22))
  | 0x04 => zero w 0 17 <| some (.calli (fld w 17 5))
  | 0x05 => zero w 0 22 <| some .ret
  | 0x06 => some (.loop (fld w 20 2) (fld w 15 5) (fld w 0 15))
  | 0x07 => some (.loopi (fld w 20 2) (fld w 10 10) (fld w 0 10))
  | 0x08 => some (.mloop (fld w 20 2) (fld w 15 5) (fld w 11 4) (fld w 0 11))
  | 0x09 => zero w 0 20 <| some (.lexit (fld w 20 2))
  | 0x0A => zero w 0 22 <| some .exit
  | 0x0B => zero w 0 22 <| some .yield
  | 0x0C => zero w 0 22 <| some .hbar
  | 0x0D => zero w 0 8 <| some (.waitf (fld w 18 4) (fld w 8 10))
  | 0x0E => zero w 0 8 <| some (.waite (fld w 18 4) (fld w 8 10))
  | 0x0F => zero w 0 8 <| (WCond.ofCode (fld w 9 3)).bind fun a => (Width.ofCode (fld w 8 1)).bind fun b => some (.waita (fld w 17 5) (fld w 12 5) a b)
  | 0x10 => zero w 0 16 <| some (.waitb (fld w 16 6))
  | 0x11 => zero w 0 17 <| some (.waitq (QMask.ofCode (fld w 17 5)))
  | 0x12 => zero w 0 22 <| some .drain
  | 0x13 => zero w 0 11 <| some (.probe (fld w 17 5) (fld w 12 5) (bit w 11))
  | 0x14 => zero w 0 13 <| some (.spawn (fld w 17 5) (fld w 13 4))
  | 0x15 => zero w 0 17 <| some (.spawnw (fld w 17 5))
  | 0x16 => zero w 16 6 <| some (.trap (fld w 0 16))
  | 0x17 => zero w 0 16 <| (Domain.ofCode (fld w 20 2)).bind fun a => some (.clkdiv a (fld w 16 4))
  | 0x18 => zero w 10 12 <| some (.rot (fld w 0 10))
  | 0x19 => zero w 0 22 <| some .tret
  | 0x30 => zero w 0 22 <| some .rte
  | 0x31 => some (.mtsr (fld w 17 5) (fld w 0 17))
  | 0x32 => some (.mfsr (fld w 17 5) (fld w 0 17))
  | 0x33 => zero w 0 22 <| some .halt
  | 0x34 => zero w 0 22 <| some .pfack
  | 0x35 => zero w 0 12 <| some (.xinv (fld w 17 5) (fld w 12 5))
  | 0x36 => zero w 0 17 <| some (.errack (fld w 17 5))
  | 0x37 => zero w 0 17 <| some (.ckmark (fld w 17 5))
  | _ => none

/-- The opcode map of the S slot (07 R128, R129). -/
def decodeS (w : BitVec 32) : Option Instr :=
  match (opOf w).toNat with
  | 0x01 => zero w 0 7 <| some (.add (fld w 17 5) (fld w 12 5) (fld w 7 5))
  | 0x02 => zero w 0 7 <| some (.sub (fld w 17 5) (fld w 12 5) (fld w 7 5))
  | 0x03 => zero w 0 7 <| some (.mul (fld w 17 5) (fld w 12 5) (fld w 7 5))
  | 0x04 => zero w 0 7 <| some (.mulh (fld w 17 5) (fld w 12 5) (fld w 7 5))
  | 0x05 => zero w 0 7 <| some (.mulhn (fld w 17 5) (fld w 12 5) (fld w 7 5))
  | 0x06 => zero w 0 7 <| some (.div (fld w 17 5) (fld w 12 5) (fld w 7 5))
  | 0x07 => zero w 0 7 <| some (.divn (fld w 17 5) (fld w 12 5) (fld w 7 5))
  | 0x08 => zero w 0 7 <| some (.rem (fld w 17 5) (fld w 12 5) (fld w 7 5))
  | 0x09 => zero w 0 7 <| some (.and (fld w 17 5) (fld w 12 5) (fld w 7 5))
  | 0x0A => zero w 0 7 <| some (.or (fld w 17 5) (fld w 12 5) (fld w 7 5))
  | 0x0B => zero w 0 7 <| some (.xor (fld w 17 5) (fld w 12 5) (fld w 7 5))
  | 0x0C => zero w 0 7 <| some (.shl (fld w 17 5) (fld w 12 5) (fld w 7 5))
  | 0x0D => zero w 0 7 <| some (.shr (fld w 17 5) (fld w 12 5) (fld w 7 5))
  | 0x0E => zero w 0 7 <| some (.sra (fld w 17 5) (fld w 12 5) (fld w 7 5))
  | 0x0F => zero w 0 7 <| some (.min (fld w 17 5) (fld w 12 5) (fld w 7 5))
  | 0x10 => zero w 0 7 <| some (.max (fld w 17 5) (fld w 12 5) (fld w 7 5))
  | 0x11 => zero w 0 7 <| some (.minn (fld w 17 5) (fld w 12 5) (fld w 7 5))
  | 0x12 => zero w 0 7 <| some (.maxn (fld w 17 5) (fld w 12 5) (fld w 7 5))
  | 0x13 => zero w 0 12 <| some (.clz (fld w 17 5) (fld w 12 5))
  | 0x14 => zero w 0 12 <| some (.popc (fld w 17 5) (fld w 12 5))
  | 0x15 => zero w 4 3 <| some (.sel (fld w 17 5) (fld w 12 5) (fld w 7 5) (fld w 0 4))
  | 0x16 => some (.addi (fld w 17 5) (fld w 12 5) (fld w 0 12))
  | 0x17 => some (.andi (fld w 17 5) (fld w 12 5) (fld w 0 12))
  | 0x18 => some (.ori (fld w 17 5) (fld w 12 5) (fld w 0 12))
  | 0x19 => some (.xori (fld w 17 5) (fld w 12 5) (fld w 0 12))
  | 0x1A => zero w 6 6 <| some (.shli (fld w 17 5) (fld w 12 5) (fld w 0 6))
  | 0x1B => zero w 6 6 <| some (.shri (fld w 17 5) (fld w 12 5) (fld w 0 6))
  | 0x1C => zero w 6 6 <| some (.srai (fld w 17 5) (fld w 12 5) (fld w 0 6))
  | 0x1D => some (.movi (fld w 17 5) (fld w 0 17))
  | 0x1E => some (.movh (fld w 17 5) (fld w 0 17))
  | 0x1F => (Cond.ofCode (fld w 0 4)).bind fun a => some (.cmp (fld w 18 4) (fld w 14 4) (fld w 9 5) (fld w 4 5) a)
  | 0x20 => some (.cmpeqi (fld w 18 4) (fld w 14 4) (fld w 9 5) (fld w 0 9))
  | 0x21 => some (.cmplti (fld w 18 4) (fld w 14 4) (fld w 9 5) (fld w 0 9))
  | 0x22 => some (.cmpltni (fld w 18 4) (fld w 14 4) (fld w 9 5) (fld w 0 9))
  | 0x23 => zero w 0 10 <| some (.pand (fld w 18 4) (fld w 14 4) (fld w 10 4))
  | 0x24 => zero w 0 10 <| some (.por (fld w 18 4) (fld w 14 4) (fld w 10 4))
  | 0x25 => zero w 0 10 <| some (.pxor (fld w 18 4) (fld w 14 4) (fld w 10 4))
  | 0x26 => zero w 0 10 <| some (.pandn (fld w 18 4) (fld w 14 4) (fld w 10 4))
  | 0x27 => (Size.ofCode (fld w 9 3)).bind fun a => some (.ldl (fld w 17 5) (fld w 12 5) a (fld w 0 9))
  | 0x28 => (Size.ofCode (fld w 9 3)).bind fun a => some (.stl (fld w 17 5) (fld w 12 5) a (fld w 0 9))
  | 0x29 => zero w 11 6 <| some (.ldsp (fld w 17 5) (fld w 0 11))
  | 0x2A => zero w 11 6 <| some (.stsp (fld w 17 5) (fld w 0 11))
  | 0x2B => zero w 12 5 <| some (.mfc (fld w 17 5) (fld w 0 12))
  | 0x2C => zero w 12 5 <| some (.mtc (fld w 17 5) (fld w 0 12))
  | 0x2D => zero w 0 4 <| some (.mfv (fld w 17 5) (fld w 11 6) (fld w 4 7))
  | 0x2E => zero w 0 4 <| some (.mtv (fld w 16 6) (fld w 11 5) (fld w 4 7))
  | 0x2F => zero w 0 7 <| some (.fadd (fld w 17 5) (fld w 12 5) (fld w 7 5))
  | 0x30 => zero w 0 7 <| some (.fsub (fld w 17 5) (fld w 12 5) (fld w 7 5))
  | 0x31 => zero w 0 7 <| some (.fmul (fld w 17 5) (fld w 12 5) (fld w 7 5))
  | 0x32 => zero w 0 2 <| some (.fma (fld w 17 5) (fld w 12 5) (fld w 7 5) (fld w 2 5))
  | 0x33 => zero w 0 12 <| some (.fcvtif (fld w 17 5) (fld w 12 5))
  | 0x34 => zero w 0 12 <| some (.fcvtfi (fld w 17 5) (fld w 12 5))
  | 0x35 => (FCond.ofCode (fld w 0 4)).bind fun a => some (.fcmp (fld w 18 4) (fld w 14 4) (fld w 9 5) (fld w 4 5) a)
  | 0x36 => zero w 0 13 <| some (.bdmov (fld w 18 4) (fld w 13 5))
  | 0x37 => some (.tdld (fld w 16 6) (fld w 11 5) (fld w 0 11))
  | 0x38 => some (.tdst (fld w 16 6) (fld w 11 5) (fld w 0 11))
  | 0x39 => zero w 0 7 <| (TdField.ofCode (fld w 12 4)).bind fun a => some (.tdset (fld w 16 6) a (fld w 7 5))
  | 0x3A => zero w 0 13 <| some (.hset (fld w 18 4) (fld w 13 5))
  | 0x3B => zero w 0 3 <| some (.haddr (fld w 17 5) (fld w 13 4) (fld w 3 10))
  | 0x3C => zero w 0 8 <| some (.advc (fld w 18 4) (fld w 8 10))
  | 0x3D => zero w 0 8 <| some (.advp (fld w 18 4) (fld w 8 10))
  | 0x3E => zero w 0 9 <| some (.chset (fld w 19 3) (fld w 14 5) (fld w 9 5))
  | _ => none

/-- The opcode map of the V slots (07 R131, R132). -/
def decodeV (w : BitVec 32) : Option Instr :=
  match (opOf w).toNat with
  | 0x01 => (Ty.ofCode (fld w 1 3)).bind fun a => some (.vadd (fld w 16 6) (fld w 10 6) (fld w 4 6) a (bit w 0))
  | 0x02 => (Ty.ofCode (fld w 1 3)).bind fun a => some (.vsub (fld w 16 6) (fld w 10 6) (fld w 4 6) a (bit w 0))
  | 0x03 => (Ty.ofCode (fld w 1 3)).bind fun a => some (.vmul (fld w 16 6) (fld w 10 6) (fld w 4 6) a (bit w 0))
  | 0x04 => (Ty.ofCode (fld w 1 3)).bind fun a => some (.vfma (fld w 16 6) (fld w 10 6) (fld w 4 6) a (bit w 0))
  | 0x05 => (Ty.ofCode (fld w 1 3)).bind fun a => some (.vfms (fld w 16 6) (fld w 10 6) (fld w 4 6) a (bit w 0))
  | 0x06 => (Ty.ofCode (fld w 1 3)).bind fun a => some (.vmin (fld w 16 6) (fld w 10 6) (fld w 4 6) a (bit w 0))
  | 0x07 => (Ty.ofCode (fld w 1 3)).bind fun a => some (.vmax (fld w 16 6) (fld w 10 6) (fld w 4 6) a (bit w 0))
  | 0x08 => zero w 4 6 <| (Ty.ofCode (fld w 1 3)).bind fun a => ifWf (.vabs (fld w 16 6) (fld w 10 6) a (bit w 0))
  | 0x09 => zero w 4 6 <| (Ty.ofCode (fld w 1 3)).bind fun a => ifWf (.vneg (fld w 16 6) (fld w 10 6) a (bit w 0))
  | 0x0A => (Ty.ofCode (fld w 1 3)).bind fun a => some (.vand (fld w 16 6) (fld w 10 6) (fld w 4 6) a (bit w 0))
  | 0x0B => (Ty.ofCode (fld w 1 3)).bind fun a => some (.vor (fld w 16 6) (fld w 10 6) (fld w 4 6) a (bit w 0))
  | 0x0C => (Ty.ofCode (fld w 1 3)).bind fun a => some (.vxor (fld w 16 6) (fld w 10 6) (fld w 4 6) a (bit w 0))
  | 0x0D => (Ty.ofCode (fld w 1 3)).bind fun a => ifWf (.vshl (fld w 16 6) (fld w 10 6) (fld w 4 6) a (bit w 0))
  | 0x0E => (Ty.ofCode (fld w 1 3)).bind fun a => ifWf (.vshr (fld w 16 6) (fld w 10 6) (fld w 4 6) a (bit w 0))
  | 0x0F => (Ty.ofCode (fld w 1 3)).bind fun a => ifWf (.vsra (fld w 16 6) (fld w 10 6) (fld w 4 6) a (bit w 0))
  | 0x10 => (Ty.ofCode (fld w 1 3)).bind fun a => some (.vsel (fld w 16 6) (fld w 10 6) (fld w 4 6) a (bit w 0))
  | 0x11 => (Ty.ofCode (fld w 1 3)).bind fun a => some (.vcmpeq (fld w 16 6) (fld w 10 6) (fld w 4 6) a (bit w 0))
  | 0x12 => (Ty.ofCode (fld w 1 3)).bind fun a => some (.vcmplt (fld w 16 6) (fld w 10 6) (fld w 4 6) a (bit w 0))
  | 0x13 => (Ty.ofCode (fld w 1 3)).bind fun a => some (.vcmple (fld w 16 6) (fld w 10 6) (fld w 4 6) a (bit w 0))
  | 0x14 => zero w 9 1 <| (Ty.ofCode (fld w 1 3)).bind fun a => some (.vadds (fld w 16 6) (fld w 10 6) (fld w 4 5) a (bit w 0))
  | 0x15 => zero w 9 1 <| (Ty.ofCode (fld w 1 3)).bind fun a => some (.vmuls (fld w 16 6) (fld w 10 6) (fld w 4 5) a (bit w 0))
  | 0x16 => zero w 9 1 <| (Ty.ofCode (fld w 1 3)).bind fun a => some (.vfmas (fld w 16 6) (fld w 10 6) (fld w 4 5) a (bit w 0))
  | 0x17 => zero w 9 1 <| (Ty.ofCode (fld w 1 3)).bind fun a => some (.vmaxs (fld w 16 6) (fld w 10 6) (fld w 4 5) a (bit w 0))
  | 0x18 => (Ty.ofCode (fld w 1 3)).bind fun a => (Group.ofCode (fld w 0 1)).bind fun b => ifWf (.vwmul (fld w 16 6) (fld w 10 6) (fld w 4 6) a b)
  | 0x19 => (Ty.ofCode (fld w 1 3)).bind fun a => (Group.ofCode (fld w 0 1)).bind fun b => ifWf (.vwadd (fld w 16 6) (fld w 10 6) (fld w 4 6) a b)
  | 0x1A => zero w 4 6 <| (Ty.ofCode (fld w 1 3)).bind fun a => (Group.ofCode (fld w 0 1)).bind fun b => ifWf (.vnarrow (fld w 16 6) (fld w 10 6) a b)
  | 0x1B => zero w 4 3 <| (Ty.ofCode (fld w 1 3)).bind fun a => (Ty.ofCode (fld w 7 3)).bind fun b => some (.vcvt (fld w 16 6) (fld w 10 6) a b (bit w 0))
  | 0x1C => zero w 1 9 <| some (.vrsqe (fld w 16 6) (fld w 10 6) (bit w 0))
  | 0x1D => zero w 1 9 <| some (.vrcpe (fld w 16 6) (fld w 10 6) (bit w 0))
  | 0x1E => zero w 1 9 <| some (.vexp2e (fld w 16 6) (fld w 10 6) (bit w 0))
  | 0x1F => zero w 1 9 <| some (.vlog2e (fld w 16 6) (fld w 10 6) (bit w 0))
  | 0x20 => zero w 6 4 <| (RedOp.ofCode (fld w 4 2)).bind fun a => (Ty.ofCode (fld w 1 3)).bind fun b => some (.vred (fld w 16 6) (fld w 10 6) a b (bit w 0))
  | 0x21 => zero w 6 4 <| (RedOp.ofCode (fld w 4 2)).bind fun a => (Ty.ofCode (fld w 1 3)).bind fun b => some (.vscan (fld w 16 6) (fld w 10 6) a b (bit w 0))
  | 0x22 => (Ty.ofCode (fld w 1 3)).bind fun a => some (.vperm (fld w 16 6) (fld w 10 6) (fld w 4 6) a (bit w 0))
  | 0x23 => (Ty.ofCode (fld w 1 3)).bind fun a => ifWf (.vshuf (fld w 16 6) (fld w 10 6) (fld w 4 6) a (bit w 0))
  | 0x24 => zero w 9 1 <| (Ty.ofCode (fld w 1 3)).bind fun a => some (.vbcast (fld w 16 6) (fld w 10 6) (fld w 4 5) a (bit w 0))
  | 0x25 => (Ty.ofCode (fld w 1 3)).bind fun a => ifWf (.vdot (fld w 16 6) (fld w 10 6) (fld w 4 6) a (bit w 0))
  | 0x26 => some (.vch (fld w 16 6) (fld w 10 6) (fld w 4 6) (fld w 1 3) (bit w 0))
  | 0x27 => zero w 4 6 <| (Ty.ofCode (fld w 1 3)).bind fun a => some (.vmov (fld w 16 6) (fld w 10 6) a (bit w 0))
  | 0x28 => zero w 9 7 <| (Ty.ofCode (fld w 1 3)).bind fun a => some (.vmovs (fld w 16 6) (fld w 4 5) a (bit w 0))
  | 0x29 => zero w 4 12 <| (Ty.ofCode (fld w 1 3)).bind fun a => some (.viota (fld w 16 6) a (bit w 0))
  | 0x2A => zero w 4 6 <| (Ty.ofCode (fld w 1 3)).bind fun a => some (.vcnt (fld w 16 6) (fld w 10 6) a (bit w 0))
  | 0x2B => some (.vld (fld w 16 6) (fld w 11 5) (fld w 0 11))
  | 0x2C => some (.vst (fld w 16 6) (fld w 11 5) (fld w 0 11))
  | 0x2D => some (.vldc (fld w 16 6) (fld w 11 5) (fld w 6 5) (fld w 0 6))
  | 0x2E => some (.vstc (fld w 16 6) (fld w 11 5) (fld w 6 5) (fld w 0 6))
  | 0x2F => zero w 0 2 <| some (.vldh (fld w 16 6) (fld w 12 4) (fld w 2 10))
  | 0x30 => zero w 0 2 <| some (.vsth (fld w 16 6) (fld w 12 4) (fld w 2 10))
  | 0x31 => zero w 16 6 <| some (.vwin (fld w 11 5) (fld w 0 11))
  | _ => none

/-- The opcode map of the M slot (07 R133). -/
def decodeM (w : BitVec 32) : Option Instr :=
  match (opOf w).toNat with
  | 0x01 => zero w 0 22 <| some .mlease
  | 0x02 => zero w 0 22 <| some .mrel
  | 0x03 => zero w 0 6 <| some (.omclm (fld w 16 6) (fld w 10 6) (fld w 6 4))
  | 0x04 => zero w 0 10 <| some (.omrel (fld w 16 6) (fld w 10 6))
  | 0x05 => zero w 0 6 <| some (.mma (fld w 16 6) (fld w 10 6) (bit w 9) (bit w 8) (bit w 7) (bit w 6))
  | 0x06 => zero w 0 6 <| some (.mmar (fld w 16 6) (fld w 10 6) (bit w 9) (bit w 8) (bit w 7) (bit w 6))
  | 0x07 => zero w 0 22 <| some .mzero
  | 0x08 => zero w 0 16 <| some (.mdrain (fld w 16 6))
  | 0x09 => zero w 0 22 <| some .mresume
  | 0x0A => zero w 0 17 <| some (.mstat (fld w 17 5))
  | 0x0B => zero w 0 16 <| some (.macc (fld w 16 6))
  | 0x10 => zero w 0 5 <| some (.chbeg (fld w 17 5) (fld w 11 6) (fld w 5 6))
  | 0x11 => zero w 0 18 <| some (.chstep (fld w 18 4))
  | 0x12 => zero w 0 22 <| some .chrun
  | 0x13 => zero w 0 22 <| some .chend
  | 0x14 => zero w 0 4 <| some (.chgrad (fld w 16 6) (fld w 10 6) (fld w 4 6))
  | 0x15 => zero w 0 22 <| some .chabort
  | _ => none

/-- The opcode map of the C slots (07 R134). -/
def decodeC (w : BitVec 32) : Option Instr :=
  match (opOf w).toNat with
  | 0x01 => zero w 0 8 <| (Hint.ofCode (fld w 8 2)).bind fun a => some (.copy (fld w 16 6) (fld w 10 6) a)
  | 0x02 => zero w 0 10 <| (Hint.ofCode (fld w 10 2)).bind fun a => some (.copyh (fld w 18 4) (fld w 12 6) a)
  | 0x03 => zero w 0 11 <| some (.cbatch (fld w 17 5) (fld w 12 5) (bit w 11))
  | 0x04 => zero w 0 2 <| (Hint.ofCode (fld w 2 2)).bind fun a => some (.gather (fld w 16 6) (fld w 10 6) (fld w 4 6) a)
  | 0x05 => zero w 0 2 <| (Hint.ofCode (fld w 2 2)).bind fun a => some (.scatter (fld w 16 6) (fld w 10 6) (fld w 4 6) a)
  | 0x06 => (Order.ofCode (fld w 1 2)).bind fun a => (Width.ofCode (fld w 0 1)).bind fun b => some (.amo (fld w 18 4) (fld w 13 5) (fld w 8 5) (fld w 3 5) a b)
  | 0x07 => (Order.ofCode (fld w 0 2)).bind fun a => some (.amocas (fld w 17 5) (fld w 12 5) (fld w 7 5) (fld w 2 5) a)
  | 0x08 => zero w 0 17 <| some (.qfence (QMask.ofCode (fld w 17 5)))
  | 0x09 => zero w 0 14 <| some (.stmap (fld w 19 3) (fld w 14 5))
  | 0x0A => zero w 0 14 <| some (.stflush (fld w 14 8))
  | 0x0B => zero w 0 14 <| some (.stinv (fld w 14 8))
  | 0x0C => zero w 10 6 <| zero w 0 8 <| (Hint.ofCode (fld w 8 2)).bind fun a => some (.pref (fld w 16 6) a)
  | 0x0D => zero w 0 6 <| some (.decomp (fld w 16 6) (fld w 10 6) (fld w 6 4))
  | 0x0E => zero w 0 16 <| some (.ddict (fld w 16 6))
  | 0x0F => zero w 0 7 <| some (.bkcmd (fld w 17 5) (fld w 12 5) (fld w 7 5))
  | 0x10 => zero w 0 11 <| some (.bkvec (fld w 16 6) (fld w 11 5))
  | 0x11 => some (.lease (fld w 18 4) (fld w 14 4) (fld w 8 6) (fld w 5 3) (fld w 0 5))
  | 0x12 => zero w 5 3 <| some (.lrel (fld w 18 4) (fld w 14 4) (fld w 8 6) (fld w 0 5))
  | 0x13 => zero w 8 6 <| some (.lrenew (fld w 18 4) (fld w 14 4) (fld w 5 3) (fld w 0 5))
  | 0x14 => zero w 5 9 <| some (.lqry (fld w 18 4) (fld w 14 4) (fld w 0 5))
  | 0x15 => zero w 0 11 <| some (.colstep (fld w 16 6) (fld w 11 5))
  | 0x30 => zero w 0 10 <| some (.persist (fld w 16 6) (fld w 10 6))
  | 0x31 => zero w 0 10 <| some (.scmrd (fld w 16 6) (fld w 10 6))
  | _ => none

/-- The opcode map of the X slot (07 R135, 11 R225). -/
def decodeX (w : BitVec 32) : Option Instr :=
  match (opOf w).toNat with
  | 0x01 => zero w 7 3 <| (XW.ofCode (fld w 1 3)).bind fun a => some (.xpose (fld w 16 6) (fld w 10 6) (fld w 4 3) a (bit w 0))
  | 0x02 => (Fmt.ofCode (fld w 6 4)).bind fun a => (Fmt.ofCode (fld w 2 4)).bind fun b => (XRound.ofCode (fld w 0 2)).bind fun c => ifWf (.xcvt (fld w 16 6) (fld w 10 6) a b c)
  | 0x03 => zero w 0 1 <| ifWf (.xpack (fld w 16 6) (fld w 10 6) (fld w 4 6) (fld w 2 2) (bit w 1))
  | 0x04 => zero w 2 2 <| zero w 0 1 <| ifWf (.xunpk (fld w 16 6) (fld w 10 6) (fld w 4 6) (bit w 1))
  | 0x05 => zero w 8 2 <| zero w 1 3 <| some (.xtbl (fld w 16 6) (fld w 10 6) (fld w 4 4) (bit w 0))
  | 0x06 => zero w 8 2 <| zero w 0 4 <| ifWf (.xtld (fld w 16 6) (fld w 10 6) (fld w 4 4))
  | 0x07 => zero w 0 22 <| some .xtsw
  | 0x08 => zero w 10 6 <| some (.xexp (fld w 16 6) (fld w 4 6) (fld w 1 3) (bit w 0))
  | 0x09 => zero w 0 1 <| (XW.ofCode (fld w 1 3)).bind fun a => ifWf (.xzip (fld w 16 6) (fld w 10 6) (fld w 4 6) a)
  | 0x0A => zero w 4 6 <| zero w 0 1 <| (XW.ofCode (fld w 1 3)).bind fun a => ifWf (.xunzip (fld w 16 6) (fld w 10 6) a)
  | 0x0B => (XW.ofCode (fld w 1 3)).bind fun a => some (.xexpand (fld w 16 6) (fld w 10 6) (fld w 4 6) a (bit w 0))
  | 0x0C => (XW.ofCode (fld w 1 3)).bind fun a => some (.xcompr (fld w 16 6) (fld w 10 6) (fld w 4 6) a (bit w 0))
  | _ => none

/-- The Crisum commands (14 R292): any bit a row does not name is zero. -/
def decodeCrisumCore (w : BitVec 32) : Option Instr :=
  match (fld w 27 5).toNat with
  | 0x00 => zero w 0 27 <| some .bnop
  | 0x01 => match (fld w 21 2).toNat with
    | 0 => zero w 16 5 <| some (.bsetrLo (fld w 23 4) (fld w 0 16))
    | 1 => zero w 16 5 <| some (.bsetrHi (fld w 23 4) (fld w 0 16))
    | 2 => zero w 16 5 <| some (.bsetrAdd (fld w 23 4) (fld w 0 16))
    | _ => none
  | 0x02 => zero w 0 17 <| some (.bseg (fld w 25 2) (fld w 21 4) (fld w 17 4))
  | 0x03 => zero w 0 7 <| (BTy.ofCode (fld w 17 2)).bind fun a => some (.bmac (fld w 25 2) (fld w 23 2) (fld w 19 4) a (fld w 7 10))
  | 0x04 => zero w 0 7 <| (BTy.ofCode (fld w 17 2)).bind fun a => some (.bmacn (fld w 25 2) (fld w 23 2) (fld w 19 4) a (fld w 7 10))
  | 0x05 => if bit w 22 then zero w 23 2 <| zero w 0 22 <| some (.bredTree (fld w 25 2)) else zero w 0 22 <| some (.bred (fld w 25 2) (fld w 23 2))
  | 0x06 => zero w 0 21 <| some (.bscl (fld w 25 2) (fld w 21 4))
  | 0x07 => zero w 0 23 <| (BFmt.ofCode (fld w 23 2)).bind fun a => some (.bcvt (fld w 25 2) a)
  | 0x08 => zero w 0 15 <| some (.bout (fld w 25 2) (fld w 21 4) (fld w 15 6))
  | 0x09 => zero w 0 23 <| some (.bclr (fld w 23 4))
  | 0x0A => zero w 0 23 <| some (.bloop (fld w 23 4))
  | 0x0B => zero w 0 27 <| some .bend
  | 0x0C => zero w 0 23 <| some (.bsig (fld w 23 4))
  | 0x0D => zero w 0 27 <| some .bhalt
  | 0x0E => zero w 17 4 <| zero w 0 7 <| some (.bldv (fld w 23 4) (fld w 21 2) (fld w 7 10))
  | _ => none
/-- Class, opcode and operand bits of a slot instruction (07 R127-R135). No event and no encoding that is not an
instruction has one. -/
def encodeOp : Instr → Option (SlotClass × Nat × Nat)
  | .br x0 => some (.k, 0x01, put 0 x0)
  | .bri x0 => some (.k, 0x02, put 17 x0)
  | .call x0 => some (.k, 0x03, put 0 x0)
  | .calli x0 => some (.k, 0x04, put 17 x0)
  | .ret => some (.k, 0x05, 0)
  | .loop x0 x1 x2 => some (.k, 0x06, put 20 x0 + put 15 x1 + put 0 x2)
  | .loopi x0 x1 x2 => some (.k, 0x07, put 20 x0 + put 10 x1 + put 0 x2)
  | .mloop x0 x1 x2 x3 => some (.k, 0x08, put 20 x0 + put 15 x1 + put 11 x2 + put 0 x3)
  | .lexit x0 => some (.k, 0x09, put 20 x0)
  | .exit => some (.k, 0x0A, 0)
  | .yield => some (.k, 0x0B, 0)
  | .hbar => some (.k, 0x0C, 0)
  | .waitf x0 x1 => some (.k, 0x0D, put 18 x0 + put 8 x1)
  | .waite x0 x1 => some (.k, 0x0E, put 18 x0 + put 8 x1)
  | .waita x0 x1 x2 x3 => some (.k, 0x0F, put 17 x0 + put 12 x1 + put 9 x2.code + put 8 x3.code)
  | .waitb x0 => some (.k, 0x10, put 16 x0)
  | .waitq x0 => some (.k, 0x11, put 17 x0.code)
  | .drain => some (.k, 0x12, 0)
  | .probe x0 x1 x2 => some (.k, 0x13, put 17 x0 + put 12 x1 + put 11 (BitVec.ofBool x2))
  | .spawn x0 x1 => some (.k, 0x14, put 17 x0 + put 13 x1)
  | .spawnw x0 => some (.k, 0x15, put 17 x0)
  | .trap x0 => some (.k, 0x16, put 0 x0)
  | .clkdiv x0 x1 => some (.k, 0x17, put 20 x0.code + put 16 x1)
  | .rot x0 => some (.k, 0x18, put 0 x0)
  | .tret => some (.k, 0x19, 0)
  | .rte => some (.k, 0x30, 0)
  | .mtsr x0 x1 => some (.k, 0x31, put 17 x0 + put 0 x1)
  | .mfsr x0 x1 => some (.k, 0x32, put 17 x0 + put 0 x1)
  | .halt => some (.k, 0x33, 0)
  | .pfack => some (.k, 0x34, 0)
  | .xinv x0 x1 => some (.k, 0x35, put 17 x0 + put 12 x1)
  | .errack x0 => some (.k, 0x36, put 17 x0)
  | .ckmark x0 => some (.k, 0x37, put 17 x0)
  | .add x0 x1 x2 => some (.s, 0x01, put 17 x0 + put 12 x1 + put 7 x2)
  | .sub x0 x1 x2 => some (.s, 0x02, put 17 x0 + put 12 x1 + put 7 x2)
  | .mul x0 x1 x2 => some (.s, 0x03, put 17 x0 + put 12 x1 + put 7 x2)
  | .mulh x0 x1 x2 => some (.s, 0x04, put 17 x0 + put 12 x1 + put 7 x2)
  | .mulhn x0 x1 x2 => some (.s, 0x05, put 17 x0 + put 12 x1 + put 7 x2)
  | .div x0 x1 x2 => some (.s, 0x06, put 17 x0 + put 12 x1 + put 7 x2)
  | .divn x0 x1 x2 => some (.s, 0x07, put 17 x0 + put 12 x1 + put 7 x2)
  | .rem x0 x1 x2 => some (.s, 0x08, put 17 x0 + put 12 x1 + put 7 x2)
  | .and x0 x1 x2 => some (.s, 0x09, put 17 x0 + put 12 x1 + put 7 x2)
  | .or x0 x1 x2 => some (.s, 0x0A, put 17 x0 + put 12 x1 + put 7 x2)
  | .xor x0 x1 x2 => some (.s, 0x0B, put 17 x0 + put 12 x1 + put 7 x2)
  | .shl x0 x1 x2 => some (.s, 0x0C, put 17 x0 + put 12 x1 + put 7 x2)
  | .shr x0 x1 x2 => some (.s, 0x0D, put 17 x0 + put 12 x1 + put 7 x2)
  | .sra x0 x1 x2 => some (.s, 0x0E, put 17 x0 + put 12 x1 + put 7 x2)
  | .min x0 x1 x2 => some (.s, 0x0F, put 17 x0 + put 12 x1 + put 7 x2)
  | .max x0 x1 x2 => some (.s, 0x10, put 17 x0 + put 12 x1 + put 7 x2)
  | .minn x0 x1 x2 => some (.s, 0x11, put 17 x0 + put 12 x1 + put 7 x2)
  | .maxn x0 x1 x2 => some (.s, 0x12, put 17 x0 + put 12 x1 + put 7 x2)
  | .clz x0 x1 => some (.s, 0x13, put 17 x0 + put 12 x1)
  | .popc x0 x1 => some (.s, 0x14, put 17 x0 + put 12 x1)
  | .sel x0 x1 x2 x3 => some (.s, 0x15, put 17 x0 + put 12 x1 + put 7 x2 + put 0 x3)
  | .addi x0 x1 x2 => some (.s, 0x16, put 17 x0 + put 12 x1 + put 0 x2)
  | .andi x0 x1 x2 => some (.s, 0x17, put 17 x0 + put 12 x1 + put 0 x2)
  | .ori x0 x1 x2 => some (.s, 0x18, put 17 x0 + put 12 x1 + put 0 x2)
  | .xori x0 x1 x2 => some (.s, 0x19, put 17 x0 + put 12 x1 + put 0 x2)
  | .shli x0 x1 x2 => some (.s, 0x1A, put 17 x0 + put 12 x1 + put 0 x2)
  | .shri x0 x1 x2 => some (.s, 0x1B, put 17 x0 + put 12 x1 + put 0 x2)
  | .srai x0 x1 x2 => some (.s, 0x1C, put 17 x0 + put 12 x1 + put 0 x2)
  | .movi x0 x1 => some (.s, 0x1D, put 17 x0 + put 0 x1)
  | .movh x0 x1 => some (.s, 0x1E, put 17 x0 + put 0 x1)
  | .cmp x0 x1 x2 x3 x4 => some (.s, 0x1F, put 18 x0 + put 14 x1 + put 9 x2 + put 4 x3 + put 0 x4.code)
  | .cmpeqi x0 x1 x2 x3 => some (.s, 0x20, put 18 x0 + put 14 x1 + put 9 x2 + put 0 x3)
  | .cmplti x0 x1 x2 x3 => some (.s, 0x21, put 18 x0 + put 14 x1 + put 9 x2 + put 0 x3)
  | .cmpltni x0 x1 x2 x3 => some (.s, 0x22, put 18 x0 + put 14 x1 + put 9 x2 + put 0 x3)
  | .pand x0 x1 x2 => some (.s, 0x23, put 18 x0 + put 14 x1 + put 10 x2)
  | .por x0 x1 x2 => some (.s, 0x24, put 18 x0 + put 14 x1 + put 10 x2)
  | .pxor x0 x1 x2 => some (.s, 0x25, put 18 x0 + put 14 x1 + put 10 x2)
  | .pandn x0 x1 x2 => some (.s, 0x26, put 18 x0 + put 14 x1 + put 10 x2)
  | .ldl x0 x1 x2 x3 => some (.s, 0x27, put 17 x0 + put 12 x1 + put 9 x2.code + put 0 x3)
  | .stl x0 x1 x2 x3 => some (.s, 0x28, put 17 x0 + put 12 x1 + put 9 x2.code + put 0 x3)
  | .ldsp x0 x1 => some (.s, 0x29, put 17 x0 + put 0 x1)
  | .stsp x0 x1 => some (.s, 0x2A, put 17 x0 + put 0 x1)
  | .mfc x0 x1 => some (.s, 0x2B, put 17 x0 + put 0 x1)
  | .mtc x0 x1 => some (.s, 0x2C, put 17 x0 + put 0 x1)
  | .mfv x0 x1 x2 => some (.s, 0x2D, put 17 x0 + put 11 x1 + put 4 x2)
  | .mtv x0 x1 x2 => some (.s, 0x2E, put 16 x0 + put 11 x1 + put 4 x2)
  | .fadd x0 x1 x2 => some (.s, 0x2F, put 17 x0 + put 12 x1 + put 7 x2)
  | .fsub x0 x1 x2 => some (.s, 0x30, put 17 x0 + put 12 x1 + put 7 x2)
  | .fmul x0 x1 x2 => some (.s, 0x31, put 17 x0 + put 12 x1 + put 7 x2)
  | .fma x0 x1 x2 x3 => some (.s, 0x32, put 17 x0 + put 12 x1 + put 7 x2 + put 2 x3)
  | .fcvtif x0 x1 => some (.s, 0x33, put 17 x0 + put 12 x1)
  | .fcvtfi x0 x1 => some (.s, 0x34, put 17 x0 + put 12 x1)
  | .fcmp x0 x1 x2 x3 x4 => some (.s, 0x35, put 18 x0 + put 14 x1 + put 9 x2 + put 4 x3 + put 0 x4.code)
  | .bdmov x0 x1 => some (.s, 0x36, put 18 x0 + put 13 x1)
  | .tdld x0 x1 x2 => some (.s, 0x37, put 16 x0 + put 11 x1 + put 0 x2)
  | .tdst x0 x1 x2 => some (.s, 0x38, put 16 x0 + put 11 x1 + put 0 x2)
  | .tdset x0 x1 x2 => some (.s, 0x39, put 16 x0 + put 12 x1.code + put 7 x2)
  | .hset x0 x1 => some (.s, 0x3A, put 18 x0 + put 13 x1)
  | .haddr x0 x1 x2 => some (.s, 0x3B, put 17 x0 + put 13 x1 + put 3 x2)
  | .advc x0 x1 => some (.s, 0x3C, put 18 x0 + put 8 x1)
  | .advp x0 x1 => some (.s, 0x3D, put 18 x0 + put 8 x1)
  | .chset x0 x1 x2 => some (.s, 0x3E, put 19 x0 + put 14 x1 + put 9 x2)
  | .vadd x0 x1 x2 x3 x4 => some (.v, 0x01, put 16 x0 + put 10 x1 + put 4 x2 + put 1 x3.code + put 0 (BitVec.ofBool x4))
  | .vsub x0 x1 x2 x3 x4 => some (.v, 0x02, put 16 x0 + put 10 x1 + put 4 x2 + put 1 x3.code + put 0 (BitVec.ofBool x4))
  | .vmul x0 x1 x2 x3 x4 => some (.v, 0x03, put 16 x0 + put 10 x1 + put 4 x2 + put 1 x3.code + put 0 (BitVec.ofBool x4))
  | .vfma x0 x1 x2 x3 x4 => some (.v, 0x04, put 16 x0 + put 10 x1 + put 4 x2 + put 1 x3.code + put 0 (BitVec.ofBool x4))
  | .vfms x0 x1 x2 x3 x4 => some (.v, 0x05, put 16 x0 + put 10 x1 + put 4 x2 + put 1 x3.code + put 0 (BitVec.ofBool x4))
  | .vmin x0 x1 x2 x3 x4 => some (.v, 0x06, put 16 x0 + put 10 x1 + put 4 x2 + put 1 x3.code + put 0 (BitVec.ofBool x4))
  | .vmax x0 x1 x2 x3 x4 => some (.v, 0x07, put 16 x0 + put 10 x1 + put 4 x2 + put 1 x3.code + put 0 (BitVec.ofBool x4))
  | .vabs x0 x1 x2 x3 => some (.v, 0x08, put 16 x0 + put 10 x1 + put 1 x2.code + put 0 (BitVec.ofBool x3))
  | .vneg x0 x1 x2 x3 => some (.v, 0x09, put 16 x0 + put 10 x1 + put 1 x2.code + put 0 (BitVec.ofBool x3))
  | .vand x0 x1 x2 x3 x4 => some (.v, 0x0A, put 16 x0 + put 10 x1 + put 4 x2 + put 1 x3.code + put 0 (BitVec.ofBool x4))
  | .vor x0 x1 x2 x3 x4 => some (.v, 0x0B, put 16 x0 + put 10 x1 + put 4 x2 + put 1 x3.code + put 0 (BitVec.ofBool x4))
  | .vxor x0 x1 x2 x3 x4 => some (.v, 0x0C, put 16 x0 + put 10 x1 + put 4 x2 + put 1 x3.code + put 0 (BitVec.ofBool x4))
  | .vshl x0 x1 x2 x3 x4 => some (.v, 0x0D, put 16 x0 + put 10 x1 + put 4 x2 + put 1 x3.code + put 0 (BitVec.ofBool x4))
  | .vshr x0 x1 x2 x3 x4 => some (.v, 0x0E, put 16 x0 + put 10 x1 + put 4 x2 + put 1 x3.code + put 0 (BitVec.ofBool x4))
  | .vsra x0 x1 x2 x3 x4 => some (.v, 0x0F, put 16 x0 + put 10 x1 + put 4 x2 + put 1 x3.code + put 0 (BitVec.ofBool x4))
  | .vsel x0 x1 x2 x3 x4 => some (.v, 0x10, put 16 x0 + put 10 x1 + put 4 x2 + put 1 x3.code + put 0 (BitVec.ofBool x4))
  | .vcmpeq x0 x1 x2 x3 x4 => some (.v, 0x11, put 16 x0 + put 10 x1 + put 4 x2 + put 1 x3.code + put 0 (BitVec.ofBool x4))
  | .vcmplt x0 x1 x2 x3 x4 => some (.v, 0x12, put 16 x0 + put 10 x1 + put 4 x2 + put 1 x3.code + put 0 (BitVec.ofBool x4))
  | .vcmple x0 x1 x2 x3 x4 => some (.v, 0x13, put 16 x0 + put 10 x1 + put 4 x2 + put 1 x3.code + put 0 (BitVec.ofBool x4))
  | .vadds x0 x1 x2 x3 x4 => some (.v, 0x14, put 16 x0 + put 10 x1 + put 4 x2 + put 1 x3.code + put 0 (BitVec.ofBool x4))
  | .vmuls x0 x1 x2 x3 x4 => some (.v, 0x15, put 16 x0 + put 10 x1 + put 4 x2 + put 1 x3.code + put 0 (BitVec.ofBool x4))
  | .vfmas x0 x1 x2 x3 x4 => some (.v, 0x16, put 16 x0 + put 10 x1 + put 4 x2 + put 1 x3.code + put 0 (BitVec.ofBool x4))
  | .vmaxs x0 x1 x2 x3 x4 => some (.v, 0x17, put 16 x0 + put 10 x1 + put 4 x2 + put 1 x3.code + put 0 (BitVec.ofBool x4))
  | .vwmul x0 x1 x2 x3 x4 => some (.v, 0x18, put 16 x0 + put 10 x1 + put 4 x2 + put 1 x3.code + put 0 x4.code)
  | .vwadd x0 x1 x2 x3 x4 => some (.v, 0x19, put 16 x0 + put 10 x1 + put 4 x2 + put 1 x3.code + put 0 x4.code)
  | .vnarrow x0 x1 x2 x3 => some (.v, 0x1A, put 16 x0 + put 10 x1 + put 1 x2.code + put 0 x3.code)
  | .vcvt x0 x1 x2 x3 x4 => some (.v, 0x1B, put 16 x0 + put 10 x1 + put 1 x2.code + put 7 x3.code + put 0 (BitVec.ofBool x4))
  | .vrsqe x0 x1 x2 => some (.v, 0x1C, put 16 x0 + put 10 x1 + put 0 (BitVec.ofBool x2))
  | .vrcpe x0 x1 x2 => some (.v, 0x1D, put 16 x0 + put 10 x1 + put 0 (BitVec.ofBool x2))
  | .vexp2e x0 x1 x2 => some (.v, 0x1E, put 16 x0 + put 10 x1 + put 0 (BitVec.ofBool x2))
  | .vlog2e x0 x1 x2 => some (.v, 0x1F, put 16 x0 + put 10 x1 + put 0 (BitVec.ofBool x2))
  | .vred x0 x1 x2 x3 x4 => some (.v, 0x20, put 16 x0 + put 10 x1 + put 4 x2.code + put 1 x3.code + put 0 (BitVec.ofBool x4))
  | .vscan x0 x1 x2 x3 x4 => some (.v, 0x21, put 16 x0 + put 10 x1 + put 4 x2.code + put 1 x3.code + put 0 (BitVec.ofBool x4))
  | .vperm x0 x1 x2 x3 x4 => some (.v, 0x22, put 16 x0 + put 10 x1 + put 4 x2 + put 1 x3.code + put 0 (BitVec.ofBool x4))
  | .vshuf x0 x1 x2 x3 x4 => some (.v, 0x23, put 16 x0 + put 10 x1 + put 4 x2 + put 1 x3.code + put 0 (BitVec.ofBool x4))
  | .vbcast x0 x1 x2 x3 x4 => some (.v, 0x24, put 16 x0 + put 10 x1 + put 4 x2 + put 1 x3.code + put 0 (BitVec.ofBool x4))
  | .vdot x0 x1 x2 x3 x4 => some (.v, 0x25, put 16 x0 + put 10 x1 + put 4 x2 + put 1 x3.code + put 0 (BitVec.ofBool x4))
  | .vch x0 x1 x2 x3 x4 => some (.v, 0x26, put 16 x0 + put 10 x1 + put 4 x2 + put 1 x3 + put 0 (BitVec.ofBool x4))
  | .vmov x0 x1 x2 x3 => some (.v, 0x27, put 16 x0 + put 10 x1 + put 1 x2.code + put 0 (BitVec.ofBool x3))
  | .vmovs x0 x1 x2 x3 => some (.v, 0x28, put 16 x0 + put 4 x1 + put 1 x2.code + put 0 (BitVec.ofBool x3))
  | .viota x0 x1 x2 => some (.v, 0x29, put 16 x0 + put 1 x1.code + put 0 (BitVec.ofBool x2))
  | .vcnt x0 x1 x2 x3 => some (.v, 0x2A, put 16 x0 + put 10 x1 + put 1 x2.code + put 0 (BitVec.ofBool x3))
  | .vld x0 x1 x2 => some (.v, 0x2B, put 16 x0 + put 11 x1 + put 0 x2)
  | .vst x0 x1 x2 => some (.v, 0x2C, put 16 x0 + put 11 x1 + put 0 x2)
  | .vldc x0 x1 x2 x3 => some (.v, 0x2D, put 16 x0 + put 11 x1 + put 6 x2 + put 0 x3)
  | .vstc x0 x1 x2 x3 => some (.v, 0x2E, put 16 x0 + put 11 x1 + put 6 x2 + put 0 x3)
  | .vldh x0 x1 x2 => some (.v, 0x2F, put 16 x0 + put 12 x1 + put 2 x2)
  | .vsth x0 x1 x2 => some (.v, 0x30, put 16 x0 + put 12 x1 + put 2 x2)
  | .vwin x0 x1 => some (.v, 0x31, put 11 x0 + put 0 x1)
  | .mlease => some (.m, 0x01, 0)
  | .mrel => some (.m, 0x02, 0)
  | .omclm x0 x1 x2 => some (.m, 0x03, put 16 x0 + put 10 x1 + put 6 x2)
  | .omrel x0 x1 => some (.m, 0x04, put 16 x0 + put 10 x1)
  | .mma x0 x1 x2 x3 x4 x5 => some (.m, 0x05, put 16 x0 + put 10 x1 + put 9 (BitVec.ofBool x2) + put 8 (BitVec.ofBool x3) + put 7 (BitVec.ofBool x4) + put 6 (BitVec.ofBool x5))
  | .mmar x0 x1 x2 x3 x4 x5 => some (.m, 0x06, put 16 x0 + put 10 x1 + put 9 (BitVec.ofBool x2) + put 8 (BitVec.ofBool x3) + put 7 (BitVec.ofBool x4) + put 6 (BitVec.ofBool x5))
  | .mzero => some (.m, 0x07, 0)
  | .mdrain x0 => some (.m, 0x08, put 16 x0)
  | .mresume => some (.m, 0x09, 0)
  | .mstat x0 => some (.m, 0x0A, put 17 x0)
  | .macc x0 => some (.m, 0x0B, put 16 x0)
  | .chbeg x0 x1 x2 => some (.m, 0x10, put 17 x0 + put 11 x1 + put 5 x2)
  | .chstep x0 => some (.m, 0x11, put 18 x0)
  | .chrun => some (.m, 0x12, 0)
  | .chend => some (.m, 0x13, 0)
  | .chgrad x0 x1 x2 => some (.m, 0x14, put 16 x0 + put 10 x1 + put 4 x2)
  | .chabort => some (.m, 0x15, 0)
  | .copy x0 x1 x2 => some (.c, 0x01, put 16 x0 + put 10 x1 + put 8 x2.code)
  | .copyh x0 x1 x2 => some (.c, 0x02, put 18 x0 + put 12 x1 + put 10 x2.code)
  | .cbatch x0 x1 x2 => some (.c, 0x03, put 17 x0 + put 12 x1 + put 11 (BitVec.ofBool x2))
  | .gather x0 x1 x2 x3 => some (.c, 0x04, put 16 x0 + put 10 x1 + put 4 x2 + put 2 x3.code)
  | .scatter x0 x1 x2 x3 => some (.c, 0x05, put 16 x0 + put 10 x1 + put 4 x2 + put 2 x3.code)
  | .amo x0 x1 x2 x3 x4 x5 => some (.c, 0x06, put 18 x0 + put 13 x1 + put 8 x2 + put 3 x3 + put 1 x4.code + put 0 x5.code)
  | .amocas x0 x1 x2 x3 x4 => some (.c, 0x07, put 17 x0 + put 12 x1 + put 7 x2 + put 2 x3 + put 0 x4.code)
  | .qfence x0 => some (.c, 0x08, put 17 x0.code)
  | .stmap x0 x1 => some (.c, 0x09, put 19 x0 + put 14 x1)
  | .stflush x0 => some (.c, 0x0A, put 14 x0)
  | .stinv x0 => some (.c, 0x0B, put 14 x0)
  | .pref x0 x1 => some (.c, 0x0C, put 16 x0 + put 8 x1.code)
  | .decomp x0 x1 x2 => some (.c, 0x0D, put 16 x0 + put 10 x1 + put 6 x2)
  | .ddict x0 => some (.c, 0x0E, put 16 x0)
  | .bkcmd x0 x1 x2 => some (.c, 0x0F, put 17 x0 + put 12 x1 + put 7 x2)
  | .bkvec x0 x1 => some (.c, 0x10, put 16 x0 + put 11 x1)
  | .lease x0 x1 x2 x3 x4 => some (.c, 0x11, put 18 x0 + put 14 x1 + put 8 x2 + put 5 x3 + put 0 x4)
  | .lrel x0 x1 x2 x3 => some (.c, 0x12, put 18 x0 + put 14 x1 + put 8 x2 + put 0 x3)
  | .lrenew x0 x1 x2 x3 => some (.c, 0x13, put 18 x0 + put 14 x1 + put 5 x2 + put 0 x3)
  | .lqry x0 x1 x2 => some (.c, 0x14, put 18 x0 + put 14 x1 + put 0 x2)
  | .colstep x0 x1 => some (.c, 0x15, put 16 x0 + put 11 x1)
  | .persist x0 x1 => some (.c, 0x30, put 16 x0 + put 10 x1)
  | .scmrd x0 x1 => some (.c, 0x31, put 16 x0 + put 10 x1)
  | .xpose x0 x1 x2 x3 x4 => some (.x, 0x01, put 16 x0 + put 10 x1 + put 4 x2 + put 1 x3.code + put 0 (BitVec.ofBool x4))
  | .xcvt x0 x1 x2 x3 x4 => some (.x, 0x02, put 16 x0 + put 10 x1 + put 6 x2.code + put 2 x3.code + put 0 x4.code)
  | .xpack x0 x1 x2 x3 x4 => some (.x, 0x03, put 16 x0 + put 10 x1 + put 4 x2 + put 2 x3 + put 1 (BitVec.ofBool x4))
  | .xunpk x0 x1 x2 x3 => some (.x, 0x04, put 16 x0 + put 10 x1 + put 4 x2 + put 1 (BitVec.ofBool x3))
  | .xtbl x0 x1 x2 x3 => some (.x, 0x05, put 16 x0 + put 10 x1 + put 4 x2 + put 0 (BitVec.ofBool x3))
  | .xtld x0 x1 x2 => some (.x, 0x06, put 16 x0 + put 10 x1 + put 4 x2)
  | .xtsw => some (.x, 0x07, 0)
  | .xexp x0 x1 x2 x3 => some (.x, 0x08, put 16 x0 + put 4 x1 + put 1 x2 + put 0 (BitVec.ofBool x3))
  | .xzip x0 x1 x2 x3 => some (.x, 0x09, put 16 x0 + put 10 x1 + put 4 x2 + put 1 x3.code)
  | .xunzip x0 x1 x2 => some (.x, 0x0A, put 16 x0 + put 10 x1 + put 1 x2.code)
  | .xexpand x0 x1 x2 x3 x4 => some (.x, 0x0B, put 16 x0 + put 10 x1 + put 4 x2 + put 1 x3.code + put 0 (BitVec.ofBool x4))
  | .xcompr x0 x1 x2 x3 x4 => some (.x, 0x0C, put 16 x0 + put 10 x1 + put 4 x2 + put 1 x3.code + put 0 (BitVec.ofBool x4))
  | _ => none

/-- The word of a Crisum command (14 R292). -/
def encodeCrisum : Instr → Option (BitVec 32)
  | .bnop => some (BitVec.ofNat 32 (0x00 * 2 ^ 27))
  | .bsetrLo x0 x1 => some (BitVec.ofNat 32 (0x01 * 2 ^ 27 + put 23 x0 + put 0 x1))
  | .bsetrHi x0 x1 => some (BitVec.ofNat 32 (0x01 * 2 ^ 27 + 1 * 2 ^ 21 + put 23 x0 + put 0 x1))
  | .bsetrAdd x0 x1 => some (BitVec.ofNat 32 (0x01 * 2 ^ 27 + 2 * 2 ^ 21 + put 23 x0 + put 0 x1))
  | .bseg x0 x1 x2 => some (BitVec.ofNat 32 (0x02 * 2 ^ 27 + put 25 x0 + put 21 x1 + put 17 x2))
  | .bmac x0 x1 x2 x3 x4 => some (BitVec.ofNat 32 (0x03 * 2 ^ 27 + put 25 x0 + put 23 x1 + put 19 x2 + put 17 x3.code + put 7 x4))
  | .bmacn x0 x1 x2 x3 x4 => some (BitVec.ofNat 32 (0x04 * 2 ^ 27 + put 25 x0 + put 23 x1 + put 19 x2 + put 17 x3.code + put 7 x4))
  | .bred x0 x1 => some (BitVec.ofNat 32 (0x05 * 2 ^ 27 + put 25 x0 + put 23 x1))
  | .bredTree x0 => some (BitVec.ofNat 32 (0x05 * 2 ^ 27 + 1 * 2 ^ 22 + put 25 x0))
  | .bscl x0 x1 => some (BitVec.ofNat 32 (0x06 * 2 ^ 27 + put 25 x0 + put 21 x1))
  | .bcvt x0 x1 => some (BitVec.ofNat 32 (0x07 * 2 ^ 27 + put 25 x0 + put 23 x1.code))
  | .bout x0 x1 x2 => some (BitVec.ofNat 32 (0x08 * 2 ^ 27 + put 25 x0 + put 21 x1 + put 15 x2))
  | .bclr x0 => some (BitVec.ofNat 32 (0x09 * 2 ^ 27 + put 23 x0))
  | .bloop x0 => some (BitVec.ofNat 32 (0x0A * 2 ^ 27 + put 23 x0))
  | .bend => some (BitVec.ofNat 32 (0x0B * 2 ^ 27))
  | .bsig x0 => some (BitVec.ofNat 32 (0x0C * 2 ^ 27 + put 23 x0))
  | .bhalt => some (BitVec.ofNat 32 (0x0D * 2 ^ 27))
  | .bldv x0 x1 x2 => some (BitVec.ofNat 32 (0x0E * 2 ^ 27 + put 23 x0 + put 21 x1 + put 7 x2))
  | _ => none
/-- The class of a slot (07 R120). -/
def Slot.cls : Slot → SlotClass
  | .k => .k
  | .s => .s
  | .va | .vb => .v
  | .m => .m
  | .ca | .cb => .c
  | .x => .x

/-- The number of a slot (07 R120). -/
def Slot.num : Slot → Nat
  | .k => 0
  | .s => 1
  | .va => 2
  | .vb => 3
  | .m => 4
  | .ca => 5
  | .cb => 6
  | .x => 7

/-- The slots in the order of their numbers (07 R120). -/
def Slot.all : List Slot := [.k, .s, .va, .vb, .m, .ca, .cb, .x]

/-- The instruction of a slot class that a nonzero word encodes, guard apart, if it encodes one. -/
def decodeOp (cls : SlotClass) (w : BitVec 32) : Option Instr :=
  match cls with
  | .k => decodeK w
  | .s => decodeS w
  | .v => decodeV w
  | .m => decodeM w
  | .c => decodeC w
  | .x => decodeX w

/-- A slot word's instruction: NOP for the all-zero word (07 R123), the instruction of the opcode map, or the
word itself as an encoding that is no instruction (07 R124). -/
def decodeSlot (cls : SlotClass) (w : BitVec 32) : Instr :=
  if w.toNat = 0 then .nop else (decodeOp cls w).getD (.nonInstruction cls w)

/-- The slot word of an instruction of class cls under guard g. -/
def encodeSlot (g : BitVec 4) (i : Instr) : Option (BitVec 32) :=
  match i with
  | .nop => if g.toNat = 0 then some 0 else none
  | _ => (encodeOp i).map fun (_, op, rest) => BitVec.ofNat 32 (put 28 g + op * 2 ^ 22 + rest)

/-- A Crisum word's command: any word that is none is `crisumUnassigned` (14 R299 BILL). -/
def decodeCrisum (w : BitVec 32) : Instr := (decodeCrisumCore w).getD (.crisumUnassigned w)

/-- Word n of a bundle: bytes [4n, 4n + 4), little-endian (07 R120). -/
def bundleWord (b : BitVec 256) (n : Nat) : BitVec 32 := b.extractLsb' (32 * n) 32

/-- One slot of a bundle. -/
def decodeBundleSlot (b : BitVec 256) (sl : Slot) : SlotWord :=
  let w := bundleWord b sl.num
  { slot := sl, guard := guardOf w, instr := decodeSlot sl.cls w }

/-- The eight slots of a bundle, slot 0 first (07 R120). -/
def decodeBundle (b : BitVec 256) : List SlotWord := Slot.all.map (decodeBundleSlot b)

/-- The instruction a word of the opcode table stands for: 32 bits or fewer are a Crisum word, the only rows to
which the table gives bits; anything longer is a bundle, which stands for its first instruction that is not NOP. -/
def decodeTableWord (nbits w : Nat) : Option Instr :=
  if nbits ≤ 32 then some (decodeCrisum (BitVec.ofNat 32 w))
  else some (((decodeBundle (BitVec.ofNat 256 w)).find? fun sw => sw.instr != .nop).elim .nop (·.instr))

end Sys2Proof
end

