-- ==== Sys2Proof/Machine/Bits.lean ====
section
/-! DEFINITION. Bit fields, bytes and vector-register elements: the little-endian byte order of 00 R6, the
element places of 03 R46, sign and zero extension (07 R126), and the integer helpers the meanings share. -/

namespace Sys2Proof.Machine

/-- The number whose little-endian bytes these are (00 R6). -/
def natOfBytes : List Byte → Nat
  | [] => 0
  | b :: bs => b.toNat + 256 * natOfBytes bs

/-- The k little-endian bytes of a number, taken modulo 256^k (00 R6). -/
def bytesOfNat : Nat → Nat → List Byte
  | 0, _ => []
  | k + 1, n => BitVec.ofNat 8 n :: bytesOfNat k (n / 256)

/-- The number whose little-endian digits of w bits these are. -/
def natOfElems (w : Nat) : List Nat → Nat
  | [] => 0
  | x :: xs => x % 2 ^ w + 2 ^ w * natOfElems w xs

/-- The n elements of w bits of a number, element 0 in its lowest bits (03 R46). -/
def elemsOfNat (w : Nat) : Nat → Nat → List Nat
  | 0, _ => []
  | n + 1, x => x % 2 ^ w :: elemsOfNat w n (x / 2 ^ w)

/-- Elements of w bits in a vector register (03 R46). -/
def elemCount (w : Nat) : Nat := 4096 / w

/-- Element i of w bits of a vector register (03 R46). -/
def elem (v : VecReg) (w i : Nat) : Nat := v.toNat / 2 ^ (w * i) % 2 ^ w

/-- All the elements of w bits of a vector register (03 R46). -/
def elems (v : VecReg) (w : Nat) : List Nat := elemsOfNat w (elemCount w) v.toNat

/-- The vector register with these elements of w bits from element 0 on, zero beyond them. -/
def vecOf (w : Nat) (xs : List Nat) : VecReg := BitVec.ofNat 4096 (natOfElems w xs)

/-- The vector register whose element i is f i, for the n elements of w bits. -/
def vecGen (w : Nat) (f : Nat → Nat) : VecReg := vecOf w ((List.range (elemCount w)).map f)

/-- Element i replaced by x. -/
def setElem (v : VecReg) (w i x : Nat) : VecReg := vecOf w ((elems v w).set i x)

/-- The 512 bytes of a vector register (03 R46). -/
def vecBytes (v : VecReg) : List Byte := bytesOfNat 512 v.toNat

/-- The vector register that holds these bytes from byte 0 on, zero beyond them. -/
def vecOfBytes (bs : List Byte) : VecReg := BitVec.ofNat 4096 (natOfBytes bs)

/-- Two's complement value of an n of w bits. -/
def signedOf (w n : Nat) : Int := if n < 2 ^ (w - 1) then n else (n : Int) - 2 ^ w

/-- The pattern of w bits of an integer, modulo 2^w (04 R66). -/
def patternOf (w : Nat) (x : Int) : Nat := (x % (2 ^ w : Int)).toNat

/-- Sign extension to 64 bits (07 R126). -/
def sext {n : Nat} (x : BitVec n) : Word := x.signExtend 64

/-- Zero extension to 64 bits (07 R126). -/
def zext {n : Nat} (x : BitVec n) : Word := x.setWidth 64

/-- Bits [lo + n - 1 : lo] of a word, as a number. -/
def bitsOf (x lo n : Nat) : Nat := x / 2 ^ lo % 2 ^ n

/-- x with bits [lo + n - 1 : lo] replaced by v. -/
def withBits (x lo n v : Nat) : Nat := x / 2 ^ (lo + n) * 2 ^ (lo + n) + v % 2 ^ n * 2 ^ lo + x % 2 ^ lo

/-- A Bool as a bit. -/
def b2n (b : Bool) : Nat := if b then 1 else 0

/-- Quotient rounded up. -/
def ceilDiv (a b : Nat) : Nat := (a + b - 1) / b

/-- a rounded up to a multiple of b. -/
def roundUp (a b : Nat) : Nat := ceilDiv a b * b

/-- The number of set bits among the low n bits. -/
def popCount (x : Nat) : Nat → Nat
  | 0 => 0
  | n + 1 => x % 2 + popCount (x / 2) n

/-- Addition that stops at limit (04 R76). -/
def satAdd (limit a b : Nat) : Nat := min limit (a + b)

/-- List update that ignores an index outside the list. -/
def updAt {α : Type} (xs : List α) (i : Nat) (f : α → α) : List α := xs.modify i f

/-- The first entry of a list of pairs under a key. -/
def lookupKey {β : Type} (k : Nat) (l : List (Nat × β)) : Option β := (l.find? fun p => p.1 == k).map (·.2)

/-- A list of pairs with the entry of a key replaced or added. -/
def putKey {β : Type} (k : Nat) (v : β) (l : List (Nat × β)) : List (Nat × β) :=
  if l.any (fun p => p.1 == k) then l.map fun p => if p.1 == k then (k, v) else p else l ++ [(k, v)]

/-- A list of pairs without the entries of a key. -/
def dropKey {β : Type} (k : Nat) (l : List (Nat × β)) : List (Nat × β) := l.filter fun p => p.1 != k

/-- A span of n bytes from a on, cut at every multiple of m: the offset and the length of each piece. -/
def cutAt (m a n : Nat) : List (Nat × Nat) :=
  (List.range (n / m + 2)).filterMap fun i =>
    let lo := max a ((a / m + i) * m)
    let hi := min (a + n) ((a / m + i + 1) * m)
    if lo < hi then some (lo - a, hi - lo) else none

end Sys2Proof.Machine
end

