-- ==== Sys2Proof/Machine/Float.lean ====
section
/-! DEFINITION. Numbers (spec 04): the value of every format's code, exact arithmetic, the one rounding to a
format under a mode (R63-R75), conversions with the counts they advance (R70-R76), the b4 codes (R67-R69),
stochastic rounding (R71) and the summation orders (R79-R82). -/

namespace Sys2Proof.Machine

/-- A floating-point value: NaN, an infinity, or the exact value ±num/den with a signed zero (04 R63-R65). -/
inductive Num where
  | nan
  | inf (neg : Bool)
  | fin (neg : Bool) (num den : Nat)
deriving DecidableEq, Repr

/-- The floating-point element formats (04 R63). -/
inductive FFmt where
  | f32 | f16 | bf16 | e4m3 | e5m2
deriving DecidableEq, Repr

/-- An element type: floating point, or an integer of so many bits (04 R63, R66). -/
inductive Elt where
  | flt (f : FFmt)
  | int (bits : Nat) (signed : Bool)
deriving DecidableEq, Repr

/-- Rounding modes (04 R70). -/
inductive RM where
  | rne | rz | rd | ru
deriving DecidableEq, Repr

/-- How a conversion rounds: by a mode, or stochastically with the 24-bit draw of its element (04 R71). -/
inductive Rounding where
  | mode (m : RM)
  | stochastic (draw : Nat)
deriving DecidableEq, Repr

/-- A converted element and what it adds to the conversion counters (04 R76). -/
structure Conv where
  bits : Nat
  sat : Bool
  flz : Bool
  nan : Bool
deriving DecidableEq, Repr

/-- Width in bits (04 R63). -/
def FFmt.width : FFmt → Nat
  | .f32 => 32
  | .f16 | .bf16 => 16
  | .e4m3 | .e5m2 => 8

/-- Fraction width F (04 R63). -/
def FFmt.frac : FFmt → Nat
  | .f32 => 23
  | .f16 => 10
  | .bf16 => 7
  | .e4m3 => 3
  | .e5m2 => 2

/-- Exponent bias (04 R63). -/
def FFmt.bias : FFmt → Nat
  | .f32 | .bf16 => 127
  | .f16 | .e5m2 => 15
  | .e4m3 => 7

/-- The code of the largest finite magnitude (04 R63). -/
def FFmt.maxCode : FFmt → Nat
  | .f32 => 0x7F7FFFFF
  | .f16 => 0x7BFF
  | .bf16 => 0x7F7F
  | .e4m3 => 0x7E
  | .e5m2 => 0x7B

/-- The format has infinities (04 R63). -/
def FFmt.hasInf : FFmt → Bool
  | .e4m3 => false
  | _ => true

/-- The canonical NaN (04 R64). -/
def FFmt.nanCode : FFmt → Nat
  | .f32 => 0x7FC00000
  | .f16 => 0x7E00
  | .bf16 => 0x7FC0
  | .e4m3 => 0x7F
  | .e5m2 => 0x7E

/-- Place of the sign bit, as a factor. -/
def FFmt.signBit (f : FFmt) : Nat := 2 ^ (f.width - 1)

/-- The smallest subnormal is 1 / unitDen (04 R63). -/
def FFmt.unitDen (f : FFmt) : Nat := 2 ^ (f.bias - 1 + f.frac)

/-- The value of a code; with flush, a subnormal reads as the zero of its sign (04 R63, R74). -/
def FFmt.value (f : FFmt) (flush : Bool) (code : Nat) : Num :=
  let neg := decide (f.signBit ≤ code % (2 * f.signBit))
  let mag := code % f.signBit
  let e := mag / 2 ^ f.frac
  let m := mag % 2 ^ f.frac
  if f.maxCode < mag then
    if f.hasInf && mag == f.maxCode + 1 then .inf neg else .nan
  else if e = 0 then (if flush then .fin neg 0 1 else .fin neg m f.unitDen)
  else .fin neg ((2 ^ f.frac + m) * 2 ^ (e - 1)) f.unitDen

/-- The sign and the magnitude's code put together. -/
def FFmt.pack (f : FFmt) (neg : Bool) (mag : Nat) : Nat := b2n neg * f.signBit + mag

/-- The code whose value is the largest not above num/den, with exponents beyond the format's range continued;
the remainder and the distance to the next code, both over den (04 R65, R69). -/
def FFmt.floorCode (f : FFmt) (num den : Nat) : Nat × Nat × Nat :=
  let v := num * f.unitDen
  let k := Nat.log2 (v / den) - f.frac
  let step := den * 2 ^ k
  let m := v / step
  (k * 2 ^ f.frac + m, v - m * step, step)

/-- Whether a remainder r of a step rounds away from zero (04 R70, R71). -/
def roundsUp (rnd : Rounding) (neg : Bool) (code r step : Nat) : Bool :=
  match rnd with
  | .mode .rne => step < 2 * r || (2 * r == step && code % 2 == 1)
  | .mode .rz => false
  | .mode .rd => neg && r != 0
  | .mode .ru => !neg && r != 0
  | .stochastic draw => decide (2 ^ 24 ≤ r * 2 ^ 24 / step + draw)

/-- What a finite value beyond the range gives: the largest finite magnitude, or an infinity where the format
has one and the mode rounds that way (04 R71, R73). -/
def FFmt.overflow (f : FFmt) (rnd : Rounding) (neg : Bool) : Nat :=
  let toInf := f.hasInf && (match rnd with
    | .mode .rne => true
    | .mode .rz => false
    | .mode .rd => neg
    | .mode .ru => !neg
    | .stochastic _ => false)
  f.maxCode + b2n toInf

/-- One rounding to a floating-point format, with the counts of a counted conversion (04 R65, R71, R73, R74, R76).
An infinity into a format without infinities gives the largest finite magnitude. -/
def FFmt.round (f : FFmt) (rnd : Rounding) (flush : Bool) (x : Num) : Conv :=
  match x with
  | .nan => ⟨f.nanCode, false, false, true⟩
  | .inf neg =>
    if f.hasInf then ⟨f.pack neg (f.maxCode + 1), false, false, false⟩
    else ⟨f.pack neg f.maxCode, true, false, false⟩
  | .fin neg num den =>
    let (c, r, step) := f.floorCode num den
    let code := if roundsUp rnd neg c r step then c + 1 else c
    let beyond := match rnd with
      | .mode _ => decide (f.maxCode < code)
      | .stochastic _ => decide (f.maxCode < c) || (c == f.maxCode && r != 0)
    if beyond then ⟨f.pack neg (f.overflow rnd neg), true, false, false⟩
    else
      let out := if flush && decide (code < 2 ^ f.frac) then 0 else code
      ⟨f.pack neg out, false, out == 0 && num != 0, false⟩

/-- An exact result rounded once to a format under a mode, flushed (04 R65, R74). -/
def FFmt.res (f : FFmt) (rm : RM) (flush : Bool) (x : Num) : Nat := (f.round (.mode rm) flush x).bits

/-- The exact zero. -/
def Num.zero : Num := .fin false 0 1

/-- The value of a natural number. -/
def Num.ofNat (n : Nat) : Num := .fin false n 1

/-- The value of an integer; zero has the sign +. -/
def Num.ofInt (x : Int) : Num := .fin (decide (x < 0)) x.natAbs 1

/-- The value with its sign inverted (04 R65). -/
def Num.neg : Num → Num
  | .nan => .nan
  | .inf s => .inf (!s)
  | .fin s n d => .fin (!s) n d

/-- The magnitude. -/
def Num.abs : Num → Num
  | .nan => .nan
  | .inf _ => .inf false
  | .fin _ n d => .fin false n d

/-- The exact sum. An exact zero sum of opposite signs is -0 when rd is set, +0 otherwise; ∞ - ∞ is NaN (04 R65). -/
def Num.add (rd : Bool) (x y : Num) : Num :=
  match x, y with
  | .nan, _ | _, .nan => .nan
  | .inf a, .inf b => if a = b then .inf a else .nan
  | .inf a, .fin _ _ _ => .inf a
  | .fin _ _ _, .inf b => .inf b
  | .fin sa na da, .fin sb nb db =>
    let (p, q, d) := if da = db then (na, nb, da) else (na * db, nb * da, da * db)
    if sa = sb then .fin sa (p + q) d
    else if p = q then .fin rd 0 1
    else if q < p then .fin sa (p - q) d
    else .fin sb (q - p) d

/-- The exact product; zero times infinity is NaN (04 R65). -/
def Num.mul (x y : Num) : Num :=
  match x, y with
  | .nan, _ | _, .nan => .nan
  | .inf a, .inf b => .inf (a != b)
  | .inf a, .fin b n _ => if n = 0 then .nan else .inf (a != b)
  | .fin a n _, .inf b => if n = 0 then .nan else .inf (a != b)
  | .fin a n d, .fin b m e => .fin (a != b) (n * m) (d * e)

/-- Exact quotient; a division by zero and one of infinities give what IEEE 754 gives (04 R64, 10 R210). -/
def Num.div (x y : Num) : Num :=
  match x, y with
  | .nan, _ | _, .nan => .nan
  | .inf _, .inf _ => .nan
  | .inf s, .fin t _ _ => .inf (s != t)
  | .fin s _ _, .inf t => .fin (s != t) 0 1
  | .fin s n d, .fin t m e =>
    if m = 0 then (if n = 0 then .nan else .inf (s != t)) else .fin (s != t) (n * e) (d * m)

/-- Half the value, exactly. -/
def Num.half : Num → Num
  | .fin s n d => .fin s n (2 * d)
  | x => x

/-- The value is a NaN. -/
def Num.isNan : Num → Bool
  | .nan => true
  | _ => false

/-- x < y as numbers; false for a NaN; -0 equals +0 (09 R187). -/
def Num.lt (x y : Num) : Bool :=
  match x, y with
  | .nan, _ | _, .nan => false
  | .inf a, .inf b => a && !b
  | .inf a, .fin _ _ _ => a
  | .fin _ _ _, .inf b => !b
  | .fin sa na da, .fin sb nb db =>
    let a : Int := if sa then -((na * db : Nat) : Int) else (na * db : Nat)
    let b : Int := if sb then -((nb * da : Nat) : Int) else (nb * da : Nat)
    decide (a < b)

/-- x = y as numbers; false for a NaN; -0 equals +0 (09 R187). -/
def Num.eq (x y : Num) : Bool := !x.isNan && !y.isNan && !x.lt y && !y.lt x

/-- The sign of a value that is not NaN. -/
def Num.isNeg : Num → Bool
  | .nan => false
  | .inf s => s
  | .fin s _ _ => s

/-- x orders before y, with -0 below +0 (04 R65). -/
def Num.before (x y : Num) : Bool := x.lt y || (x.eq y && x.isNeg && !y.isNeg)

/-- Minimum: a NaN gives way, -0 is below +0 (04 R65). -/
def Num.min (x y : Num) : Num :=
  if x.isNan then y else if y.isNan then x else if y.before x then y else x

/-- Maximum: a NaN gives way, -0 is below +0 (04 R65). -/
def Num.max (x y : Num) : Num :=
  if x.isNan then y else if y.isNan then x else if x.before y then y else x

/-- Rounding of num/den to an integer magnitude (04 R70, R71). -/
def roundNat (rnd : Rounding) (neg : Bool) (num den : Nat) : Nat :=
  let q := num / den
  if roundsUp rnd neg q (num % den) den then q + 1 else q

/-- The least and the largest value of an integer type. -/
def intRange (bits : Nat) (signed : Bool) : Int × Int :=
  if signed then (-(2 ^ (bits - 1) : Int), (2 ^ (bits - 1) : Int) - 1) else (0, (2 ^ bits : Int) - 1)

/-- Conversion to an integer: rounded, then saturated; NaN gives 0 (04 R70, R73, R76). -/
def intConv (bits : Nat) (signed : Bool) (rnd : Rounding) (x : Num) : Conv :=
  let (lo, hi) := intRange bits signed
  match x with
  | .nan => ⟨0, true, false, false⟩
  | .inf neg => ⟨patternOf bits (if neg then lo else hi), true, false, false⟩
  | .fin neg num den =>
    let m : Int := roundNat rnd neg num den
    let v := if neg then -m else m
    if v < lo then ⟨patternOf bits lo, true, false, false⟩
    else if hi < v then ⟨patternOf bits hi, true, false, false⟩
    else ⟨patternOf bits v, false, false, false⟩

/-- Width of an element in bits. -/
def Elt.width : Elt → Nat
  | .flt f => f.width
  | .int b _ => b

/-- The element is floating point. -/
def Elt.isFlt : Elt → Bool
  | .flt _ => true
  | .int _ _ => false

/-- The value an element's pattern stands for; the flush bit is that of its class (04 R63, R66, R74). -/
def Elt.value (t : Elt) (flush : Bool) (code : Nat) : Num :=
  match t with
  | .flt f => f.value flush code
  | .int b true => .ofInt (signedOf b code)
  | .int _ false => .ofNat code

/-- A conversion into an element type: rounded and saturated (04 R70-R76; `sat` of 09 R184). -/
def Elt.conv (t : Elt) (rnd : Rounding) (flush : Bool) (x : Num) : Conv :=
  match t with
  | .flt f => f.round rnd flush x
  | .int b s => intConv b s rnd x

/-- The element type of a V-slot type code (07 R131). -/
def tyElt : Ty → Elt
  | .f32 => .flt .f32
  | .bf16 => .flt .bf16
  | .f16 => .flt .f16
  | .i32 => .int 32 true
  | .n32 => .int 32 false
  | .i16 => .int 16 true
  | .i8 => .int 8 true
  | .n8 => .int 8 false

/-- The element type of a descriptor format; b4 is none of them (03 R56). -/
def fmtElt : Fmt → Option Elt
  | .f32 => some (.flt .f32)
  | .bf16 => some (.flt .bf16)
  | .f16 => some (.flt .f16)
  | .e4m3 => some (.flt .e4m3)
  | .e5m2 => some (.flt .e5m2)
  | .b4 => none
  | .i8 => some (.int 8 true)
  | .n8 => some (.int 8 false)
  | .i16 => some (.int 16 true)
  | .i32 => some (.int 32 true)
  | .n32 => some (.int 32 false)

/-- The rounding mode that fmode.rm selects (03 R60). -/
def modeRM (fmode : BitVec 12) : RM :=
  match (fmode.extractLsb' 0 2).toNat with
  | 0 => .rne
  | 1 => .rz
  | 2 => .rd
  | _ => .ru

/-- fmode.sr (03 R60). -/
def modeSR (fmode : BitVec 12) : Bool := fmode.getLsbD 2

/-- The place in fmode of the flush-inputs bit of a format's class; the flush-results bit stands above it (03 R60). -/
def FFmt.flushBit : FFmt → Nat
  | .f32 => 4
  | .f16 | .bf16 => 6
  | .e4m3 | .e5m2 => 8

/-- The flush-inputs bit for an element type (04 R74). -/
def flushIn (fmode : BitVec 12) : Elt → Bool
  | .flt f => fmode.getLsbD f.flushBit
  | .int _ _ => false

/-- The flush-results bit for an element type (04 R74). -/
def flushOut (fmode : BitVec 12) : Elt → Bool
  | .flt f => fmode.getLsbD (f.flushBit + 1)
  | .int _ _ => false

/-- An exact sum of opposite signs is -0 only under RD (04 R65). -/
def RM.isRD : RM → Bool
  | .rd => true
  | _ => false

/-- One step of the rounding LFSR (04 R71). -/
def lfsrStep (s : BitVec 32) : BitVec 32 := if s.getLsbD 0 then (s >>> 1) ^^^ 0x80200003#32 else s >>> 1

/-- The 24-bit draw of element i under LFSR state s: mix(S, i) >> 8 (04 R71). -/
def lfsrDraw (s : BitVec 32) (i : Nat) : Nat :=
  let u := s + BitVec.ofNat 32 (i * 0x9E3779B9)
  let u := u ^^^ (u >>> 16)
  let u := u * 0x85EBCA6B#32
  let u := u ^^^ (u >>> 13)
  (u >>> 8).toNat

/-! ### b4 blocks -/

/-- Eight times the value of a b4 code's magnitude, by block type and code bits (04 R68). Type 0 is signed and
handled apart. -/
def b4Mag8 (type c : Nat) : Nat :=
  let m := c % 8
  match type with
  | 1 => [0, 4, 8, 12, 16, 24, 32, 48].getD m 0
  | 2 => [0, 1, 2, 4, 8, 16, 32, 64].getD m 0
  | _ => [0, 8, 16, 24, 32, 48, 64, 96].getD m 0

/-- The value of a b4 code of a block type, scale apart (04 R68); with flush, E2M1's 0.5 reads as zero (04 R74). -/
def b4Code (type c : Nat) (flush : Bool) : Num :=
  if type = 0 then .ofInt (signedOf 4 c)
  else
    let m8 := if flush && type == 1 && c % 8 == 1 then 0 else b4Mag8 type c
    .fin (decide (8 ≤ c)) m8 8

/-- The scale 2^(x - 32) of a scale byte (04 R67). -/
def b4Scale (x : Nat) : Num := .fin false (2 ^ x) (2 ^ 32)

/-- The value of a b4 element: code value times the block's scale times the tensor scale (04 R68). -/
def b4Value (scaleByte c : Nat) (flush : Bool) (tscale : Num) : Num :=
  let x := scaleByte % 64
  if x = 63 then .nan else ((b4Code (scaleByte / 64) c flush).mul (b4Scale x)).mul tscale

/-- The nonnegative code magnitudes of a signed-magnitude block type, times 8, in rising order with their codes. -/
def b4Steps (type : Nat) : List Nat := (List.range 8).map (b4Mag8 type)

/-- The code of the largest magnitude not above num/den (in eighths), with the magnitudes below and above it. -/
def b4Floor (type num den : Nat) : Nat × Nat × Nat :=
  let c := ((b4Steps type).filter fun m => decide (m * den ≤ num * 8)).length - 1
  (c, (b4Steps type).getD c 0, (b4Steps type).getD (c + 1) 0)

/-- One value into a b4 code, given the quotient q = v / (2^(x - 32)·s) (04 R69, R71, R73, R74, R76). Under RNE a
tie goes to the code whose bit 0 is 0. A magnitude beyond the largest code counts a saturation (11 R230). -/
def b4Encode (type : Nat) (rnd : Rounding) (flush : Bool) (q : Num) : Conv :=
  match q with
  | .nan => ⟨0, false, false, false⟩
  | .inf neg => ⟨if type = 0 then (if neg then 8 else 7) else b2n neg * 8 + 7, true, false, false⟩
  | .fin neg num den =>
    if type = 0 then
      let m : Int := roundNat rnd neg num den
      let v := if neg then -m else m
      let w := if v < -8 then -8 else if 7 < v then 7 else v
      ⟨patternOf 4 w, decide (7 * den < num), w == 0 && num != 0, false⟩
    else
      let (c, lo, hi) := b4Floor type num den
      let sgn := b2n neg * 8
      if c = 7 then ⟨sgn + 7, decide (lo * den < num * 8), false, false⟩
      else
        let up := roundsUp rnd neg c (num * 8 - lo * den) ((hi - lo) * den)
        let code := if up then c + 1 else c
        let out := if flush && type == 1 && code == 1 then 0 else code
        ⟨sgn + out, false, out == 0 && num != 0, false⟩

/-! ### Sums -/

/-- The pairwise tree of 04 R81, with fuel for its levels. -/
def pairTree {α : Type} (op : α → α → α) : Nat → List α → List α
  | 0, xs => xs
  | fuel + 1, xs => pairTree op fuel (pairLevel op xs)
where
  /-- One level: neighbours combined. -/
  pairLevel {α : Type} (op : α → α → α) : List α → List α
    | a :: b :: rest => op a b :: pairLevel op rest
    | rest => rest

/-- The exact sum of the products of a group (04 R79). -/
def dotExact : List (Num × Num) → Num
  | [] => .zero
  | (a, b) :: rest => (dotExact rest).add false (a.mul b)

/-- One group of four into an f32 accumulator: the group sum rounded once, then added with one rounding
(04 R79, R82). -/
def accGroup (acc : Nat) (group : List (Num × Num)) : Nat :=
  let gs := FFmt.f32.res .rne false (dotExact group)
  FFmt.f32.res .rne false ((FFmt.f32.value false acc).add false (FFmt.f32.value false gs))

/-- A contraction in increasing order, grouped in fours (04 R79, R82), with fuel for the groups. -/
def accGroups : Nat → Nat → List (Num × Num) → Nat
  | 0, acc, _ => acc
  | fuel + 1, acc, xs => if xs.isEmpty then acc else accGroups fuel (accGroup acc (xs.take 4)) (xs.drop 4)

/-! ### Estimates -/

/-- The integer square root by bits, from bit k downward: r is the root so far. -/
def isqrtFrom (n : Nat) : Nat → Nat → Nat
  | 0, r => r
  | k + 1, r => let t := r + 2 ^ k; isqrtFrom n k (if t * t ≤ n then t else r)

/-- The integer square root of a number below 2^(2·k). -/
def isqrt (k n : Nat) : Nat := isqrtFrom n k 0

/-- The table entry of VRSQE for p and j: round_half_up(4096/sqrt(2^p·(1 + (j + 0.5)/512))) (09 R191), as
floor((floor(2·4096/sqrt(..)) + 1)/2). -/
def rsqeEntry (p j : Nat) : Nat := (isqrt 20 (2 ^ 36 / (2 ^ p * (2 * j + 1025))) + 1) / 2

/-- The table entry of VRCPE: round_half_up(4096/(1 + (j + 0.5)/1024)) (09 R192). -/
def rcpeEntry (j : Nat) : Nat :=
  let d := 2049 + 2 * j
  (2 * 4096 * 2048 + d) / (2 * d)

/-- The largest T below 2^k·2 from bit k downward with (2T - 1)^2048 ≤ bound. -/
def expSearch (bound : Nat) : Nat → Nat → Nat
  | 0, t => t
  | k + 1, t => let u := t + 2 ^ k; expSearch bound k (if (2 * u - 1) ^ 2048 ≤ bound then u else t)

/-- The table entry of VEXP2E: round_half_up(4096·2^((j + 0.5)/1024)) (09 R192), the largest T with
T - 1/2 ≤ 4096·2^((2j+1)/2048). -/
def exp2eEntry (j : Nat) : Nat := expSearch (2 ^ (13 * 2048 + 2 * j + 1)) 13 0

/-- The table entry of VLOG2E: round_half_up(4096·log2(1 + (j + 0.5)/1024)) (09 R192), from
floor(2·4096·log2((2049 + 2j)/2048)). -/
def log2eEntry (j : Nat) : Nat := (Nat.log2 ((2049 + 2 * j) ^ 8192) - 8192 * 11 + 1) / 2

/-- The exponent and the 23-bit fraction of a nonzero magnitude, normalised: x = 2^(E)·(1 + f/2^23), with E + 149
in place of E (09 R191). -/
def normF32 (num : Nat) : Nat × Nat :=
  let k := Nat.log2 num
  (k, if 23 ≤ k then num / 2 ^ (k - 23) - 2 ^ 23 else num * 2 ^ (23 - k) - 2 ^ 23)

/-- An integer times a power of two, as a value. -/
def Num.scaled (neg : Bool) (t : Nat) (e : Int) : Num :=
  if 0 ≤ e then .fin neg (t * 2 ^ e.toNat) 1 else .fin neg t (2 ^ (-e).toNat)

/-- VRSQE of an f32 value (09 R191). -/
def rsqe (x : Num) : Num :=
  match x with
  | .nan => .nan
  | .inf neg => if neg then .nan else .zero
  | .fin neg num _ =>
    if num = 0 then .inf neg
    else if neg then .nan
    else
      let (k, f) := normF32 num
      let e : Int := (k : Int) - 149
      let p := (e % 2).toNat
      .scaled false (rsqeEntry p (f / 2 ^ 14)) (-12 - (e - p) / 2)

/-- VRCPE of an f32 value (09 R192). -/
def rcpe (x : Num) : Num :=
  match x with
  | .nan => .nan
  | .inf neg => .fin neg 0 1
  | .fin neg num _ =>
    if num = 0 then .inf neg
    else
      let (k, f) := normF32 num
      .scaled neg (rcpeEntry (f / 2 ^ 13)) (-12 - ((k : Int) - 149))

/-- VEXP2E of an f32 value (09 R192). -/
def exp2e (x : Num) : Num :=
  match x with
  | .nan => .nan
  | .inf neg => if neg then .zero else .inf false
  | .fin neg num den =>
    if !neg && decide (128 * den ≤ num) then .inf false
    else if neg && decide (150 * den < num) then .zero
    else
      -- N := floor(x) and the fraction in 1024ths
      let n : Int := if neg then -((ceilDiv num den : Nat) : Int) else (num / den : Nat)
      let fracNum : Nat := if neg then ceilDiv num den * den - num else num % den
      .scaled false (exp2eEntry (fracNum * 1024 / den)) (n - 12)

/-- VLOG2E of an f32 value (09 R192): E + T·2^-12. -/
def log2e (x : Num) : Num :=
  match x with
  | .nan => .nan
  | .inf neg => if neg then .nan else .inf false
  | .fin neg num _ =>
    if num = 0 then .inf true
    else if neg then .nan
    else
      let (k, f) := normF32 num
      let e : Int := (k : Int) - 149
      let v := e * 4096 + log2eEntry (f / 2 ^ 13)
      .fin (decide (v < 0)) v.natAbs 4096

end Sys2Proof.Machine
end

