-- ==== Sys2Proof/Machine/Formation.lean ====
section
/-! DEFINITION. The wavelength plan and the strands that link training forms from it (15 R304, 24 R403). -/

namespace Sys2Proof.Machine

/-- The peer that a comb line of a fibre reaches (15 R304). -/
def linePeer (fibre line : Nat) : Nat := if fibre < 32 then (fibre + line) % 15 else 15 + (fibre - 32 + line) % 15

/-- The channels that a router's rings carry, as strand·8 + channel, ring k of each fibre on line k: each enabled ring fills the
next channel of its peer's 16 strands, and past these of the router's pool strands (24 R403). The counts are of channels
filled so far, by peer and in the pool. -/
def formRouter (enabled : Nat → Bool) (router : Nat) : List Nat → List Nat → Nat → List (Option Nat)
  | [], _, _ => []
  | r :: rs, n, pool =>
    if !enabled r then none :: formRouter enabled router rs n pool
    else
      let p := linePeer (r / 64) (r % 64) % 15
      let k := n.getD p 0
      if k < 128 then some (router * 2048 + p * 128 + k) :: formRouter enabled router rs (n.set p (k + 1)) pool
      else some (router * 2048 + 1920 + pool) :: formRouter enabled router rs n (pool + 1)

/-- The channels of a router's 2,048 rings, in the order of the rings. -/
def formation (enabled : Nat → Bool) (router : Nat) : List (Option Nat) :=
  formRouter enabled router ((List.range 2048).map (· + router * 2048)) (List.replicate 15 0) 0

end Sys2Proof.Machine
end

