-- ==== Sys2Proof/Machine/State.lean ====
section
/-! DEFINITION. All state the spec gives the module, as plain data, and the state right after reset. Each field
names the rule that gives it. The model's own fields are named as such: the agenda, the counter of free
choices, the time and the issue context (log 3, log 4). -/

namespace Sys2Proof.Machine

/-- Why the machine stops with a fault. -/
inductive Fault where
  /-- Raised by MIGRATION_HOLD_DONE, MIGRATION_COPY_DONE and MIGRATION_END when software has written the page's entry during its
  migration: the result is undefined (21 R380). Safe: the model stops where the hardware goes on. -/
  | migrationEntryWritten
deriving DecidableEq, Repr

/-- Why an instruction has no meaning in the model. -/
inductive Refusal where
  /-- Raised only by an arm of Dispatch that has no meaning yet. Safe. -/
  | notModelled (mnemonic : String)
deriving DecidableEq, Repr

/-- Bytes by address, addresses strictly rising, no zero byte listed: an unlisted address reads zero (log 2). -/
abbrev Mem := List Host.Cell

/-- A translation window (21 R372). -/
structure Window where
  va : BitVec 48 := 0
  len : BitVec 48 := 0
  ia : BitVec 56 := 0
  ctl : BitVec 4 := 0
deriving DecidableEq, Repr

/-- A hardware loop record (08 R151); its number is that of its counter. -/
structure LoopRec where
  active : Bool := false
  start : Word := 0
  stop : Word := 0
  modulo : Bool := false
  stages : Nat := 1
  /-- Active at entry of a user or a system handler that has not returned: no loop-back matches it (19 R346). -/
  maskU : Bool := false
  maskS : Bool := false
  /-- Start order: the most recently started record is resolved first (R152). -/
  order : Nat := 0
deriving DecidableEq, Repr

/-- A bundle whose wait was abandoned: when the core comes back to it at the same handler level, its k slot alone
issues again, and the bundle after it is the one named (02 R41, 08 R157). -/
structure Reissue where
  bundle : Word
  next : Word
  uh : Bool
  sh : Bool
deriving DecidableEq, Repr

/-- A configured handle (03 R53). -/
structure Handle where
  base : Nat
  slotBytes : Nat
  slotCount : Nat
  prod : Nat
  cons : Nat
deriving DecidableEq, Repr

/-- A stash map entry (05 R88). -/
structure StashEntry where
  lbase : Nat
  va : Nat
  ia : Nat
  len : Nat
  write : Bool
deriving DecidableEq, Repr

/-- A present granule of 4 KiB, by its local address, with its dirty mask (05 R89, R90). -/
structure Granule where
  base : Nat
  dirty : BitVec 4096
deriving DecidableEq, Repr

/-- One function of a table bank (11 R232). -/
structure TableFn where
  lo : BitVec 32
  scale : BitVec 32
  bf16 : Bool
  segs : List (BitVec 32 × BitVec 32)
deriving DecidableEq, Repr

/-- A step entry of a pricking (13 R273). -/
structure StepEntry where
  td : Nat
  bdIn : Nat
  bdOut : Nat
  m : Nat
  n : Nat
  transpose : Bool
  scale : Bool
  final : Bool
deriving DecidableEq, Repr

/-- A pricking: header and steps (13 R273). -/
structure Pricking where
  steps : List StepEntry := []
  dir : Bool := false
  bf16 : Bool := false
  batch : Nat := 1
  slotA : Nat := 0
  slotB : Nat := 0
  buflen : Nat := 1
deriving DecidableEq, Repr

/-- A tensor operand as read at issue: the descriptor, and for space 4 the physical registers of its elements and
of its scale bytes (10 R209). -/
structure Opnd where
  td : TdWord := 0
  regs : List Nat := []
  sregs : List Nat := []
deriving DecidableEq, Repr

/-- The chain state (13 R274, R283); kept after the chain closes. -/
structure Chain where
  isOpen : Bool := false
  /-- Which opening it is, to tell its commands from those of an earlier chain. -/
  gen : Nat := 0
  pk : Pricking := {}
  tdIn : Opnd := {}
  tdOut : Opnd := {}
  issued : Nat := 0
  done : Nat := 0
  rPrev : Nat := 1
  pass : Nat := 0
  npass : Nat := 0
deriving DecidableEq, Repr

/-- What a result writes when it becomes readable (07 R139, 08 R147, R148; 09 R182, R202). -/
inductive Result where
  | s (r : BitVec 5) (v : Word)
  | p (r : BitVec 4) (v : Bool)
  | vec (phys : Nat) (v : VecReg) (transient : Bool)
  | td (i : BitVec 6) (v : TdWord)
  | tdField (i : BitVec 6) (f : TdField) (v : Word)
  | handle (h : BitVec 4) (v : Handle)
  | advance (h : BitVec 4) (producer : Bool) (n : Nat)
  | bd (i : BitVec 4) (v : BitVec 16)
  | ch (i : BitVec 3) (mask v : Word)
  | ctrl (index : Nat) (v : Word)
  | rot (n : Nat)
  | vwb (v : BitVec 11)
  | sys (index : Nat) (v : Word)
  | spill (off : Nat) (v : Word)
  | names (first n : Nat) (claim : Bool)
  | contender (t : Option Nat)
  | stash (i : BitVec 3) (e : Option StashEntry)
  | shadow (fn : BitVec 4) (f : Option TableFn)
  | tables (active : Vector (Option TableFn) 16)
  | counts (sat flz nan : Nat)
  | tret
  | rte
deriving DecidableEq, Repr

/-- A result in flight: the sc in which it becomes readable, the slot it came from and its place in issue order
(03 R50, 07 R139). -/
structure Pending where
  readyAt : Nat
  slot : Nat
  ord : Nat
  res : Result
deriving DecidableEq, Repr

/-- A transient result that has become readable (03 R50, R51). -/
structure Bypass where
  phys : Nat
  value : VecReg
  readyAt : Nat
deriving DecidableEq, Repr

/-- Where a local load delivers (08 R171, R177, R179; 09 R199-R201; 11 R242). -/
inductive LoadDest where
  | s (r : BitVec 5) (signed : Bool)
  | vec (phys : Nat)
  | td (i : BitVec 6)
  /-- The record of an HSET, with the end of the scratchpad (08 R179). -/
  | handle (h : BitVec 4) (scratchEnd : Nat)
deriving DecidableEq, Repr

/-- A local load in flight: it reads at `due` and delivers at `readyAt` (06 R105). -/
structure LocalLoad where
  due : Nat
  readyAt : Nat
  slot : Nat
  ord : Nat
  addr : Nat
  len : Nat
  dest : LoadDest
deriving DecidableEq, Repr

/-- A local store in flight: it takes effect at `due`; with `half`, the high nibble of its last byte is kept
(06 R105, 09 R200). -/
structure LocalStore where
  due : Nat
  slot : Nat
  /-- The bundle that issued it. -/
  issue : Nat
  addr : Nat
  bytes : List Byte
  half : Bool
deriving DecidableEq, Repr

/-- A pending asynchronous trap (19 R344). -/
structure AsyncTrap where
  cause : Nat
  tinfo0 : Word
  tinfo1 : Word
  /-- The sc in which it became pending; below 0 for one that a saved context brought with it. -/
  since : Int
deriving DecidableEq, Repr

/-- A condition a core waits on (02 R40, 08 R155-R159, R162). -/
inductive Wait where
  | filled (h : BitVec 4) (n : Nat)
  | free (h : BitVec 4) (n : Nat)
  | word (ia : Nat) (value : Word) (cond : WCond) (w : Width) (first : Option Word) (va : Word)
  | batches (n : Nat)
  | queues (mask : QMask)
  | drain
  | hoop (k : Nat)
  | spawn (task : Word)
deriving DecidableEq, Repr

/-- A SPAWN whose descriptor the dispatcher has still to read (02 R36, 08 R162): the bundle that issued it, its address, and
the sc in which its accept bit becomes readable at the earliest. -/
structure SpawnReq where
  issue : Nat
  pc : Word
  task : Word
  pd : BitVec 4
  readyAt : Nat
deriving DecidableEq, Repr

/-- What a core is doing (02 R32, R40; 08 R155, R160; 19 R352). -/
inductive Status where
  /-- It hosts no task. -/
  | idle
  | running
  | waiting (w : Wait)
  /-- It waits for a stash fill of the granule at this local address (05 R89). -/
  | filling (granule : Nat)
  | halted
  /-- EXIT has issued and the core drains (02 R35). -/
  | exiting
  | exited
  /-- Stopped for the hibernation sequencer (19 R352). -/
  | stopped
deriving DecidableEq, Repr

/-- What a queue's command does, with everything it read at issue (06 R106; 10, 11, 12, 13, 14). -/
inductive CmdKind where
  | copy (d s : Opnd) (toMedia fromMedia : Bool)
  | copyh (h : BitVec 4) (slot : Nat) (s : Opnd)
  | gather (d s : Opnd) (idx : List Int)
  | scatter (d s : Opnd) (idx : List Int)
  | amo (op : BitVec 4) (va v : Word) (res : Option Word) (o : Order) (w : Width)
  | amocas (va expected new : Word) (res : Option Word) (o : Order)
  | stflush (bytes : List (Nat × Byte))
  | colstep (g : BitVec 6) (step : Word)
  | cbatch (num : Nat) (va : Option Word) (value : BitVec 32) (counters : Bool)
  | qfence (id : Nat)
  | decomp (s i : TdWord) (entries : Option (List Nat)) (q : Nat) (h : Handle)
  | ddict (o : Opnd)
  | bkcmd (prog : Word) (first count : Nat) (args : Word)
  | bkvec (o : Opnd) (first count : Nat)
  | mma (a b : Opnd) (z rd tb ta remote : Bool)
  | mzero
  | mdrain (d : Opnd)
  | macc (s : Opnd)
  | mrel
  | chain (gen : Nat) (pk : Pricking) (tdIn : Opnd) (start : Nat) (links : List (TdWord × Nat × Nat))
  | chend (pk : Pricking) (d : Opnd)
  | chgrad (l r g : Opnd) (rL rR : Nat)
deriving DecidableEq, Repr

/-- How far a command has come. -/
inductive Phase where
  | queued | reading | writing | performed | suspended
deriving DecidableEq, Repr

/-- A command in a queue. -/
structure Cmd where
  id : Nat
  /-- The bundle that issued it (06 R106). -/
  issue : Nat
  kind : CmdKind
  /-- The batch it belongs to, with its place in it; for the m queue, its number (10 R204, 19 R348). -/
  batch : Option (Bool × Nat × Nat) := none
  num : Nat := 0
  wins : Vector Window 8
  fmode : BitVec 12
  lfsr : BitVec 32 := 1
  phase : Phase := .queued
  /-- Bytes of its own local memory as later stores of the core found them (06 R106). -/
  kept : List (Nat × Byte) := []
  /-- Bytes read so far, by their place in the command's source. -/
  got : Mem := []
  /-- A failure met: status, class and the address it names (10 R206). -/
  fail : Option (Nat × Nat × Nat) := none
  /-- Destination bytes written, and the counts of a counted conversion (10 R205). -/
  bytes : Nat := 0
  sat : Nat := 0
  flz : Nat := 0
  nan : Nat := 0
  /-- Segments, passes, chunks or steps done (11 R238, 12 R263, 13 R280). -/
  step : Nat := 0
  sub : Nat := 0
  /-- A chain step that stops at its next pass boundary (13 R282). -/
  abort : Bool := false
  /-- The retention hint that its instruction names (05 R99, 10 R210). -/
  hint : Option Nat := none
deriving DecidableEq, Repr

/-- A batch of a copy queue (10 R204, R205). -/
structure Batch where
  cb : Bool
  num : Nat
  closed : Bool := false
  count : Nat := 0
  complete : Nat := 0
  /-- Status, class, first command and address of the first failure (10 R205, R206). -/
  fail : Option (Nat × Nat × Nat × Nat) := none
  /-- The first command whose failure stops the batch's later ones (10 R206). -/
  stop : Option Nat := none
  bytes : Nat := 0
  sat : Nat := 0
  flz : Nat := 0
  nan : Nat := 0
  /-- Increments not yet applied to the counters (04 R77). -/
  dueSat : Nat := 0
  dueFlz : Nat := 0
  dueNan : Nat := 0
  /-- RATIO was taken for it, so no DECODE trap follows (11 R240). -/
  ratio : Bool := false
deriving DecidableEq, Repr

/-- User control registers (03 R60) that are no registers of their own elsewhere. -/
structure Ctl where
  hx : BitVec 4 := 0
  hy : BitVec 4 := 0
  hw : BitVec 4 := 0
  hh : BitVec 4 := 0
  mb : Vector (BitVec 32) 8 := Vector.replicate 8 0
  fmode : BitVec 12 := 0
  cvsat : BitVec 32 := 0
  cvflz : BitVec 32 := 0
  cvnan : BitVec 32 := 0
  cvthr : BitVec 32 := 0xFFFFFFFF
  rrb : BitVec 10 := 0
  rbase : BitVec 11 := 32
  rsize : BitVec 11 := 0
  rstep : BitVec 10 := 1
  vwb : BitVec 11 := 0
  lfsr : BitVec 32 := 1
  ln : Word := 0
  lc : Vector (BitVec 32) 4 := Vector.replicate 4 0
  lstat : Word := 0
  taskid : Word := 0
  region : BitVec 16 := 0
deriving DecidableEq, Repr

/-- Core-local system registers (19 R350, 21 R372) and what the trap rules keep beside them. -/
structure Sys where
  tcause : BitVec 32 := 0
  tbaddr : Word := 0
  tinfo0 : Word := 0
  tinfo1 : Word := 0
  sh : Bool := false
  pm : Bool := false
  uh : Bool := false
  /-- Privileged mode (19 R341). -/
  mode : Bool := false
  uret : Word := 0
  shentry : Word := 0
  ksc : Vector Word 4 := Vector.replicate 4 0
  ckmark : Word := 0
  pfbud : BitVec 13 := 4096
  wins : Vector Window 8 := Vector.replicate 8 {}
  asyncs : List AsyncTrap := []
  /-- In the PFW handler (19 R352). -/
  inPfw : Bool := false
  /-- Bundles a system handler has issued while a PFW was held (19 R347). -/
  held : Nat := 0
  /-- The region's trap record as resolved at first dispatch (20 R357). -/
  trapRec : Nat := 0
deriving DecidableEq, Repr

/-- Matrix and chain state of a core (12 R243, R247, R250; 13 R274). -/
structure Mx where
  plane : Vector (BitVec 32) 16384 := Vector.replicate 16384 0
  check : Vector (BitVec 32) 16384 := Vector.replicate 16384 0
  chk : Bool := true
  contender : Option Nat := none
  /-- The ticket count it last took. -/
  tickets : Nat := 1
  /-- The arbiter's pass value P_c, and whether the core had a ready pass when it last looked (12 R250). -/
  passVal : Nat := 0
  hadReady : Bool := false
  /-- Operand slots the core may name (12 R245, R246). -/
  names : BitVec 64 := 0
  chain : Chain := {}
  numM : Nat := 0
deriving DecidableEq, Repr

/-- Decoder and table state of a core (11 R232, R237, R241). -/
structure Xs where
  active : Vector (Option TableFn) 16 := Vector.replicate 16 none
  shadow : Vector (Option TableFn) 16 := Vector.replicate 16 none
  dict0 : List (List Byte) := []
  dict1 : List (List Byte) := []
  gen : Bool := false
deriving DecidableEq, Repr

/-- The queues of a core (10 R203, 12 R252). -/
structure Queues where
  ca : List Cmd := []
  cb : List Cmd := []
  m : List Cmd := []
  bank : List Cmd := []
  dec : List Cmd := []
  batches : List Batch := []
  nextBatchA : Nat := 0
  nextBatchB : Nat := 0
  nextId : Nat := 0
deriving DecidableEq, Repr

/-- Local, spill and stash memory of a core (03 R52, 05 R84-R91). -/
structure Loc where
  lmem : Mem := []
  spill : Mem := []
  spillLimit : Nat := 0
  /-- Stash size in steps of 64 KiB (05 R84). -/
  stashSteps : Nat := 0
  map : Vector (Option StashEntry) 8 := Vector.replicate 8 none
  granules : List Granule := []
  loads : List LocalLoad := []
  stores : List LocalStore := []
  /-- Gated and waking banks (22 R390). -/
  gated : BitVec 32 := 0
  waking : BitVec 32 := 0
  /-- The tick at which each bank's last wake ends. -/
  wakeAt : Vector Nat 32 := Vector.replicate 32 0
deriving DecidableEq, Repr

/-- One core. -/
structure Core where
  s : Vector Word 32 := Vector.replicate 32 0
  p : Vector Bool 16 := Vector.replicate 16 false
  /-- Predicate values readable one sc ago (07 R136). -/
  pPrev : Vector Bool 16 := Vector.replicate 16 false
  v : Vector VecReg 1536 := Vector.replicate 1536 0
  td : Vector TdWord 64 := Vector.replicate 64 0
  bd : Vector (BitVec 16) 16 := Vector.replicate 16 1
  ch : Vector Word 8 := Vector.replicate 8 0
  handles : Vector (Option Handle) 16 := Vector.replicate 16 none
  loops : Vector LoopRec 4 := Vector.replicate 4 {}
  pc : Word := 0
  cyc : Word := 0
  ctl : Ctl := {}
  sys : Sys := {}
  mx : Mx := {}
  xs : Xs := {}
  q : Queues := {}
  loc : Loc := {}
  pend : List Pending := []
  bypass : List Bypass := []
  /-- Physical registers whose ordinary results became readable in this sc: they win over an engine's write (10 R210). -/
  landed : List Nat := []
  /-- SPAWNs that wait for the core's earlier stores, oldest first (08 R162). -/
  spawns : List SpawnReq := []
  /-- Bundles issued since dispatch. -/
  issue : Nat := 0
  status : Status := .idle
  /-- The tick at which the current wait began (02 R41). -/
  waitSince : Nat := 0
  hbarCount : Nat := 0
  /-- Its last two arrivals at the hoop barrier, newest first: the tick, and the tick at which the sc after that one ends
  (08 R159). -/
  arrivals : List (Nat × Nat) := []
  /-- Divisor codes of the four domains in force, granted and requested (01 R17, 22 R382). -/
  codes : Vector (BitVec 4) 4 := Vector.replicate 4 0
  granted : Vector (BitVec 4) 4 := Vector.replicate 4 0
  asked : Vector (BitVec 4) 4 := Vector.replicate 4 0
  /-- The tick at which the core's current sc begins (log 4). -/
  tick : Nat := 0
  /-- Bundles skipped in the current run (07 R137). -/
  skipRun : Nat := 0
  /-- The bundle that the nullifier has kept and that something holds: it is not judged again (05 R89; log 77). -/
  kept : Option Word := none
  /-- A WAITB or WAITQ of the bundle that was satisfied at its issue: the batches it counts are counted after the bundle's reads (07 R140). -/
  counting : Option Wait := none
  /-- Abandoned waits not yet taken up again (02 R41). -/
  reissue : List Reissue := []
  /-- The k slot that issues is that of an abandoned wait. -/
  again : Bool := false
  /-- While the core waits: the bundle after the waiting one. -/
  waitNext : Word := 0
  /-- The bundle's k slot has set the pc: the next bundle issues so many sc later (08 R148, R150). -/
  jump : Option Nat := none
  /-- So many sc later the next bundle issues, where no jump says otherwise (08 R162). -/
  delay : Nat := 1
  /-- Codes that a CLKDIV of this bundle puts in force (08 R165). -/
  clkNext : Option (Vector (BitVec 4) 4) := none
  /-- Bundles fetched since dispatch (06 R118). -/
  icache : List (Nat × BitVec 256) := []
  /-- The die is shed: the core is halted by the power manager (22 R388). -/
  shed : Bool := false
  /-- The value of cyc up to which the region has been charged (20 R368). -/
  charged : Word := 0
deriving DecidableEq, Repr

/-- A grant of a cluster's array (12 R249). -/
structure Grant where
  holder : CoreId
  cmdsLeft : Nat
  cycles : Nat
  /-- A power-fail warning has reached the holder: the grant ends at the pass boundary (12 R249, R267). -/
  ending : Bool := false
deriving DecidableEq, Repr

/-- One cluster: operand memory, claims, grant (12 R244-R250). -/
structure Cluster where
  omem : Mem := []
  side : Mem := []
  owner : Vector (Option CoreId) 64 := Vector.replicate 64 none
  grant : Option Grant := none
deriving DecidableEq, Repr

/-- An accumulator set of a bank engine (14 R287). -/
structure AccSet where
  lanes : Vector (BitVec 32) 64 := Vector.replicate 64 0
  tag : BFmt := .f32
deriving DecidableEq, Repr

/-- A segment of a bank engine (14 R287, R293). -/
structure Seg where
  base : Nat := 0
  len : Nat := 0
  pos : Nat := 0
deriving DecidableEq, Repr

/-- One bank engine (14 R287). -/
structure Engine where
  cmds : Vector (BitVec 32) 1024 := Vector.replicate 1024 0
  ptr : Nat := 0
  running : Bool := false
  vbuf : Mem := []
  acc : Vector AccSet 4 := Vector.replicate 4 {}
  g : Vector (BitVec 32) 16 := Vector.replicate 16 0
  sg : Vector Seg 4 := Vector.replicate 4 {}
  /-- Loop stack: the word after BLOOP and the count left (14 R294). -/
  loops : List (Nat × Nat) := []
  /-- The accepted job it runs. -/
  job : Option Nat := none
  /-- Engine cycles of its program so far (20 R368). -/
  cycles : Nat := 0
deriving DecidableEq, Repr

/-- A bank-queue command or bank task that the module bank sequencer has accepted (14 R289-R303). -/
structure BankJob where
  id : Nat
  /-- The issuing core, its place in its hoop and the command's id; no core for a bank task. -/
  core : Option CoreId
  hx : BitVec 4 := 0
  hy : BitVec 4 := 0
  cmd : Nat := 0
  task : Word
  region : Nat
  prog : Word
  first : Nat
  count : Nat
  args : Word
  wins : Vector Window 8
  /-- For BKVEC, the tensor, and the bytes read of it; a violation met in reading it. -/
  vec : Option Opnd := none
  got : Mem := []
  fail : Option (Nat × Nat) := none
  mb4 : List (BitVec 32) := []
  started : Bool := false
  /-- The program's words (14 R290). -/
  words : List (BitVec 32) := []
  /-- Argument block (14 R289). -/
  cva : Nat := 0
  cval : BitVec 32 := 0
  ilen : Nat := 0
  iva : Nat := 0
  istride : Nat := 0
  oaddr : Nat := 0
  ostride : Nat := 0
  olen : Nat := 0
  ospace : Bool := false
  user : Word := 0
  /-- Engines of the set that have ended, with their fault code, 0 for none (14 R299, R300). -/
  ended : List (Nat × Nat) := []
  /-- The partition that its accesses count for, as at acceptance (21 R375). -/
  part : Nat := 0
  /-- The task that issued it has been killed: the cores that the task held (14 R302, R303). -/
  orphan : Option (List CoreId) := none
  /-- Engine cycles used (20 R368). -/
  cycles : Nat := 0
deriving DecidableEq, Repr

/-- Where an access performs (06 R103, R104). -/
inductive Target where
  /-- Global memory at an intermediate address. -/
  | global (ia : Nat)
  /-- A core's scratchpad, as an engine or neighbour access. -/
  | scratch (c : CoreId) (addr : Nat)
  /-- A physical vector register, from a byte on. -/
  | vreg (c : CoreId) (phys off : Nat)
  /-- Operand memory of a cluster: elements, or the scale side-areas. -/
  | operand (cl : ClusterId) (side : Bool) (addr : Nat)
  /-- SCM, through the write buffer or on the media. -/
  | scm (media : Bool) (off : Nat)
  /-- An address that its issuer's checks refused: performing it is the violation of this class there. -/
  | bad (cls addr : Nat)
deriving DecidableEq, Repr

/-- What an access does. -/
inductive AccessOp where
  /-- Reads len bytes into its owner from place `put` on. -/
  | read (len put : Nat)
  | write (bytes : List Byte)
  /-- An indivisible read and write; the old value goes to place 0 of its owner (10 R216, R217). -/
  | amo (op : BitVec 4) (width : Nat) (v : Nat) (expected : Option Nat)
  /-- Writes, of len bytes, those that a STFLUSH captured and nothing has overtaken; its granule stays (10 R220). -/
  | flush (len : Nat) (cells : List (Nat × Byte))
deriving DecidableEq, Repr

/-- Who an access belongs to. -/
inductive Owner where
  | cmd (c : CoreId) (q : QueueId) (id : Nat)
  | engine (e : Nat) (job : Nat)
  | job (id : Nat)
  /-- A word of the lease engine about a request of a core's task: an event word, or a status word (15 R313, R321). -/
  | lease (id : Nat) (core : CoreId) (task : Word) (event : Bool)
  | none
deriving DecidableEq, Repr

/-- Whose access it is, for scope and partition (05 R97, 21 R375). -/
inductive Requester where
  | core (c : CoreId)
  /-- A bank engine, or the dispatcher, that works for a task of a region of a partition. -/
  | engine (part region : Nat) (task : Word)
  /-- The module's own sequencers and the supervisor complex. -/
  | module
  | peer
deriving DecidableEq, Repr

/-- An access on its way to where it performs (06 R103). -/
structure Access where
  owner : Owner
  target : Target
  op : AccessOp
  /-- Performs as one piece: completion records, atomics, status words (10 R205, 15 R313). -/
  whole : Bool := false
  /-- Performs only after this many accesses of its owner before it: order inside a record (10 R205). -/
  after : Bool := false
  requester : Requester := .module
  /-- The virtual address the program used, for the violation it may meet. -/
  va : Nat := 0
deriving DecidableEq, Repr

/-- Events posted to the supervisor complex (19 R345, R352, R354, R355; 21 R379; 22 R387). -/
inductive SupEvent where
  | taskKilled (task tcause tbaddr tinfo0 tinfo1 : Word) (core : Nat)
  | graphError (desc task : Word)
  | hibernationLoss (task : Word)
  | bankFault (prog task : Word)
  | collectiveRollback (group : Nat) (step : Word)
  | partitionFatal (p : Nat)
  | supervisorTask (task arg : Word)
  | halt (core : Nat)
  | error
  | migrationDone
  | floorScaled (p : Nat)
  | powerFail
deriving DecidableEq, Repr

/-- A fault-domain event (19 R345): kind, tinfo0 [55:8], tinfo1. -/
structure RegEvent where
  kind : Nat
  info : Nat
  task : Word
deriving DecidableEq, Repr

/-- A line of L2: its place in HBM in lines of 128 bytes, the base die and way that hold it, the owner region of its page, the task that
filled it, and the retention hint it stands under (01 R16; 05 R99; 20 R369; 22 R390). -/
structure L2Line where
  line : Nat
  die : Nat
  way : Nat
  owner : Nat
  filler : Option Word
  dirty : Bool := false
  hint : Nat := 0
deriving DecidableEq, Repr

/-- A started region with its resolved fields (20 R356, R357). -/
structure Region where
  id : Nat
  parent : Nat
  prio : Nat := 0
  policy : Nat := 0
  super : Bool := false
  wy : Bool := false
  stash : Nat := 0
  override : Nat := 0
  depth : Nat := 0
  maxCores : Nat := 0
  mtickets : Nat := 0
  dtickets : Nat := 1
  strands : Nat := 0
  floor : Nat := 0
  quota : Nat := 0
  sticky : Nat := 0
  wyThr : Nat := 0
  trapRec : Nat := 0
  handler : Word := 0
  saveIa : Nat := 0
  saveLen : Nat := 0
  groups : Word := 0
  winset : Nat := 0
  events : List RegEvent := []
  /-- Stride pass value per level, a rational (R362). -/
  pass : List (Nat × Nat × Nat) := []
  /-- The queue was active at the last decision, per level. -/
  wasActive : List Nat := []
deriving DecidableEq, Repr

/-- Lifecycle states (02 R32), with the spawn-wait list of 20 R367 and the hold of 23 R401. -/
inductive TaskState where
  | pending | ready | running | preempted | spawnWait (child : Word) | held | retiring
deriving DecidableEq, Repr

/-- A core of a saved context: its record, and the contents of the operand slots it had claimed, elements and scale
side-area (03 R62, 12 R267, 20 R366). -/
structure SavedCore where
  core : Core
  slots : List (Nat × Mem × Mem)
deriving DecidableEq, Repr

/-- An accepted task that has not ended (02 R28-R32). -/
structure Task where
  va : Word
  kind : Nat
  w : Nat
  h : Nat
  prio : Nat
  region : Nat
  spawnQuota : Nat
  affinity : Nat
  rdDefault : Bool
  waitYield : Bool
  spill : Nat
  vfoot : Nat
  entry : Word
  succ : Word
  mb : List (BitVec 32)
  operands : List (Nat × Nat × Nat)
  /-- The windows its descriptor was read through (02 R36). -/
  wins : Vector Window 8
  state : TaskState := .pending
  /-- The task that spawned it, while that one has not ended (20 R367). -/
  parent : Option Word := none
  readySeq : Nat := 0
  cores : List CoreId := []
  dispatchedAt : Nat := 0
  /-- The saved context, one record for each core of the hoop (20 R366). -/
  saved : List SavedCore := []
  reserved : Nat := 0
  /-- The save area in which its record is reserved (20 R364). -/
  area : Nat := 0
  ckmark : Word := 0
  resumable : Bool := true
  /-- The cause under which its context was last saved (19 R347). -/
  cause : Nat := 0
  /-- A pre-emption the dispatcher has asked for, with its reason (20 R365-R367). -/
  preempt : Option Nat := none
  /-- The one victim that the dispatcher has chosen for it since it last became Ready (20 R365). -/
  victim : Option Word := none
  /-- Its spawn could be accepted but no ready entry was free: it is retried first (20 R367). -/
  retryFirst : Bool := false
deriving DecidableEq, Repr

/-- A lease request or lease (15 R311-R318). -/
structure Lease where
  id : Nat
  task : Word
  core : CoreId
  region : Nat
  level : Nat
  drow : BitVec 4
  dcol : BitVec 4
  peer : Nat
  /-- Strands admitted, less those cancelled; strands received so far. -/
  n : Nat
  got : Nat := 0
  dur : Nat
  /-- Where the status word and the event word stand. -/
  status : Option Target
  event : Option Target
  /-- The request was cut to the peer's ceiling (R314). -/
  ceiling : Bool := false
  /-- An LREL has cancelled some of its strands (R318). -/
  cut : Bool := false
  acceptedAt : Nat
  expiry : Option Nat := none
  /-- Its grant time: when its first part arrived (15 R317). -/
  grantedAt : Option Nat := none
  /-- R316 has been applied. -/
  starved : Bool := false
deriving DecidableEq, Repr

/-- A lease instruction on its way to the engine (15 R311-R314). -/
structure LeaseReq where
  core : CoreId
  task : Word
  region : Nat
  level : Nat
  /-- 0 LEASE, 1 LREL, 2 LRENEW. -/
  op : Nat
  drow : BitVec 4
  dcol : BitVec 4
  n : Nat
  dur : Nat
  status : Option Target
  event : Option Target
deriving DecidableEq, Repr

/-- Whose a strand is (15 R306). -/
inductive StrandUse where
  | pool
  | floor (peer : Nat)
  | default (peer : Nat)
  | lease (id : Nat) (peer : Nat)
deriving DecidableEq, Repr

/-- The allocation of one strand, and where it is moving (15 R315, R319). -/
structure StrandAlloc where
  use : StrandUse := .pool
  /-- The use it takes when its retune ends, and that tick. -/
  moving : Option (StrandUse × Nat) := none
  /-- Under notice: the use that takes it, and the tick at which the notice ends (15 R315). -/
  notice : Option (StrandUse × Nat) := none
  /-- Taken under R316. -/
  floorGrant : Bool := false
deriving DecidableEq, Repr

/-- A strand's optical registers (24 R405, R409). -/
structure Strand where
  amask : BitVec 8 := 0xFF
  wth : BitVec 16 := 0
  /-- Flits queued, those on the wire included, as of the tick beside it (24 R405). The first leaves the time of one flit after that tick,
  or at that tick itself, where a flit was on the wire when the width changed (15 R305, 24 R409). -/
  qd : Nat := 0
  qdAt : Nat := 0
  flying : Bool := false
  /-- The mask that channels carry flits under, before a park or a wake takes effect. -/
  carry : BitVec 8 := 0xFF
  wakeEnd : Option Nat := none
  /-- A park asked for while a wake was in progress (24 R409). -/
  parkDue : Bool := false
  parking : Bool := false
  /-- The tick at which a flit brought the queue to the threshold while a channel was parked; its wake has not begun yet (24 R409, R411). -/
  due : Option Nat := none
deriving DecidableEq, Repr

/-- A ring (24 R405). -/
structure Ring where
  heater : BitVec 10 := 0
  line : Nat := 0
  sw : Bool := false
  disable : Bool := false
  strand : BitVec 10 := 0
  chan : BitVec 3 := 0
  swapped : Bool := false
  detune : Int := 0
  /-- The tick until which a swap, a re-centring or a wake keeps the ring from carrying flits (24 R407, R409). -/
  settle : Option Nat := none
  /-- What it settles from is a wake, or for a disabled ring its training alone (24 R409, R412). -/
  wake : Bool := false
deriving DecidableEq, Repr

/-- A packet that waits in a virtual-channel buffer of this module, or at its source here (15 R307-R309). -/
structure Packet where
  row : Nat
  col : Nat
  flits : Nat
  /-- It belongs to the class of responses. -/
  response : Bool
  /-- The peer it has come from, and the channel. -/
  via : Option (Nat × VChan)
deriving DecidableEq, Repr

/-- Power registers (22 R391). -/
structure Power where
  cap : BitVec 16 := 2600
  tokNow : BitVec 16 := 2600
  tokNext : BitVec 16 := 2600
  coord : Bool := false
  period : BitVec 24 := 0
  shedCap : BitVec 8 := 0
  shedBo : BitVec 8 := 0
  refusal : BitVec 8 := 0
  floors : Vector (BitVec 32) 8 := Vector.replicate 8 0
  effFloors : Vector (BitVec 32) 8 := Vector.replicate 8 0
  shedOrder : BitVec 24 := 0xFAC688
  boShed : BitVec 8 := 60
  boAll : BitVec 8 := 40
  boRestore : BitVec 8 := 70
  /-- The bus voltage in 0.01 V as last read, with the tick since which the readings have been below the shed threshold, and since
  which above the restore threshold (22 R389, R391). -/
  volts : BitVec 16 := 4800
  lowSince : Option Nat := none
  highSince : Option Nat := none
  draw : BitVec 16 := 0
  overPeriods : Nat := 0
  l2gated : Vector (BitVec 16) 4 := Vector.replicate 4 0
  l2waking : Vector (BitVec 16) 4 := Vector.replicate 4 0
  /-- The tick at which each way's last wake ends. -/
  l2wakeAt : Vector (Vector Nat 16) 4 := Vector.replicate 4 (Vector.replicate 16 0)
  /-- The ticks at which a brown-out last shed a die, and at which its end last unshed one (22 R389). -/
  lastShed : Nat := 0
  lastRestore : Nat := 0
  /-- The tick at which the current grant period began (22 R383). -/
  periodAt : Nat := 0
  /-- Tokens received from peers less tokens given, for the current period and the next (22 R383). -/
  netNow : Int := 0
  netNext : Int := 0
deriving DecidableEq, Repr

/-- Hibernation sequence states (23 R395). -/
inductive HbState where
  | run | warn | quiesce | flush | drain | seal | off | restore | rejoin
deriving DecidableEq, Repr

/-- One entry of a manifest (23 R398). -/
structure ManifestEntry where
  kind : Nat
  status : Nat
  prio : Nat
  why : Nat
  region : Nat
  index : Nat
  base : Nat
  length : Nat
  scm : Nat
  bytes : Nat
  digest : Nat
  taskid : Word
deriving DecidableEq, Repr

/-- Hibernation registers and the sequencer's own state (23 R392-R401). -/
structure Hib where
  dlist : BitVec 56 := 0
  dcnt : BitVec 11 := 0
  state : HbState := .run
  cause : BitVec 4 := 0
  gen : BitVec 32 := 0
  /-- Exact energy left, in twelfths of a nanojoule: a byte at 96 GB/s and 1,000 W costs 125 of them (R392, R437). -/
  reserve : Nat := 54000000000000
  selv : BitVec 16 := 400
  manif : BitVec 48 := 0
  data : BitVec 48 := 0
  ctx : BitVec 56 := 0
  ctxlen : BitVec 32 := 0
  member : Vector (BitVec 256) 64 := Vector.replicate 64 0
  step : Vector Word 64 := Vector.replicate 64 0
  agreed : Vector Word 64 := Vector.replicate 64 0
  /-- Values received at rejoin: group, member, step (R401). -/
  answers : List (Nat × Nat × Word) := []
  /-- Tick at which the current state began. -/
  since : Nat := 0
  reserveWarn : Nat := 0
  reserveSeal : Nat := 0
  entries : List ManifestEntry := []
  drained : Nat := 0
  /-- The task tree that the context set of the last seal carries, (R394, R400). -/
  imageTasks : List Task := []
  imageRegions : List Region := []
  imageSteps : Vector Word 64 := Vector.replicate 64 0
  imageMembers : Vector (BitVec 256) 64 := Vector.replicate 64 0
  /-- The accepted bank commands of killed tasks that the warning stopped, each to run again from its first word (14 R302; log 84). -/
  imageJobs : List BankJob := []
  /-- The manifest generation that the image belongs to. -/
  imageGen : Nat := 0
deriving DecidableEq, Repr

/-- Partition registers (25 R419). -/
structure Partition where
  ctl : BitVec 32 := 0
  shentry : Word := 0
  strands : BitVec 10 := 0
  refusal : BitVec 4 := 0
deriving DecidableEq, Repr

/-- Migration (21 R378, R379). -/
inductive MigState where
  | idle | hold | switch | forward
deriving DecidableEq, Repr

/-- Memory-side registers and the migration in progress (21 R374-R379). -/
structure Trans where
  ptBase : BitVec 39 := 0
  ptCtl : Bool := false
  migIa : BitVec 48 := 0
  migNew : BitVec 64 := 0
  migState : MigState := .idle
  migResult : BitVec 8 := 0
  /-- The page in migration, the entry that the migration found there, and the entry it is to hold: as they were at its start
  (21 R378, R379). -/
  migAt : BitVec 48 := 0
  migOld : BitVec 64 := 0
  migTo : BitVec 64 := 0
  /-- Where that entry stands, and whether it is a 2 MiB page's (21 R379). -/
  migPlace : Nat := 0
  migBig : Bool := false
  /-- Cached table entries: twice the number of a 2 MiB range and its level-1 entry, or twice that of a 64 KiB piece and one
  and its level-2 entry (21 R376). -/
  tlb : List (Nat × BitVec 64) := []
deriving DecidableEq, Repr

/-- The error log (19 R355). -/
structure Elog where
  base : BitVec 56 := 0
  size : BitVec 17 := 0
  head : Word := 0
  tail : Word := 0
  lost : BitVec 32 := 0
deriving DecidableEq, Repr

/-- Boot steps (25 R413, R415). -/
inductive BootStep where
  | off | recovery
  /-- Firmware runs, and the fibres train (step 5). -/
  | training
  | done
deriving DecidableEq, Repr

/-- Security block, boot flash and attestation (25 R413-R417). -/
structure Boot where
  step : BootStep := .done
  /-- Fibres that have trained since power-on (R412). -/
  fibres : BitVec 64 := 0xFFFFFFFFFFFFFFFF
  /-- Images by kind and slot: supervisor 0, 1, device 0, 1 (25 R414). -/
  flash : Vector (Option (List Byte)) 4 := Vector.replicate 4 none
  /-- Fused rollback counters of the two kinds. -/
  rollback : Vector (BitVec 16) 2 := Vector.replicate 2 0
  serial : BitVec 512 := 0
  /-- Payload digests and security versions of the running images (R417). -/
  digests : Vector (BitVec 384) 2 := Vector.replicate 2 0
  secvers : Vector (BitVec 16) 2 := Vector.replicate 2 0
  /-- When the module last powered off (23 R395). -/
  offSince : Nat := 0
  attIn : BitVec 56 := 0
  attOut : BitVec 56 := 0
  attStat : BitVec 2 := 0
  /-- The management port reports a failed self-test (25 R413). -/
  fault : Bool := false
  /-- The 128 GiB of LPDDR5X of the supervisor complex: firmware stands at its load address (01 R16; 25 R414, R418). -/
  memory : Mem := []
  /-- What the supervisor complex's last read of the block of registers returned (25 R418). -/
  superData : Word := 0
deriving DecidableEq, Repr

/-- What an instruction meets instead of its effect: a trap (19 R343), a violation or another fatal context error
(05 R101, 19 R354). -/
inductive Raise where
  | trap (cause : Nat) (tinfo0 tinfo1 : Word)
  | violation (cls addr : Nat)
  | fatal (tinfo0 tinfo1 : Word)
deriving DecidableEq, Repr

/-- What may happen next (log 3). -/
inductive Action where
  /-- Core c's next sc: an asynchronous trap, a bundle or a wait's next look. -/
  | issue (c : CoreId)
  /-- Engine e's next Crisum command. -/
  | engine (e : EngineId)
  /-- Time passes: so many ticks. -/
  | elapse (ticks : Nat)
  /-- A ring's resonance drifts by so many heater codes with its temperature (24 R404). -/
  | drift (r : RingId) (codes : Int)
  /-- Supervisor firmware raises the fused rollback counter of an image kind: 0 its own, 1 device firmware (25 R414). -/
  | rollback (kind : Fin 2) (v : BitVec 16)
  /-- The supervisor complex reads, or writes, the block of registers at a byte offset (25 R418). -/
  | superAccess (off : Nat) (write : Option Word)
  /-- An event about a core or a subject. -/
  | event (c : CoreId) (subject : Nat) (i : Instr)
deriving DecidableEq, Repr, Inhabited

/-- The module. -/
structure State where
  cores : Vector Core 256
  clusters : Vector Cluster 64
  engines : Vector Engine 512
  /-- HBM by physical address, its pseudo-channels one after another (01 R16; 05 R98; log 2). -/
  hbm : Mem
  scm : Mem
  /-- Bytes the SCM controller's write buffer has accepted, over the media (19 R353). -/
  scmBuf : List (Nat × Byte)
  accesses : List Access
  jobs : List BankJob
  nextJob : Nat
  trans : Trans
  elog : Elog
  rtabBase : BitVec 56
  regStat : BitVec 32
  regions : List Region
  tasks : List Task
  /-- Order in which tasks became Ready (20 R362). -/
  readyCount : Nat
  parts : Vector Partition 8
  power : Power
  hib : Hib
  boot : Boot
  leases : List Lease
  leaseReqs : List LeaseReq
  nextLease : Nat
  /-- The sequence number last written to each lease-event word, by its address (15 R321). -/
  leaseSeqs : List (Nat × BitVec 16)
  /-- Packets in the virtual-channel buffers, oldest first (15 R309). -/
  packets : List Packet
  /-- L2, oldest line first; the bytes stand in hbm (01 R16, log 56). -/
  l2 : List L2Line
  /-- Accounting charges not yet added to the blocks' counters, by region · 512 + offset (20 R368). -/
  charges : List (Nat × Nat)
  /-- The tick up to which strand time has been charged (20 R368). -/
  accruedAt : Nat
  alloc : Vector StrandAlloc 512
  strands : Vector Strand 512
  rings : Vector Ring 4096
  /-- Masks that peers' control flits have announced, by peer index · 512 + strand; 0xFF where none (24 R408). -/
  receivers : List (Nat × BitVec 8)
  /-- The tick of each chiplet's last lock period (24 R406). -/
  lockedAt : Vector Nat 16
  modid : BitVec 8
  fabRows : Nat
  fabCols : Nat
  /-- Positions that hold a trained module (24 R412). -/
  trained : BitVec 256
  supEvents : List SupEvent
  nextFence : Nat
  /-- The issue context and the model's own fields (log 3, log 4). -/
  cur : CoreId
  curSlot : Slot
  curWord : BitVec 32
  curEng : EngineId
  subj : Nat
  now : Nat
  choices : Nat
  /-- The issue logic tries a bundle's slots: what one meets is noted, not taken (07 R125). -/
  trial : Bool
  met : Option Raise
  agenda : List Action
deriving DecidableEq, Repr

/-- Ring r as link training leaves it: fibre r div 64, line r mod 64, and the channel formed for it; a ring out of service is given none, and
what its fields read is not architected (24 R403, R412; log 41). -/
def Ring.formed (x : Ring) (r : Nat) (chan : Option Nat) : Ring :=
  match chan with
  | none => { x with line := r % 64 }
  | some c => { x with line := r % 64, strand := BitVec.ofNat 10 (c / 8), chan := BitVec.ofNat 3 (c % 8) }

/-- The rings at reset: every ring enabled, with the channels formed for them (24 R403). -/
def ringsFormed : Vector Ring 4096 :=
  let low := (formation (fun _ => true) 0).toArray
  let high := (formation (fun _ => true) 1).toArray
  Vector.ofFn fun r : Fin 4096 => ({} : Ring).formed r.val (((if r.val < 2048 then low else high)[r.val % 2048]?).join)

/-- The module right after reset: every register at its reset value; log 1 names those the spec leaves open. No peer
is trained, so every strand is in its router's pool (15 R306). -/
def State.reset : State :=
  { cores := Vector.replicate 256 {}
    clusters := Vector.replicate 64 {}
    engines := Vector.replicate 512 {}
    hbm := []
    scm := []
    scmBuf := []
    accesses := []
    jobs := []
    nextJob := 0
    trans := {}
    elog := {}
    rtabBase := 0
    regStat := 0
    regions := []
    tasks := []
    readyCount := 0
    parts := Vector.replicate 8 {}
    power := {}
    hib := {}
    boot := {}
    leases := []
    leaseReqs := []
    nextLease := 0
    leaseSeqs := []
    packets := []
    l2 := []
    charges := []
    accruedAt := 0
    alloc := Vector.replicate 512 {}
    strands := Vector.replicate 512 {}
    rings := ringsFormed
    receivers := []
    lockedAt := Vector.replicate 16 0
    modid := 0
    fabRows := 1
    fabCols := 1
    trained := 0
    supEvents := []
    nextFence := 0
    cur := 0
    curSlot := .k
    curWord := 0
    curEng := 0
    subj := 0
    now := 0
    choices := 0
    trial := false
    met := none
    agenda := [] }

end Sys2Proof.Machine
end

