-- ==== Sys2Proof/Config.lean ====
section
/-! DEFINITION. What an implementation fixes and what the spec leaves open: constants without a body, of which no
proof can learn a value. A free value is applied to the counter of free choices in the state, or to the operands
it depends on. -/

namespace Sys2Proof

/-- Which agent moves next when the agenda is empty (log 3). -/
opaque Config.freeAction : Nat → Machine.Action

/-- A choice the spec leaves open between two outcomes (log 5). -/
opaque Config.freeBool : Nat → Bool

/-- A number the spec leaves open (log 6). -/
opaque Config.freeNat : Nat → Nat

/-- Bits the spec leaves open (log 6). -/
opaque Config.freeWord : Nat → Word

/-- Cores that passed the test at manufacture (01 R22, 25 R413). -/
opaque Config.working : CoreId → Bool

/-- Pseudo-channels that training excluded (25 R413). -/
opaque Config.excluded : EngineId → Bool

/-- Pieces of 4 KiB of SCM whose media has an uncorrectable error (19 R353, 23 R396). -/
opaque Config.badMedia : Nat → Bool

/-- The base die that is the home of a line of a SPREAD page (05 R98, log 6). -/
opaque Config.homeDie : Nat → Fin 4

/-- The set of L2 that a line of HBM falls into (01 R16, log 56). -/
opaque Config.l2Set : Nat → Nat

/-- SHA-384 (23 R396, 25 R414), as a number of 384 bits (log 7). -/
opaque Config.sha384 : List Byte → BitVec 384

/-- A signature under the module identity key over a SHA-384 digest (23 R398, 25 R416; log 7). -/
opaque Config.sign : BitVec 384 → BitVec 768

/-- The device certificate, which holds the public identity key and is signed by the maker's device authority (25 R416; log 7). -/
opaque Config.certificate : List Byte

/-- Verification under the module identity key (23 R399; log 7). -/
opaque Config.verify : BitVec 384 → BitVec 768 → Bool

/-- Verification under the fused root key (25 R414; log 7). -/
opaque Config.verifyRoot : BitVec 384 → BitVec 768 → Bool

/-- The estimated draw, in watts, of a task of so many cores at these codes (22 R384; log 8). -/
opaque Config.estimate : Nat → List Nat → Nat

/-- The number by which STMAP's trap names a failing check; the spec gives none (10 R219; log 6). -/
opaque Config.checkCode : Nat → Word

/-- How a trap names a command of a batch: its queue, batch and place (11 R239; log 6). -/
opaque Config.commandName : Bool → Nat → Nat → Word

/-- The photodiode level of a ring, which depends on its light (24 R405; log 6). -/
opaque Config.photodiode : Nat → Nat → BitVec 12

end Sys2Proof
end

