-- ==== Sys2Proof/Machine/Mem.lean ====
section
/-! DEFINITION. Memories as lists of cells in one canonical form (log 2), and reads and writes of several bytes,
little-endian (00 R6). -/

namespace Sys2Proof.Machine

/-- What an address that is not listed reads as (log 2). -/
def Mem.unwritten : Byte := 0

/-- The byte at an address. -/
def Mem.get : Mem → Nat → Byte
  | [], _ => Mem.unwritten
  | (x, y) :: t, a => if x = a then y else Mem.get t a

/-- A memory with one byte written. -/
def Mem.set : Mem → Nat → Byte → Mem
  | [], a, b => if b = Mem.unwritten then [] else [(a, b)]
  | (x, y) :: t, a, b =>
    if a < x then (if b = Mem.unwritten then (x, y) :: t else (a, b) :: (x, y) :: t)
    else if a = x then (if b = Mem.unwritten then t else (a, b) :: t)
    else (x, y) :: Mem.set t a b

/-- Every address of a list lies above a. -/
def Mem.above (a : Nat) : Mem → Bool
  | [] => true
  | (x, _) :: _ => decide (a < x)

/-- The canonical form: addresses strictly rise and no listed byte is what an unlisted address reads as. -/
def Mem.wf : Mem → Bool
  | [] => true
  | (x, y) :: t => Mem.above x t && decide (y ≠ Mem.unwritten) && Mem.wf t

/-- The n bytes from an address on. -/
def Mem.bytes (m : Mem) (a : Nat) : Nat → List Byte
  | 0 => []
  | n + 1 => m.get a :: Mem.bytes m (a + 1) n

/-- A memory with bytes written from an address on. -/
def Mem.put (m : Mem) (a : Nat) : List Byte → Mem
  | [] => m
  | b :: bs => Mem.put (m.set a b) (a + 1) bs

/-- The little-endian number in n bytes. -/
def Mem.nat (m : Mem) (a n : Nat) : Nat := natOfBytes (m.bytes a n)

/-- A memory with a number written in n bytes. -/
def Mem.putNat (m : Mem) (a n v : Nat) : Mem := m.put a (bytesOfNat n v)

/-- A memory with n bytes from an address on made zero. -/
def Mem.clear (m : Mem) (a n : Nat) : Mem := m.filter fun c => !(decide (a ≤ c.1) && decide (c.1 < a + n))

/-- The cells of a range, with addresses counted from its start. -/
def Mem.slice (m : Mem) (a n : Nat) : Mem :=
  (m.filter fun c => decide (a ≤ c.1) && decide (c.1 < a + n)).map fun c => (c.1 - a, c.2)

/-- The n bytes from address a on of a memory that lists nothing below a: a read in one pass. -/
def Mem.dense : Nat → Nat → Mem → List Byte
  | _, 0, _ => []
  | a, n + 1, [] => Mem.unwritten :: Mem.dense (a + 1) n []
  | a, n + 1, (x, y) :: t => if x = a then y :: Mem.dense (a + 1) n t else Mem.unwritten :: Mem.dense (a + 1) n ((x, y) :: t)

/-- The n bytes from an address on, in one pass. -/
def Mem.span (m : Mem) (a n : Nat) : List Byte := Mem.dense 0 n (m.slice a n)

/-- Writes every cell of a slice at a base. -/
def Mem.putCells (m : Mem) (base : Nat) : Mem → Mem
  | [] => m
  | (x, y) :: t => Mem.putCells (m.set (base + x) y) base t

end Sys2Proof.Machine
end

