-- ==== Sys2Proof/Machine/Descriptor.lean ====
section
/-! DEFINITION. Tensor descriptors as data: their fields and the checks of use (03 R56, R57; 10 R209; 12 R244), the places
of their elements, and the configured handles (03 R53-R55). -/

namespace Sys2Proof.Machine

/-! ### Descriptor fields -/

/-- n bytes of a descriptor from byte lo. -/
def tdBytes (d : TdWord) (lo n : Nat) : Nat := bitsOf d.toNat (8 * lo) (8 * n)

/-- Space (03 R56). -/
def tdSpace (d : TdWord) : Nat := bitsOf d.toNat 60 4

/-- Place bits (03 R56). -/
def tdPlaceBits (d : TdWord) : Nat := bitsOf d.toNat 0 60

/-- The base word: bytes 0-7. -/
def tdBase (d : TdWord) : Word := BitVec.ofNat 64 (tdBytes d 0 8)

/-- Format, where the code names one (03 R56). -/
def tdFmt (d : TdWord) : Option Fmt := if tdBytes d 8 1 < 16 then Fmt.ofCode (BitVec.ofNat 4 (tdBytes d 8 1)) else none

/-- Link flag (03 R56). -/
def tdLink (d : TdWord) : Bool := bitsOf d.toNat 72 1 == 1

/-- Scaled flag (03 R56). -/
def tdScaled (d : TdWord) : Bool := bitsOf d.toNat 73 1 == 1

/-- Layout code (03 R56). -/
def tdLayout (d : TdWord) : Nat := tdBytes d 10 1

/-- Retention hint (03 R56). -/
def tdRetain (d : TdWord) : Nat := bitsOf d.toNat 88 2

/-- Rows (03 R56). -/
def tdRows (d : TdWord) : Nat := tdBytes d 12 2

/-- Columns (03 R56). -/
def tdCols (d : TdWord) : Nat := tdBytes d 14 2

/-- Stride (03 R56). -/
def tdStride (d : TdWord) : Nat := tdBytes d 16 4

/-- Offset of the scale bytes (03 R56). -/
def tdScaleOff (d : TdWord) : Nat := tdBytes d 20 4

/-- Tensor scale, an f32 code (03 R56). -/
def tdTscale (d : TdWord) : Nat := tdBytes d 24 4

/-- Link row factor m (03 R56). -/
def tdM (d : TdWord) : Nat := bitsOf d.toNat 224 6 + 1

/-- Link column factor n (03 R56). -/
def tdN (d : TdWord) : Nat := bitsOf d.toNat 230 6 + 1

/-- Bond register of the incoming bond (03 R56). -/
def tdBdIn (d : TdWord) : Nat := bitsOf d.toNat 236 4

/-- Bond register of the outgoing bond (03 R56). -/
def tdBdOut (d : TdWord) : Nat := bitsOf d.toNat 240 4

/-- Width of an element in bits (03 R46, R56). -/
def fmtBits : Fmt → Nat
  | .f32 | .i32 | .n32 => 32
  | .bf16 | .f16 | .i16 => 16
  | .e4m3 | .e5m2 | .i8 | .n8 => 8
  | .b4 => 4

/-- Width in bits of a descriptor's elements; a reserved format has none. -/
def tdBits (d : TdWord) : Nat := (tdFmt d).elim 0 fmtBits

/-- Elements of a descriptor. -/
def tdCount (d : TdWord) : Nat := tdRows d * tdCols d

/-- Bytes of the elements packed without gaps. -/
def tdPacked (d : TdWord) : Nat := ceilDiv (tdCount d * tdBits d) 8

/-- Scale bytes of a descriptor: one for 32 codes, of b4 only (03 R56, 04 R67). -/
def tdScales (d : TdWord) : Nat := if tdFmt d = some .b4 then ceilDiv (tdCount d) 32 else 0

/-- The value of the scaled tensor's scale, 1 where the flag is 0 (03 R56). -/
def tdScale (d : TdWord) : Num := if tdScaled d then FFmt.f32.value false (tdTscale d) else .ofNat 1

/-! ### Checks of use -/

/-- Place bits that a space does not use are zero (03 R56, R57). -/
def tdPlaceOk (d : TdWord) : Bool :=
  let p := tdPlaceBits d
  match tdSpace d with
  | 0 => decide (p < 2 ^ 20)
  | 1 => decide (p < 2 ^ 56) && bitsOf p 20 28 == 0
  | 2 | 4 => decide (p < 64)
  | 3 | 8 => decide (p < 2 ^ 48)
  | 5 => decide (p < 16)
  | 6 => p == 0
  | 7 => decide (p < 2 ^ 56)
  | _ => false

/-- The span that a layout needs of the stride, in bits (03 R57). -/
def tdSpanBits (d : TdWord) : Nat :=
  match tdLayout d with
  | 0 => tdCols d * tdBits d
  | 1 => tdRows d * tdBits d
  | _ => 16384 * tdBits d * ceilDiv (tdCols d) 128

/-- Vector registers that a space-4 tensor's elements take (10 R209). -/
def tdRegs (d : TdWord) : Nat := ceilDiv (tdPacked d) 512

/-- The names of a space-4 tensor's registers, elements then scale bytes (10 R209). -/
def tdNames (d : TdWord) : List Nat × List Nat :=
  let first := tdPlaceBits d
  ((List.range (tdRegs d)).map (first + ·),
    (List.range (ceilDiv (tdScales d) 512)).map (first + tdScaleOff d / 512 + ·))

/-- A space-4 tensor keeps to v0-v63 and gives its scale bytes registers of their own (10 R209). -/
def tdVregOk (d : TdWord) : Bool :=
  let names := tdNames d
  (names.1 ++ names.2).all (fun n => decide (n < 64)) &&
    (tdFmt d != some .b4 ||
      (tdScaleOff d % 512 == 0 && tdScaleOff d != 0 && decide (roundUp (tdPacked d) 512 ≤ tdScaleOff d)))

/-- The descriptor passes R57, and R209 and R244 where its format or space asks. -/
def tdOk (d : TdWord) : Bool :=
  (tdFmt d).isSome && decide (tdSpace d ≤ 8) && decide (tdLayout d ≤ 2) && tdPlaceOk d
    && bitsOf d.toNat 74 6 == 0 && bitsOf d.toNat 90 6 == 0 && (!tdLink d || bitsOf d.toNat 244 12 == 0)
    && tdRows d != 0 && tdCols d != 0 && decide (tdSpanBits d ≤ tdStride d * 8)
    && (tdFmt d == some .b4 || tdScaleOff d == 0)
    && (tdFmt d != some .b4 || (tdCols d % 32 == 0 && tdLayout d != 1))
    && (tdSpace d != 4 || tdVregOk d)
    && (tdSpace d != 2 || (tdLayout d == 0 && tdStride d * 8 == tdCols d * tdBits d))

/-! ### Places of elements -/

/-- Runs of bytes that the elements of rows [r0, r0 + rn) and columns [c0, c0 + cn) fill: offset from the base, place in the
packed element order, length (10 R209). Every run is whole bytes: a b4 tensor's columns are a multiple of 32. -/
def tdWindow (d : TdWord) (r0 rn c0 cn : Nat) : List (Nat × Nat × Nat) :=
  let w := tdBits d
  ((List.range rn).map (r0 + ·)).flatMap fun r =>
    match tdLayout d with
    | 0 => [(r * tdStride d + c0 * w / 8, (r * tdCols d + c0) * w / 8, cn * w / 8)]
    | 1 => (List.range cn).map fun i => ((c0 + i) * tdStride d + r * w / 8, (r * tdCols d + c0 + i) * w / 8, w / 8)
    | _ => (List.range (cn / 128 + 2)).filterMap fun i =>
        let b := c0 / 128 + i
        let lo := max c0 (b * 128)
        let hi := min (c0 + cn) (b * 128 + 128)
        if lo < hi then
          some (r / 128 * tdStride d + b * 16384 * w / 8 + (r % 128 * 128 + lo % 128) * w / 8, (r * tdCols d + lo) * w / 8,
            (hi - lo) * w / 8)
        else none

/-- Runs of bytes that all of a descriptor's elements fill (10 R209). -/
def tdRuns (d : TdWord) : List (Nat × Nat × Nat) := tdWindow d 0 (tdRows d) 0 (tdCols d)

/-- Bytes from the base to the end of what a descriptor touches, scale bytes included. -/
def tdExtent (d : TdWord) : Nat :=
  max ((tdRuns d).foldl (fun m (o, _, n) => max m (o + n)) 0) (if tdScales d = 0 then 0 else tdScaleOff d + tdScales d)

/-- A bound of that extent, without a look at every run. -/
def tdBound (d : TdWord) : Nat :=
  max (tdStride d * (match tdLayout d with | 0 => tdRows d | 1 => tdCols d | _ => ceilDiv (tdRows d) 128)) (tdScaleOff d + tdScales d)

/-- Where the scale bytes of a command's source stand among the bytes it has read, after every element byte. -/
def scalePlace : Nat := 2 ^ 40

/-- The code of element e among packed bytes read (03 R46). -/
def packedCode (m : Mem) (w e : Nat) : Nat :=
  if w = 4 then (m.get (e / 2)).toNat / 16 ^ (e % 2) % 16 else m.nat (e * (w / 8)) (w / 8)

/-- The value of element e of a tensor, from its packed bytes: input flush by class, times the tensor scale (04 R68,
R74; 10 R210). -/
def tdValue (d : TdWord) (fmode : BitVec 12) (m : Mem) (e : Nat) : Num :=
  match tdFmt d with
  | none => .nan
  | some .b4 => b4Value (m.get (scalePlace + e / 32)).toNat (packedCode m 4 e) (fmode.getLsbD 10) (tdScale d)
  | some f =>
    match fmtElt f with
    | none => .nan
    | some t =>
      let v := t.value (flushIn fmode t) (packedCode m t.width e)
      if tdScaled d then v.mul (tdScale d) else v

/-- The values of all elements of a tensor, from its packed element bytes and its scale bytes (04 R68, R74; 10 R210). -/
def tdValues (d : TdWord) (fmode : BitVec 12) (bytes scales : List Byte) : Array Num :=
  let codes := elemsOfNat (tdBits d) (tdCount d) (natOfBytes bytes)
  match tdFmt d with
  | none => #[]
  | some .b4 =>
    let sc := (scales.map (·.toNat)).toArray
    ((List.range codes.length).zipWith (fun e c => b4Value (sc.getD (e / 32) 0) c (fmode.getLsbD 10) (tdScale d)) codes).toArray
  | some f =>
    match fmtElt f with
    | none => #[]
    | some t => (codes.map fun c =>
        let v := t.value (flushIn fmode t) c
        if tdScaled d then v.mul (tdScale d) else v).toArray

/-- Slots of operand memory that a space-2 descriptor spans, elements and scale bytes (12 R244). -/
def tdSlots (d : TdWord) : List Nat :=
  let n := max (ceilDiv (tdPacked d) 32768) (ceilDiv (tdScales d) 2048)
  (List.range n).map (tdPlaceBits d + ·)

/-! ### Handles -/

/-- Filled slots (03 R53). -/
def Handle.filled (h : Handle) : Nat := (h.prod + 2 * h.slotCount - h.cons) % (2 * h.slotCount)

/-- Free slots (03 R53). -/
def Handle.free (h : Handle) : Nat := h.slotCount - h.filled

/-- Address of slot i (03 R53). -/
def Handle.slotAddr (h : Handle) (i : Nat) : Nat := h.base + i % h.slotCount * h.slotBytes

/-- The handle in a 16-byte record, if its fields are in range, filled does not exceed the slots, and the slots lie in
the scratchpad (03 R53). -/
def handleOf (scratchEnd n : Nat) : Option Handle :=
  let h : Handle :=
    { base := bitsOf n 0 32, slotBytes := bitsOf n 32 32, slotCount := bitsOf n 64 32, prod := bitsOf n 96 16, cons := bitsOf n 112 16 }
  if h.base % 512 == 0 && h.slotBytes != 0 && h.slotBytes % 512 == 0 && h.slotCount != 0 && decide (h.slotCount ≤ 1024)
      && decide (h.prod < 2 * h.slotCount) && decide (h.cons < 2 * h.slotCount) && decide (h.filled ≤ h.slotCount)
      && decide (h.base + h.slotBytes * h.slotCount ≤ scratchEnd)
  then some h else none

end Sys2Proof.Machine
end

