-- ==== Sys2Proof/Machine/Translate.lean ====
section
/-! DEFINITION. Access to the state's parts; virtual to intermediate addresses through the windows (05 R92-R94,
21 R372); intermediate to physical through the module's page table (21 R374-R376); the checks of scope and
partition (21 R375); reads and writes at the home, with the recall of stash granules (05 R90). -/

namespace Sys2Proof.Machine

/-- A core of the module. -/
def State.core (s : State) (c : CoreId) : Core := s.cores[c.val]

/-- The module with one core replaced. -/
def State.setCore (s : State) (c : CoreId) (x : Core) : State := { s with cores := s.cores.set c.val x }

/-- The module with one core changed. -/
def State.modCore (s : State) (c : CoreId) (f : Core → Core) : State := s.setCore c (f (s.core c))

/-- The issuing core. -/
def State.me (s : State) : Core := s.core s.cur

/-- The issuing core changed. -/
def State.modMe (s : State) (f : Core → Core) : State := s.modCore s.cur f

/-- A cluster of the module. -/
def State.cluster (s : State) (c : ClusterId) : Cluster := s.clusters[c.val]

/-- One cluster changed. -/
def State.modCluster (s : State) (c : ClusterId) (f : Cluster → Cluster) : State :=
  { s with clusters := s.clusters.set c.val (f (s.cluster c)) }

/-- A bank engine. -/
def State.engine (s : State) (e : EngineId) : Engine := s.engines[e.val]

/-- One bank engine changed. -/
def State.modEngine (s : State) (e : EngineId) (f : Engine → Engine) : State :=
  { s with engines := s.engines.set e.val (f (s.engine e)) }

/-- Compute die of a core (01 R14). -/
def coreDie (c : CoreId) : Nat := c.val / 32

/-- Die column of a core (01 R14). -/
def coreCol (c : CoreId) : Nat := c.val % 8

/-- Die row of a core (01 R14). -/
def coreRow (c : CoreId) : Nat := c.val / 8 % 4

/-- The core at a die, a row and a column (01 R14, 19 R350). -/
def coreAt (die row col : Nat) : CoreId := Fin.ofNat 256 (die * 32 + row % 4 * 8 + col % 8)

/-- The cluster of a core: (x div 2, y div 2) on its die (01 R14). -/
def clusterOf (c : CoreId) : ClusterId := Fin.ofNat 64 (coreDie c * 8 + coreRow c / 2 * 4 + coreCol c / 2)

/-- The primary plane number of a core: (y mod 2)·2 + (x mod 2) (01 R14, 12 R243). -/
def planeNum (c : CoreId) : Nat := coreRow c % 2 * 2 + coreCol c % 2

/-- The cores of a cluster in the order of their plane numbers. -/
def clusterCores (cl : ClusterId) : List CoreId :=
  let die := cl.val / 8
  let row := cl.val % 8 / 4 * 2
  let col := cl.val % 4 * 2
  [coreAt die row col, coreAt die row (col + 1), coreAt die (row + 1) col, coreAt die (row + 1) (col + 1)]

/-- All cores. -/
def allCores : List CoreId := List.finRange 256

/-- The cores with a property. -/
def State.coresWhere (s : State) (p : Core → Bool) : List CoreId :=
  ((allCores.zip s.cores.toList).filter fun x => p x.2).map (·.1)

/-! ### Windows -/

/-- Violation classes (05 R102). -/
def clsLocal : Nat := 1
/-- STASH_UNMAPPED (05 R102). -/
def clsUnmapped : Nat := 2
/-- STASH_BANK (05 R102). -/
def clsStashBank : Nat := 3
/-- WINDOW (05 R102). -/
def clsWindow : Nat := 4
/-- PERM (05 R102). -/
def clsPerm : Nat := 5
/-- NOT_RESIDENT (05 R102). -/
def clsNotResident : Nat := 6
/-- SCOPE (05 R102). -/
def clsScope : Nat := 7
/-- ALIGN (05 R102). -/
def clsAlign : Nat := 8
/-- NO_MODULE (05 R102). -/
def clsNoModule : Nat := 9
/-- HIBERNATING (05 R102). -/
def clsHibernating : Nat := 10
/-- PEER_REFUSED (05 R102). -/
def clsPeerRefused : Nat := 11
/-- MEDIA (05 R102). -/
def clsMedia : Nat := 12

/-- The window matches the address: valid, nonzero length, below WIN_VA + WIN_LEN and below 2^48 (21 R372). -/
def Window.covers (w : Window) (va : Nat) : Bool :=
  w.ctl.getLsbD 0 && decide (w.va.toNat ≤ va) && decide (va < min (w.va.toNat + w.len.toNat) (2 ^ 48))

/-- The intermediate address: the module field of WIN_IA, the module-local sum modulo 2^48 (21 R372). -/
def Window.map (w : Window) (va : Nat) : Nat :=
  w.ia.toNat / 2 ^ 48 * 2 ^ 48 + (w.ia.toNat % 2 ^ 48 + (va - w.va.toNat)) % 2 ^ 48

/-- What an access needs of its window (05 R92). -/
structure Need where
  r : Bool := false
  w : Bool := false
  x : Bool := false
deriving DecidableEq, Repr

/-- The lowest-numbered window that contains an address, if the address is one of 48 bits (05 R92). -/
def findWindow (wins : Vector Window 8) (va : Nat) : Option Window :=
  if 2 ^ 48 ≤ va then none else wins.toList.find? (·.covers va)

/-- The window grants what the access needs (05 R92). -/
def Window.grants (w : Window) (n : Need) : Bool :=
  (!n.r || w.ctl.getLsbD 1) && (!n.w || w.ctl.getLsbD 2) && (!n.x || w.ctl.getLsbD 3)

/-- VA to IA, or the violation class (05 R92). -/
def translate (wins : Vector Window 8) (n : Need) (va : Nat) : Except Nat Nat :=
  match findWindow wins va with
  | none => .error clsWindow
  | some w => if w.grants n then .ok (w.map va) else .error clsPerm

/-- The module field of an IA (05 R93). -/
def iaModule (ia : Nat) : Nat := ia / 2 ^ 48 % 256

/-- The module-local part of an IA (05 R93). -/
def iaLocal (ia : Nat) : Nat := ia % 2 ^ 48

/-- The IA stays on this module (05 R93). -/
def State.onModule (s : State) (ia : Nat) : Bool := iaModule ia == s.modid.toNat

/-- The trained-module bit of a module number (24 R412). -/
def State.isTrained (s : State) (m : Nat) : Bool := s.trained.getLsbD m

/-- The module at a signed offset: rows and columns modulo the installed extents (01 R23). -/
def State.peerModule (s : State) (drow dcol : BitVec 4) : Nat :=
  let row := (((s.modid.toNat / 16 : Nat) : Int) + drow.toInt) % (s.fabRows : Int)
  let col := (((s.modid.toNat % 16 : Nat) : Int) + dcol.toInt) % (s.fabCols : Int)
  row.toNat * 16 + col.toNat

/-- A space-7 VA: translated as a global one, then sent to the peer that the offsets name (05 R94). -/
def State.translatePeer (s : State) (wins : Vector Window 8) (n : Need) (drow dcol : BitVec 4) (va : Nat) :
    Except Nat Nat :=
  (translate wins n va).map fun ia => s.peerModule drow dcol * 2 ^ 48 + iaLocal ia

/-! ### The page table -/

/-- A resident page as its entry gives it (21 R374). -/
structure Page where
  /-- Where its bytes stand in the 512 GiB of HBM (log 2). -/
  key : Nat
  size : Nat
  scope : Nat
  bank : Bool
  channel : Nat
  migratable : Bool
  transit : Bool
  part : Nat
  die : Nat
  owner : Nat
  raw : Nat
deriving DecidableEq, Repr

/-- The place of a byte of a BANK page: the 512 GiB of HBM are 512 pseudo-channels of 1 GiB, here one after another (01 R16; 21 R374;
log 2). -/
def bankKey (channel off : Nat) : Nat := channel * 2 ^ 30 + off

/-- The page a page entry gives, or none where it is not resident: a reserved type, scope or bit, an excluded
channel (21 R374, 25 R413). -/
def pageOfEntry (e : Nat) (big : Bool) : Option Page :=
  let top := if big then 50 else 55
  let bank := bitsOf e 4 1 == 1
  let ch := bitsOf e 32 9
  let size := if big then 2 ^ 21 else 2 ^ 16
  if bitsOf e 0 2 != 1 || bitsOf e 2 2 == 3 || bitsOf e 7 1 != 0 || bitsOf e 14 2 != 0 || bitsOf e top (64 - top) != 0
  then none
  else if bank && Config.excluded (Fin.ofNat 512 ch) then none
  else some
    { key := if bank then bankKey ch (bitsOf e 41 (top - 41) * size) else bitsOf e 32 (top - 32) * size
      size := size
      scope := bitsOf e 2 2
      bank := bank
      channel := ch
      migratable := bitsOf e 5 1 == 1
      transit := bitsOf e 6 1 == 1
      part := bitsOf e 8 3
      die := bitsOf e 11 3
      owner := bitsOf e 16 16
      raw := e }

/-- Where the level-1 entry of a module-local address stands (21 R374). -/
def State.level1At (s : State) (ia : Nat) : Nat := (s.trans.ptBase.toNat + 8 * (ia / 2 ^ 21 % 2 ^ 26)) % 2 ^ 39

/-- Where the level-2 entry of a module-local address stands, given the level-1 entry (21 R374). -/
def State.level2At (s : State) (ia e1 : Nat) : Nat :=
  (s.trans.ptBase.toNat + 2 ^ 29 + 256 * bitsOf e1 32 21 + 8 * bitsOf ia 16 5) % 2 ^ 39

/-- A level-1 entry names a subtable (21 R374). -/
def namesSubtable (e1 : Nat) : Bool := bitsOf e1 0 2 == 2 && bitsOf e1 53 11 == 0

/-- The table serves a module-local address: translation is on and bit 47 is clear (21 R374, R378). -/
def State.tableServes (s : State) (ia : Nat) : Bool := s.trans.ptCtl && bitsOf ia 47 1 == 0

/-- Where the entry in force for a module-local address stands, its value and whether it is a 2 MiB page's; none
where the walk ends at no page entry (21 R374). -/
def State.walk (s : State) (ia : Nat) : Option (Nat × Nat × Bool) :=
  if !s.tableServes ia then none
  else
    let at1 := s.level1At ia
    let e1 := s.hbm.nat at1 8
    if bitsOf e1 0 2 == 1 then some (at1, e1, true)
    else if namesSubtable e1 then some (s.level2At ia e1, s.hbm.nat (s.level2At ia e1) 8, false)
    else none

/-- The entry at a place is that of the page in migration (21 R379). -/
def Trans.migrates (t : Trans) (place : Nat) : Bool := t.migState != .idle && place == t.migPlace

/-- The page the table gives now. In SWITCH a migrating page's bytes stand in its new frame (21 R379). -/
def State.freshPage (s : State) (ia : Nat) : Option Page :=
  (s.walk ia).bind fun (place, e, big) =>
    if s.trans.migState == .switch && s.trans.migrates place then pageOfEntry (withBits s.trans.migTo.toNat 6 1 1) big
    else pageOfEntry e big

/-- The page of a module-local address is in migration (21 R379). -/
def State.migrating (s : State) (ia : Nat) : Bool := ((s.walk ia).map fun (place, _) => s.trans.migrates place).getD false

/-- The key under which translation units cache the level-1 entry of a 2 MiB range (21 R376). -/
def key1 (ia : Nat) : Nat := ia / 2 ^ 21 * 2
/-- The key under which translation units cache the level-2 entry of a 64 KiB piece (21 R376). -/
def key2 (ia : Nat) : Nat := ia / 2 ^ 16 * 2 + 1

/-- A table entry as an access reads it: the table's, or a cached one where a free choice takes that (21 R376, log 5). -/
def State.entryRead (s : State) (key choice now : Nat) : Nat :=
  match lookupKey key s.trans.tlb with
  | some e => if Config.freeBool choice then e.toNat else now
  | none => now

/-- The page that a walk gives which may take either level from a cache (21 R376). -/
def State.cachedPage (s : State) (ia : Nat) : Option Page :=
  let c := 2 * (s.choices * 2 ^ 48 + ia / 2 ^ 16)
  let e1 := s.entryRead (key1 ia) c (s.hbm.nat (s.level1At ia) 8)
  if bitsOf e1 0 2 == 1 then pageOfEntry e1 true
  else if namesSubtable e1 then pageOfEntry (s.entryRead (key2 ia) (c + 1) (s.hbm.nat (s.level2At ia e1) 8)) false
  else none

/-- The page an access uses. Until an XINV covers it, a cached entry and the new one are both allowed (21 R376, log 5); a page in
migration is the table's (21 R379). -/
def State.page (s : State) (ia : Nat) : Option Page :=
  if s.trans.tlb.isEmpty || !s.tableServes ia || s.migrating ia then s.freshPage ia
  else s.cachedPage ia

/-- An entry that a translation unit now holds, if it holds none for its range. -/
def addCached (key : Nat) (e : Nat) (l : List (Nat × BitVec 64)) : List (Nat × BitVec 64) :=
  if (lookupKey key l).isNone then (key, BitVec.ofNat 64 e) :: l else l

/-- The state after an access has walked the table: translation units hold the entries of both levels (21 R376). -/
def State.cachePage (s : State) (ia : Nat) : State :=
  if !s.tableServes ia then s
  else
    let e1 := s.hbm.nat (s.level1At ia) 8
    let l := addCached (key1 ia) e1 s.trans.tlb
    let l := if namesSubtable e1 then addCached (key2 ia) (s.hbm.nat (s.level2At ia e1) 8) l else l
    { s with trans := { s.trans with tlb := l } }

/-- Partition of a compute die: the enabled partition that owns it (25 R419). -/
def State.partOfDie (s : State) (die : Nat) : Option Nat :=
  (List.range 8).find? fun p => ((s.parts[p]?).map fun q => q.ctl.getLsbD 0 && q.ctl.getLsbD (8 + die)).getD false

/-- Residence, scope and partition of an access at its home, checked in the order in which 21 R375 lists them (05 R97; log 81). -/
def State.checkPage (s : State) (who : Requester) (p : Option Page) : Except Nat Page :=
  match p with
  | none => .error clsNotResident
  | some p =>
    match who with
    | .core c =>
      if p.scope == 0 && p.die != coreDie c then .error clsScope
      else if s.partOfDie (coreDie c) != some p.part then .error clsNotResident
      else .ok p
    | .engine part _ _ =>
      if p.scope == 0 then .error clsScope else if part != p.part then .error clsNotResident else .ok p
    | .module => if p.scope == 0 then .error clsScope else .ok p
    | .peer => if p.scope == 2 then .ok p else .error clsScope

/-- A page in HOLD or SWITCH performs no access (21 R379). -/
def State.isHeld (s : State) (ia : Nat) : Bool :=
  match s.trans.migState with
  | .idle | .forward => false
  | .hold | .switch => s.migrating ia

/-- The entry of the page in migration as it stands in HBM now (21 R379). -/
def State.migEntry (s : State) : Nat := s.hbm.nat s.trans.migPlace 8

/-- A power-fail warning abandons a migration in HOLD: transit is cleared, and the result is 4 (21 R380). -/
def State.abandonMigration (s : State) : State :=
  match s.trans.migState with
  | .hold =>
    { s with
      hbm := s.hbm.putNat s.trans.migPlace 8 s.trans.migOld.toNat
      trans := { s.trans with migState := .idle, migResult := 4 } }
  | _ => s

/-! ### Stash granules at the home -/

/-- The entry of a core's stash map that covers a local address (05 R88). -/
def Core.stashEntry (c : Core) (a : Nat) : Option StashEntry :=
  (c.loc.map.toList.filterMap id).find? fun e => decide (e.lbase ≤ a) && decide (a < e.lbase + e.len)

/-- The intermediate address a granule maps to. -/
def Core.granuleIa (c : Core) (g : Granule) : Option Nat := (c.stashEntry g.base).map fun e => e.ia + (g.base - e.lbase)

/-- The dirty bytes of a granule within [lo, lo + n) of it, as cells counted from its start. -/
def Core.dirtyCells (c : Core) (g : Granule) (lo n : Nat) : List (Nat × Byte) :=
  ((List.range n).filter fun i => g.dirty.getLsbD (lo + i)).map fun i => (lo + i, c.loc.lmem.get (g.base + lo + i))

/-- The page on this module that an access to an intermediate address uses; none where its home is a peer, or where it is not resident
(05 R93; 21 R376). -/
def State.homePage (s : State) (ia : Nat) : Option Page := if s.onModule ia then s.page (iaLocal ia) else none

/-- A byte reaches its page. -/
def State.pokeAt (s : State) (p : Page) (ia : Nat) (b : Byte) : State :=
  let at_ := p.key + iaLocal ia % p.size
  { s with hbm := s.hbm.set at_ b, l2 := s.l2.map fun l => if l.line == at_ / 128 && !p.bank then { l with dirty := true } else l }

/-- Cells that stand relative to an intermediate address reach their page; without a page on this module they leave it (05 R93). -/
def State.pokeCells (s : State) (p : Option Page) (ia : Nat) (l : List (Nat × Byte)) : State :=
  match p with
  | some p => l.foldl (fun s (o, b) => s.pokeAt p (ia + o) b) s
  | none => s

/-- Clears the dirty bits of bytes [lo, lo + n) of the granule at a local address. -/
def Core.cleanGranule (c : Core) (base lo n : Nat) : Core :=
  { c with loc := { c.loc with granules := c.loc.granules.map fun g =>
      if g.base == base then
        { g with dirty := BitVec.ofNat 4096 (withBits g.dirty.toNat lo n 0) }
      else g } }

/-- Discards the granule at a local address. -/
def Core.dropGranule (c : Core) (base : Nat) : Core :=
  { c with loc := { c.loc with granules := c.loc.granules.filter fun g => g.base != base } }

/-- The 128-byte line of a granule that holds an intermediate address: recalled from one core's granule to the page that the access
uses, which a write then invalidates (05 R90). -/
def State.recallFrom (s : State) (p : Option Page) (ia : Nat) (write : Bool) (c : CoreId) : State :=
  ((s.core c).loc.granules).foldl (fun s g =>
    match (s.core c).granuleIa g with
    | some gia =>
      if gia / 4096 == ia / 4096 then
        let lo := ia % 4096 / 128 * 128
        let s := s.pokeCells p gia ((s.core c).dirtyCells g lo 128)
        if write then
          -- the invalidated granule's other dirty bytes reach their home with it
          let s := s.pokeCells p gia (((s.core c).dirtyCells g 0 4096).filter fun (o, _) => o / 128 != lo / 128)
          s.modCore c (·.dropGranule g.base)
        else s.modCore c (·.cleanGranule g.base lo 128)
      else s
    | none => s) s

/-- Recall of the line at an intermediate address from every core but one: the core whose own stash store or write-back it is
(05 R90). -/
def State.recall (s : State) (p : Option Page) (ia : Nat) (write : Bool) (skip : Option CoreId := none) : State :=
  ((s.coresWhere fun x => !x.loc.granules.isEmpty).filter fun c => some c != skip).foldl (fun s c => s.recallFrom p ia write c) s

/-- A STFLUSH's captured bytes of a range have been overtaken by a later write: they are not written again (05 R90, 10 R220). -/
def Cmd.overtake (k : Cmd) (ia n : Nat) : Cmd :=
  match k.kind with
  | .stflush l => { k with kind := .stflush (l.filter fun p => decide (p.1 < ia) || decide (ia + n ≤ p.1)) }
  | _ => k

/-- A STFLUSH stands in a copy queue of the core. -/
def Core.flushes (c : Core) : Bool :=
  (c.q.ca ++ c.q.cb).any fun k => match k.kind with | .stflush _ => true | _ => false

/-- A later write overtakes what a core's STFLUSHes captured. -/
def Core.overtake (c : Core) (ia n : Nat) : Core :=
  { c with q := { c.q with ca := c.q.ca.map (·.overtake ia n), cb := c.q.cb.map (·.overtake ia n) } }

/-- A write to global bytes overtakes what STFLUSHes captured before, those of saved tasks included; a core's own queued command
leaves its own captures to the order of its queues (05 R90; 06 R107; 10 R220). -/
def State.overtake (s : State) (skip : Option CoreId) (ia n : Nat) : State :=
  let s := ((s.coresWhere Core.flushes).filter fun c => some c != skip).foldl (fun s c => s.modCore c (·.overtake ia n)) s
  if s.tasks.any fun t => t.saved.any fun k => k.core.flushes then
    { s with tasks := s.tasks.map fun t => { t with saved := t.saved.map fun k => { k with core := k.core.overtake ia n } } }
  else s

/-- The n bytes that a read at the home returns, with the state after the recall (05 R90, 06 R104). The bytes lie
within one line and one page. -/
def State.homeRead (s : State) (p : Page) (ia n : Nat) : State × List Byte :=
  let s := s.recall (some p) ia false
  (s, s.hbm.bytes (p.key + iaLocal ia % p.size) n)

/-- What a read of n bytes at their home returns now, line by line. -/
def State.homeBytes (s : State) (p : Page) (ia n : Nat) : List Byte :=
  (cutAt 128 ia n).flatMap fun (o, k) => (s.homeRead p (ia + o) k).2

/-- Bytes that a peer module returns where the step carries no answer of its own: free (log 6). -/
def State.freeBytes (s : State) (n : Nat) : List Byte :=
  (List.range n).map fun i => (Config.freeWord (s.choices * 2 ^ 20 + i)).setWidth 8

/-- What a module answers to the k-th request of a step that carries no answer of its own: NO_MODULE where none is trained, else
a free choice of none, HIBERNATING and PEER_REFUSED (05 R101, R102; 21 R375; log 53). -/
def State.peerVerdict (s : State) (ia k : Nat) : Option Nat :=
  if !s.isTrained (iaModule ia) then some clsNoModule
  else match Config.freeNat (s.choices * 2 ^ 20 + k) % 3 with
    | 0 => none
    | 1 => some clsHibernating
    | _ => some clsPeerRefused

/-- Why a core's access at an intermediate address would fail at its home, if it would (05 R97, R101; 21 R375). -/
def State.homeFail (s : State) (who : Requester) (ia : Nat) : Option Nat :=
  if !s.onModule ia then s.peerVerdict ia ia
  else match s.checkPage who (s.page (iaLocal ia)) with
    | .ok _ => none
    | .error cls => some cls

/-- Translation units hold what an access has walked that failed its check at the memory side, where it names the intermediate address
(21 R375, R376). -/
def State.missed (s : State) (cls addr : Nat) : State :=
  if (cls == clsNotResident || cls == clsScope) && s.onModule addr then s.cachePage (iaLocal addr) else s

/-- The core whose queue a requester is. -/
def Requester.core? : Requester → Option CoreId
  | .core c => some c
  | _ => none

/-- A write at the home: recall, write, invalidate (05 R90). -/
def State.homeWrite (s : State) (who : Requester) (p : Page) (ia : Nat) (bs : List Byte) : State :=
  let s := (s.recall (some p) ia true).overtake who.core? ia bs.length
  { s with hbm := s.hbm.put (p.key + iaLocal ia % p.size) bs }

/-- A core's write-back of captured bytes at their home: its own granule stays, others are invalidated (05 R90, 10 R220). -/
def State.homeFlush (s : State) (who : Requester) (p : Page) (ia : Nat) (cells : List (Nat × Byte)) : State :=
  let s := s.recall (some p) ia true who.core?
  { s with hbm := cells.foldl (fun m (a, b) => m.set (p.key + iaLocal a % p.size) b) s.hbm }

/-- The module's own read of n bytes from an intermediate address on this module, through the table; none where some byte is not resident.
No page is smaller than 64 KiB (05 R95). -/
def State.readIa (s : State) (ia n : Nat) : Option (List Byte) :=
  (cutAt 65536 ia n).foldr (fun (o, k) acc =>
    match acc, s.freshPage (iaLocal (ia + o)) with
    | some bs, some p => some (s.hbm.bytes (p.key + iaLocal (ia + o) % p.size) k ++ bs)
    | _, _ => none) (some [])

/-- The granules of the lines that n bytes touch are recalled for the module's own access, which takes the table as it is. -/
def State.recallIa (s : State) (ia n : Nat) (write : Bool) : State :=
  (List.range (n / 128 + 2)).foldl (fun s i =>
    if i * 128 < n + 128 then s.recall (s.freshPage (iaLocal (ia + i * 128))) (ia + i * 128) write else s) s

/-- The module itself may access n bytes from an intermediate address on this module: resident, on pages whose scope admits it (05 R97; 21
R375). -/
def State.admits (s : State) (ia n : Nat) : Bool :=
  s.onModule ia && (cutAt 65536 ia n).all fun (o, _) => (s.checkPage .module (s.freshPage (iaLocal (ia + o)))).isOk

/-- The module's own read after recalling dirty stash bytes of the lines it touches. -/
def State.fetchIa (s : State) (ia n : Nat) : State × Option (List Byte) :=
  if s.admits ia n then
    let s := s.recallIa ia n false
    (s, s.readIa ia n)
  else (s, none)

/-- The module's own write of bytes at an intermediate address on this module; none where its check fails. -/
def State.writeIa (s : State) (ia : Nat) (bs : List Byte) : Option State :=
  if s.admits ia bs.length then
    let s := (s.recallIa ia bs.length true).overtake none ia bs.length
    some (((List.range bs.length).zip bs).foldl (fun s (o, b) =>
      s.pokeCells (s.freshPage (iaLocal (ia + o))) (ia + o) [(0, b)]) s)
  else none

end Sys2Proof.Machine
end

