-- ==== Sys2Proof/Machine/Regions.lean ====
section
/-! DEFINITION. Regions, tasks and their accounting as every part of the module sees them: finding them, charging them
(20 R356, R357, R368), and the error log (19 R355). -/

namespace Sys2Proof.Machine

/-- Ticks in a microsecond: a nanosecond is 420 ticks, a reference cycle of 0.25 ns is 105 (log 4). -/
def usTicks : Nat := 420000

/-- A started region. -/
def State.region (s : State) (id : Nat) : Option Region := s.regions.find? fun r => r.id == id

/-- A started region changed. -/
def State.modRegion (s : State) (id : Nat) (f : Region → Region) : State :=
  { s with regions := s.regions.map fun r => if r.id == id then f r else r }

/-- A task that has not ended, by its descriptor's VA (02 R31). -/
def State.task (s : State) (va : Word) : Option Task := s.tasks.find? fun t => t.va == va

/-- A task changed. -/
def State.modTask (s : State) (va : Word) (f : Task → Task) : State :=
  { s with tasks := s.tasks.map fun t => if t.va == va then f t else t }

/-- The task a core hosts. -/
def State.taskOf (s : State) (c : CoreId) : Option Task := s.tasks.find? fun t => t.cores.contains c

/-- The region of the task a core hosts. -/
def State.regionOf (s : State) (c : CoreId) : Option Region :=
  ((s.core c).ctl.region.toNat |> fun id => s.region id)

/-- The started regions from one up to its partition's root (02 R38), with fuel for the depth of the tree. -/
def State.ancestors (s : State) : Nat → Nat → List Region
  | 0, _ => []
  | fuel + 1, id =>
    match s.region id with
    | none => []
    | some r => r :: (if r.parent == r.id then [] else State.ancestors s fuel r.parent)

/-- A region and every region above it. -/
def State.upTree (s : State) (id : Nat) : List Region := s.ancestors (s.regions.length + 1) id

/-- The root of a region's partition. -/
def State.rootOf (s : State) (id : Nat) : Option Region := (s.upTree id).getLast?

/-- Region a is b or lies below it. -/
def State.within (s : State) (a b : Nat) : Bool := (s.upTree a).any fun r => r.id == b

/-- The partition whose root is this region's root. -/
def State.partOfRegion (s : State) (id : Nat) : Nat :=
  match s.rootOf id with
  | some r => ((List.range 8).find? fun p =>
      ((s.parts[p]?).map fun q => q.ctl.getLsbD 0 && bitsOf q.ctl.toNat 16 16 == r.id).getD false).getD 0
  | none => 0

/-- An amount charged to a region's counter at an offset of its block. -/
def addCharge (region off amount : Nat) (l : List (Nat × Nat)) : List (Nat × Nat) :=
  let key := region * 512 + off
  putKey key ((lookupKey key l).getD 0 + amount) l

/-- Adds to a region's accounting counter at an offset of its block, whether the region has started or not (02 R29; 20 R368); the sum
reaches memory at the next ACCOUNTING_CHARGE. -/
def State.charge (s : State) (region off amount : Nat) : State := { s with charges := addCharge region off amount s.charges }

/-! ### The error log -/

/-- The bytes of an error-log entry (19 R355). -/
def elogEntry (addr : Nat) (taskid cyc : Word) (kind code core seq : Nat) : List Byte :=
  bytesOfNat 8 addr ++ bytesOfNat 8 taskid.toNat ++ bytesOfNat 8 cyc.toNat ++ bytesOfNat 1 kind ++ bytesOfNat 1 code
    ++ bytesOfNat 2 core ++ bytesOfNat 4 seq

/-- One entry to the error log: at ELOG_BASE + 32·(n mod ELOG_SIZE), or counted as lost where the ring is full
(19 R355). A ring that is not resident takes no entry (log 9). -/
def State.logEntry (s : State) (addr : Nat) (taskid cyc : Word) (kind code core : Nat) : State :=
  let e := s.elog
  let size := e.size.toNat
  if size == 0 then s
  else if (e.head - e.tail).toNat == size then
    { s with elog := { e with lost := BitVec.ofNat 32 (satAdd 0xFFFFFFFF e.lost.toNat 1) } }
  else
    let at_ := e.base.toNat + 32 * (e.head.toNat % size)
    match s.writeIa at_ (elogEntry addr taskid cyc kind code core e.head.toNat) with
    | none => s
    | some s =>
      { s with
        elog := { e with head := e.head + 1 }
        supEvents := s.supEvents ++ (if e.head == e.tail then [.error] else []) }

/-- An entry about a core and its task. -/
def State.logCore (s : State) (c : CoreId) (addr kind code : Nat) : State :=
  s.logEntry addr (s.core c).ctl.taskid (s.core c).cyc kind code c.val

/-- An entry of the dispatcher or the sequencer (19 R355). -/
def State.logModule (s : State) (addr : Nat) (taskid : Word) (kind code : Nat) : State :=
  s.logEntry addr taskid 0 kind code 0xFFFF

/-! ### Regions as the table has them -/

/-- A field of a region's block, by the region table (20 R356). -/
def State.rcb (s : State) (id off n : Nat) : Option Nat :=
  (s.fetchIa (s.rtabBase.toNat + 256 * id + off) n).2.map natOfBytes

/-- Region id is `top` or lies below it by the parent fields of the table (02 R29), with fuel. -/
def State.tableWithin (s : State) : Nat → Nat → Nat → Bool
  | 0, _, _ => false
  | fuel + 1, id, top =>
    if id == top then true
    else match s.rcb id 2 2 with
      | none => false
      | some parent => if parent == id then false else State.tableWithin s fuel parent top

/-- The nearest started region from one upward by the table (02 R29), with fuel. -/
def State.nearestStarted (s : State) : Nat → Nat → Option Nat
  | 0, _ => none
  | fuel + 1, id =>
    match s.region id with
    | some _ => some id
    | none =>
      match s.rcb id 2 2 with
      | none => none
      | some parent => if parent == id then none else State.nearestStarted s fuel parent

/-- A region carved its own share of the field of this mask bit: it overrides the field, or it is a root (20 R357). -/
def Region.carved (r : Region) (bit : Nat) : Bool := bitsOf r.override bit 1 == 1 || r.parent == r.id

/-- The started region whose uncarved remainder a started region shares: the nearest from it upward that carved its own
(20 R357). Mask bit 11 is quota, 10 floor. -/
def State.holder (s : State) (bit id : Nat) : Option Region := (s.upTree id).find? fun r => r.carved bit

/-- The value of the carved field of a mask bit: 11 quota, 10 floor. -/
def Region.share (r : Region) (bit : Nat) : Nat := if bit = 11 then r.quota else r.floor

/-- The started region whose share a region has carved its own out of (20 R357). -/
def State.carvedFrom (s : State) (bit : Nat) (r : Region) : Option Region :=
  if r.carved bit && r.parent != r.id then s.holder bit r.parent else none

/-- The uncarved remainder of a region's share: what the started regions have carved out of it is taken off (20 R357). -/
def State.uncarved (s : State) (bit : Nat) (h : Region) : Nat :=
  h.share bit - (s.regions.filter fun r => ((s.carvedFrom bit r).map (·.id)) == some h.id).foldl (fun n r => n + r.share bit) 0

/-- The region whose uncarved remainder of quota a region's pending entries are charged to, by its nearest started
ancestor (02 R29, 20 R357). -/
def State.quotaHolder (s : State) (id : Nat) : Option Region := (s.nearestStarted 65536 id).bind (s.holder 11)

/-! ### Accounting -/

/-- Strand time not charged yet is added, in strand-ticks, for the strands that the regions' leases hold (20 R368). -/
def State.accrue (s : State) : State :=
  let dt := s.now - s.accruedAt
  let s := s.leases.foldl (fun (s : State) l =>
    let held := (s.alloc.toList.filter fun a => match a.use with | .lease id _ => id == l.id | _ => false).length
    if held * dt = 0 then s else s.charge l.region 0x1A8 (held * dt)) s
  { s with accruedAt := s.now }

/-- The sc that a task's cores have run since they were last charged (20 R368). -/
def State.chargeTask (s : State) (t : Task) : State :=
  t.cores.foldl (fun s c =>
    let x := s.core c
    (s.charge t.region 0x80 (x.cyc - x.charged).toNat).modCore c fun x => { x with charged := x.cyc }) s

/-- The energy that the power manager has metered for a region, which the spec does not fix (20 R368, log 6). -/
def State.chargeEnergy (s : State) (id : Nat) : State :=
  if (s.region id).isNone then s else { s.charge id 0xF0 (Config.freeNat s.choices) with choices := s.choices + 1 }

/-- One charge of a region's counter reaches its block; a block that is not resident takes nothing yet. -/
def State.flushCharge (s : State) (key amount : Nat) : State :=
  let id := key / 512
  let off := key % 512
  if amount = 0 ∨ 0x100 ≤ off then s
  else match s.rcb id off 8 with
    | none => s
    | some old =>
      match s.writeIa (s.rtabBase.toNat + 256 * id + off) (bytesOfNat 8 (old + amount)) with
      | none => s
      | some s => { s with charges := dropKey key s.charges }

/-- A region's charges reach the counters of its block; a fraction of a strand-µs is carried (20 R368). -/
def State.flushCharges (s : State) (id : Nat) : State :=
  let s := (s.tasks.filter fun t => t.region == id).foldl State.chargeTask s
  let s := s.accrue.chargeEnergy id
  let ticks := (lookupKey (id * 512 + 0x1A8) s.charges).getD 0
  let s := { s with charges := putKey (id * 512 + 0x1A8) (ticks % usTicks) (addCharge id 0xA8 (ticks / usTicks) s.charges) }
  (s.charges.filter fun p => p.1 / 512 == id).foldl (fun s p => s.flushCharge p.1 p.2) s

end Sys2Proof.Machine
end

