-- ==== Sys2Proof/Machine/L2.lean ====
section
/-! DEFINITION. L2 (01 R16): which lines its ways hold, the retention hints that govern their allocation (05 R99), and what a fill, a
hit and an eviction charge (20 R369). The bytes of a line stand in hbm: L2 never changes a value (05 R99, log 56). -/

namespace Sys2Proof.Machine

/-- Sets of a base die: 96 MiB in lines of 128 bytes and 16 ways (01 R16, 22 R390). -/
def l2Sets : Nat := 49152

/-- The set that a line of HBM falls into; the spec does not say which (log 56). -/
def l2Set (line : Nat) : Nat := Config.l2Set line % l2Sets

/-- The base die whose L2 is the home of a line: that of a BANK page's channel; the hash of a SPREAD page is not architected (05 R98,
log 6). -/
def Page.homeDie (p : Page) (line : Nat) : Nat := if p.bank then p.channel / 128 else (Config.homeDie line).val

/-- The line of HBM that holds a byte of a page. -/
def Page.line (p : Page) (ia : Nat) : Nat := (p.key + iaLocal ia % p.size) / 128

/-- Whom an access through L2 is charged to: its region and its task; nobody for the supervisor complex and peers (20 R369). -/
def State.payer (s : State) (who : Requester) : Option (Nat × Word) :=
  match who with
  | .core c => some ((s.core c).ctl.region.toNat, (s.core c).ctl.taskid)
  | .engine _ region task => some (region, task)
  | .module | .peer => none

/-- One more line may be sticky for a region: neither it nor a region above it exceeds its sticky quota (02 R38; 05 R99). -/
def State.stickyRoom (s : State) (owner : Nat) : Bool :=
  (s.region owner).isSome && (s.upTree owner).all fun r =>
    decide ((s.l2.filter fun l => l.hint == 2 && s.within l.owner r.id).length < r.sticky)

/-- The hint under which a line of an owner is allocated: sticky beyond the quota is default (05 R99). -/
def State.hintFor (s : State) (owner hint : Nat) : Nat := if hint = 2 then (if s.stickyRoom owner then 2 else 0) else hint

/-- The ways of a base die that lines may be allocated in (22 R390). -/
def State.openWays (s : State) (die : Nat) : List Nat :=
  let shut := fun (v : Vector (BitVec 16) 4) w => ((v[die]?).map fun b => b.getLsbD w).getD false
  (List.range 16).filter fun w => !shut s.power.l2gated w && !shut s.power.l2waking w

/-- The lines from which a set takes its victim: a streaming one before any default one, never a sticky one (05 R99). -/
def victims (l : List L2Line) : List L2Line :=
  let streaming := l.filter fun x => x.hint == 1
  if streaming.isEmpty then l.filter fun x => x.hint == 0 else streaming

/-- Where a new line goes: the way, and the line that it replaces. Among several the choice is open (log 56); none where every way holds
a sticky line. -/
def State.l2Place (s : State) (die line : Nat) : Option (Nat × Option L2Line) :=
  let inSet := s.l2.filter fun l => l.die == die && l2Set l.line == l2Set line
  let seed := Config.freeNat (s.choices * 2 ^ 40 + line)
  let ways := s.openWays die
  let empty := ways.filter fun w => !inSet.any fun l => l.way == w
  match empty[seed % empty.length]? with
  | some w => some (w, none)
  | none =>
    let old := victims (inSet.filter fun l => ways.contains l.way)
    (old[seed % old.length]?).map fun v => (v.way, some v)

/-- One line of a page is used: L2 and the charges after it. A line that is present is used as it is; one that is not is filled, unless
the hint is bypass. A write leaves the line dirty, but for a BANK page, whose writes go through (05 R96, R99; 20 R369). -/
def State.l2Use (s : State) (who : Requester) (p : Page) (ia hint : Nat) (write : Bool) : List L2Line × List (Nat × Nat) :=
  let line := p.line ia
  let dirty := write && !p.bank
  let pay := s.payer who
  let charged := fun (l : List (Nat × Nat)) off => match pay with
    | some (region, _) => addCharge region off 1 l
    | none => l
  match s.l2.find? fun l => l.line == line with
  | some l =>
    let kept := if hint = 2 && l.hint != 2 then s.hintFor p.owner 2 else l.hint
    (s.l2.map fun x => if x.line == line then { x with owner := p.owner, dirty := x.dirty || dirty, hint := if kept = 2 then 2 else x.hint } else x,
      if l.filler != pay.map (·.2) then charged s.charges 0x98 else s.charges)
  | none =>
    if hint = 3 then (s.l2, s.charges)
    else match s.l2Place (p.homeDie line) line with
      | none => (s.l2, s.charges)
      | some (way, old) =>
        let fresh : L2Line :=
          { line := line, die := p.homeDie line, way := way, owner := p.owner, filler := pay.map (·.2), dirty := dirty, hint := s.hintFor p.owner hint }
        let charges := charged s.charges 0x90
        (s.l2.filter (fun x => match old with | some v => x.line != v.line | none => true) ++ [fresh],
          match old with
          | some v => if v.dirty then addCharge v.owner 0xA0 1 charges else charges
          | none => charges)

/-- The lines of n bytes of a page are used one after another. -/
def State.l2Touch (s : State) (who : Requester) (p : Page) (ia n hint : Nat) (write : Bool) : State :=
  (cutAt 128 ia n).foldl (fun s (o, _) =>
    let r := s.l2Use who p (ia + o) hint write
    { s with l2 := r.1, charges := r.2 }) s

/-- An access reaches its page's home: translation units have walked the table for it, and its lines are used in L2; the choices it
leaves open are made (05 R95, R99; 20 R369; 21 R376). -/
def State.reach (s : State) (who : Requester) (p : Page) (ia n hint : Nat) (write : Bool) : State :=
  { (s.cachePage (iaLocal ia)).l2Touch who p ia n hint write with choices := s.choices + 1 }

/-- Lines of L2 that hold some bytes of HBM are gone (06 R116; 21 R379). -/
def State.l2Drop (s : State) (key n : Nat) : State :=
  { s with l2 := s.l2.filter fun l => decide (l.line * 128 + 128 ≤ key) || decide (key + n ≤ l.line * 128) }

/-- The copies in L2 of bytes that a bank program has written are gone (06 R116). -/
def State.l2Invalidate (s : State) (ia n : Nat) : State :=
  match s.freshPage (iaLocal ia) with
  | some p => s.l2Drop (p.key + iaLocal ia % p.size) n
  | none => s

/-- Lines in gated ways are gone; what was dirty in them has been written back (22 R390). -/
def State.l2Gate (s : State) : State :=
  { s with l2 := s.l2.filter fun l => (s.openWays l.die).contains l.way }

/-- The sticky lines of the regions below one, oldest first, beyond its quota are default lines again (05 R99). -/
def State.l2Release (s : State) (r : Region) : State :=
  let mine := fun (l : L2Line) => l.hint == 2 && s.within l.owner r.id
  let extra := ((s.l2.filter mine).length - r.sticky)
  let gone := ((s.l2.filter mine).take extra).map (·.line)
  { s with l2 := s.l2.map fun l => if gone.contains l.line then { l with hint := 0 } else l }

end Sys2Proof.Machine
end

