-- ==== Sys2Proof/Machine/Strands.lean ====
section
/-! DEFINITION. The strands of the module: which peer each serves, how the lease engine finds, moves and frees them, and
the status and event words it writes (15 R304-R306, R313-R323; 24 R403, R410). -/

namespace Sys2Proof.Machine

/-! ### Peers -/

/-- The module's row and column (01 R23). -/
def State.myRow (s : State) : Nat := s.modid.toNat / 16
/-- The module's column (01 R23). -/
def State.myCol (s : State) : Nat := s.modid.toNat % 16

/-- The router that serves a peer index: 0 row, 1 column (15 R306). -/
def peerRouter (p : Nat) : Nat := p / 15

/-- The module at a peer index (15 R306). -/
def State.peerModuleOf (s : State) (p : Nat) : Nat :=
  if p < 15 then s.myRow * 16 + (s.myCol + 1 + p) % 16 else (s.myRow + 1 + (p - 15)) % 16 * 16 + s.myCol

/-- A trained module stands at the peer index. -/
def State.peerPresent (s : State) (p : Nat) : Bool := decide (p < 30) && s.isTrained (s.peerModuleOf p)

/-- The peer index of a direct offset, whether a module is there or not; none where the offset resolves to the module
itself (15 R306, 01 R23). -/
def State.peerIndexOf (s : State) (drow dcol : BitVec 4) : Option Nat :=
  let m := s.peerModule drow dcol
  if m == s.modid.toNat then none
  else if m / 16 == s.myRow then some ((m % 16 + 16 - s.myCol - 1) % 16)
  else some (15 + (m / 16 + 16 - s.myRow - 1) % 16)

/-- The trained direct peer at an offset (15 R314). -/
def State.peerAt (s : State) (drow dcol : BitVec 4) : Option Nat :=
  (s.peerIndexOf drow dcol).bind fun p => if s.peerPresent p then some p else none

/-! ### Counting -/

/-- The peer that a use serves. -/
def StrandUse.peer : StrandUse → Option Nat
  | .pool => none
  | .floor p | .default p | .lease _ p => some p

/-- The use is of this lease. -/
def StrandUse.ofLease (u : StrandUse) (id : Nat) : Bool :=
  match u with
  | .lease i _ => i == id
  | _ => false

/-- The use a strand is committed to: that of its retune, of the notice it is under, or its own (15 R314). -/
def StrandAlloc.dest (a : StrandAlloc) : StrandUse :=
  match a.moving, a.notice with
  | some (u, _), _ => u
  | none, some (u, _) => u
  | none, none => a.use

/-- The strand stands still: it neither retunes nor is under notice. -/
def StrandAlloc.still (a : StrandAlloc) : Bool := a.moving.isNone && a.notice.isNone

/-- The strands for which something holds. -/
def State.strandsWhere (s : State) (f : StrandAlloc → Bool) : List StrandId :=
  (((List.finRange 512).zip s.alloc.toList).filter fun x => f x.2).map (·.1)

/-- Strands allocated to a peer (15 R313, R320). -/
def State.total (s : State) (p : Nat) : Nat := (s.strandsWhere fun a => a.use.peer == some p).length

/-- Strands that a peer holds as R314 counts them: those committed to it count, those leaving it do not. -/
def State.committed (s : State) (p : Nat) : Nat := (s.strandsWhere fun a => a.dest.peer == some p).length

/-- Strands that a lease holds. -/
def State.held (s : State) (id : Nat) : Nat := (s.strandsWhere fun a => a.use.ofLease id).length

/-- Strands found for a lease that do not carry its traffic yet. -/
def State.found (s : State) (id : Nat) : Nat := (s.strandsWhere fun a => a.dest.ofLease id && !a.use.ofLease id).length

/-- Strands of a request that have not been found. -/
def State.want (s : State) (l : Lease) : Nat := l.n - l.got - s.found l.id

/-- Strands of a request not yet granted (15 R314, R320). -/
def Lease.ungranted (l : Lease) : Nat := l.n - l.got

/-- The strands with an enabled channel, one bit each. -/
def State.lit (s : State) : Nat := s.rings.toList.foldl (fun m x => if x.disable then m else m ||| 2 ^ x.strand.toNat) 0

/-- Every channel of the strand is disabled (24 R410). -/
def State.deadStrand (s : State) (i : StrandId) : Bool := !s.lit.testBit i.val

/-- Free strands of a router's pool; one whose every channel is disabled can serve no peer (24 R410). -/
def State.poolFree (s : State) (router : Nat) : List StrandId :=
  let lit := s.lit
  (s.strandsWhere fun a => a.use == .pool && a.moving.isNone).filter fun i => i.val / 256 == router && lit.testBit i.val

/-- A strand's allocation changed. -/
def State.modAlloc (s : State) (i : StrandId) (f : StrandAlloc → StrandAlloc) : State :=
  { s with alloc := s.alloc.set i.val (f s.alloc[i.val]) }

/-- Several strands' allocations changed. -/
def State.modAllocs (s : State) (l : List StrandId) (f : StrandAlloc → StrandAlloc) : State := l.foldl (fun s i => s.modAlloc i f) s

/-- k strands out of a list; the spec does not say which (log 40). -/
def pickStrands (seed : Nat) : Nat → List StrandId → List StrandId
  | 0, _ => []
  | k + 1, l =>
    match l[Config.freeNat seed % l.length]? with
    | some i => i :: pickStrands (seed + 1) k (l.filter fun j => j != i)
    | none => []

/-- k strands taken out of a list. -/
def State.pick (s : State) (k : Nat) (l : List StrandId) : State × List StrandId :=
  ({ s with choices := s.choices + 1 }, pickStrands (s.choices * 512) k l)

/-! ### Queued flits -/

/-- A channel of a strand carries flits: its ring is enabled and settled, and the strand's mask has it (24 R405, R407, R408). -/
def State.channelActive (s : State) (i : StrandId) (ch : Nat) : Bool :=
  s.strands[i.val].carry.getLsbD ch && (List.finRange 4096).any fun k =>
    let r := s.rings[k.val]
    r.strand.toNat == i.val && r.chan.toNat == ch && !r.disable && r.settle.isNone

/-- The striping width of a strand (15 R305, 24 R405). -/
def State.width (s : State) (i : StrandId) : Nat := ((List.range 8).filter fun ch => s.channelActive i ch).length

/-- Ticks that a flit takes over one channel: it takes 16/w ns over w (15 R305). -/
def flitTicks : Nat := 16 * 420

/-- Flits that have left a strand of width w since its queue was counted (15 R305, 24 R409). -/
def Strand.sent (x : Strand) (w now : Nat) : Nat :=
  if now < x.qdAt then 0 else min x.qd ((now - x.qdAt) * w / flitTicks + b2n x.flying)

/-- The queue counted up to now. A flit on the wire leaves at the width it has set out under (24 R409). -/
def Strand.upTo (x : Strand) (w now : Nat) : Strand :=
  let left := x.qd - x.sent w now
  if left = 0 then { x with qd := 0, qdAt := now, flying := false }
  else if now < x.qdAt then x
  else
    let gone := (now - x.qdAt) * w
    if gone % flitTicks = 0 then { x with qd := left, qdAt := now, flying := false }
    else { x with qd := left, qdAt := x.qdAt + (gone / flitTicks + 1) * flitTicks / w, flying := true }

/-- The strand carries its peer's traffic; one that retunes carries none (15 R315). -/
def State.carries (s : State) (i : StrandId) : Bool := (s.alloc[i.val]).moving.isNone

/-- The width at which a strand sends: none enters the wire of one that retunes, and a flit on the wire completes (15 R315). -/
def State.flow (s : State) (i : StrandId) : Nat := if s.carries i then s.width i else 0

/-- Flits queued for a strand now: those of its egress buffer, and past 1,024 those of its last packet that wait in the router
(15 R305; 24 R405, R409). -/
def State.queueDepth (s : State) (i : StrandId) : Nat :=
  let x := s.strands[i.val]
  x.qd - x.sent (s.flow i) s.now

/-- A strand changed, its queue counted up to now at the width it has had (24 R409). -/
def State.modStrand (s : State) (i : StrandId) (f : Strand → Strand) : State :=
  { s with strands := s.strands.set i.val (f (s.strands[i.val].upTo (s.flow i) s.now)) }

/-- The strand's queue is counted up to now. -/
def State.settleStrand (s : State) (i : StrandId) : State := s.modStrand i id

/-- No flit of the strand is on the wire now (15 R315, 24 R408, R409). -/
def State.flitBoundary (s : State) (i : StrandId) : Bool := !(s.strands[i.val].upTo (s.flow i) s.now).flying

/-- Flits join a strand's queue; a queue that was empty begins to send. One that reaches a nonzero threshold while a channel is parked, or is
to be, asks for a wake (24 R409, R411). -/
def Strand.push (x : Strand) (n now : Nat) : Strand :=
  let q := x.qd + n
  { x with
    qd := q
    qdAt := if x.qd = 0 then now else x.qdAt
    due := if x.wth != 0 && decide (x.wth.toNat ≤ q) && (x.carry != 0xFF || x.amask != 0xFF) then some (x.due.getD now) else x.due }

/-- Strands that carry a peer's traffic. -/
def State.strandsOf (s : State) (p : Nat) : List StrandId := s.strandsWhere fun a => a.use.peer == some p && a.moving.isNone

/-- Strands that leave their peer: a flit on the wire completes on its own, and flits still queued go out on a remaining strand of that peer;
which one is not architected (15 R315, R323). -/
def State.departStrands (s : State) (ids : List StrandId) : State :=
  ids.foldl (fun s i =>
    match s.alloc[i.val].use.peer with
    | none => s
    | some p =>
      let s := s.settleStrand i
      let x := s.strands[i.val]
      let n := x.qd - b2n x.flying
      if n = 0 then s
      else match s.pick 1 ((s.strandsOf p).filter fun j => !ids.contains j) with
        | (s, j :: _) => (s.modStrand i fun x => { x with qd := x.qd - n }).modStrand j fun x => x.push n s.now
        | (s, []) => s) s

/-- The flit boundary at which strands that have departed leave: when the last flit on their wires has completed (15 R315). -/
def State.clearTick (s : State) (ids : List StrandId) : Nat :=
  ids.foldl (fun t i => let x := s.strands[i.val]; if x.flying then max t x.qdAt else t) s.now

/-- Ticks of a retune (15 R315). -/
def retuneTicks : Nat := 10 * usTicks
/-- Ticks of a notice (15 R315). -/
def noticeTicks : Nat := 20 * usTicks

/-! ### Words the engine writes -/

/-- The access is a word of the lease engine. -/
def Access.leaseWord (a : Access) : Bool :=
  match a.owner with
  | .lease _ _ _ _ => true
  | _ => false

/-- A dropped word's entry in the error log: the core and the task that asked (15 R313, R321; 19 R355). -/
def State.logDropped (s : State) (core : CoreId) (task : Word) (cls addr : Nat) : State :=
  s.logEntry addr task (s.core core).cyc 6 cls core.val

/-- An 8-byte word of the lease engine, indivisible and with release semantics; a write that fails is dropped and logged
(15 R313, R321). A peer's word, one on a page in migration, or one behind such a word sets out as an access. The answer says whether the word
has been written or has set out. -/
def State.engineWord (s : State) (t : Option Target) (core : CoreId) (lease : Nat) (task : Word) (event : Bool) (v : Nat) : State × Bool :=
  match t with
  | none => (s, false)
  | some (.global ia) =>
    let a : Access :=
      { owner := .lease lease core task event, target := .global ia, op := .write (bytesOfNat 8 v), whole := true, requester := .core core }
    if !s.onModule ia || s.isHeld (iaLocal ia) || s.accesses.any (·.leaseWord) then ({ s with accesses := s.accesses ++ [a] }, true)
    else match s.checkPage (.core core) (s.page (iaLocal ia)) with
      | .error cls => (s.logDropped core task cls ia, false)
      | .ok p => ((s.reach (.core core) p ia 8 0 true).homeWrite .module p ia (bytesOfNat 8 v), true)
  | some (.bad cls addr) => (s.logDropped core task cls addr, false)
  | some _ => (s, false)

/-- A status word (15 R313): 0 PENDING, 1 PARTIAL, 2 GRANTED, 3 REFUSED, 4 RELEASED, 5 RENEWED. -/
def State.writeStatus (s : State) (t : Option Target) (core : CoreId) (lease : Nat) (task : Word) (state reason granted total : Nat) : State :=
  (s.engineWord t core lease task false
    (state + reason * 2 ^ 4 + granted % 64 * 2 ^ 8 + total % 128 * 2 ^ 14 + s.now / usTicks % 2 ^ 32 * 2 ^ 32)).1

/-- The status word of an admitted request. -/
def State.leaseStatus (s : State) (l : Lease) (state reason : Nat) : State :=
  s.writeStatus l.status l.core l.id l.task state reason l.got (s.total l.peer)

/-- A lease-event word: 1 GRANT, 2 NOTICE, 3 REVOKED, 4 EXPIRED, 5 FLOORGRANT; seq counts the events written to the word,
from a value the spec leaves open (15 R321, log 6). -/
def State.leaseEvent (s : State) (l : Lease) (kind strands : Nat) : State :=
  match l.event with
  | none => s
  | some t =>
    let key := match t with | .global ia => ia | _ => 0
    let seq : BitVec 16 := ((lookupKey key s.leaseSeqs).getD ((Config.freeWord s.choices).setWidth 16)) + 1
    let (s, written) := { s with choices := s.choices + 1 }.engineWord l.event l.core l.id l.task true
      (seq.toNat + kind * 2 ^ 16 + strands % 64 * 2 ^ 20 + l.drow.toNat * 2 ^ 26 + l.dcol.toNat * 2 ^ 30
        + s.now / usTicks % 2 ^ 30 * 2 ^ 34)
    if written then { s with leaseSeqs := putKey key seq s.leaseSeqs } else s

/-- An event word that had set out is dropped: the events behind it for the same word count without it (15 R321). -/
def State.undoEvent (s : State) (a : Access) : State :=
  match a.owner, a.target with
  | .lease _ _ _ true, .global ia =>
    let less := fun (b : Access) => match b.owner, b.op with
      | .lease _ _ _ true, .write bs =>
        if b.target == .global ia then
          { b with op := .write (bytesOfNat 8 (withBits (natOfBytes bs) 0 16 ((natOfBytes bs + 65535) % 65536))) } else b
      | _, _ => b
    { s with accesses := s.accesses.map less, leaseSeqs := putKey ia ((lookupKey ia s.leaseSeqs).getD 0 - 1) s.leaseSeqs }
  | _, _ => s

/-! ### Leases -/

/-- A lease or an admitted request. -/
def State.lease (s : State) (id : Nat) : Option Lease := s.leases.find? fun l => l.id == id

/-- A lease changed. -/
def State.modLease (s : State) (id : Nat) (f : Lease → Lease) : State :=
  { s with leases := s.leases.map fun l => if l.id == id then f l else l }

/-- Order in which pending requests are served: level first, oldest first (15 R314). -/
def Lease.servedBefore (a b : Lease) : Bool := decide (b.level < a.level) || (a.level == b.level && decide (a.id < b.id))

/-- The pending request of a router that a freed strand goes to (15 R314, R319). -/
def State.nextRequest (s : State) (router : Nat) : Option Lease :=
  (s.leases.filter fun l => peerRouter l.peer == router && decide (0 < s.want l) && decide (s.committed l.peer < 64)).foldl
    (fun best l => match best with
      | none => some l
      | some b => if l.servedBefore b then some l else some b) none

/-- Where a freed strand goes: a pending request of its router, a peer below its default, or the pool (15 R319); with every channel disabled,
the pool (24 R410). -/
def State.freedTo (s : State) (i : StrandId) : StrandUse :=
  let router := i.val / 256
  if s.deadStrand i then .pool
  else match s.nextRequest router with
  | some l => .lease l.id l.peer
  | none =>
    match ((List.range 15).map (· + 15 * router)).find? fun p => s.peerPresent p && decide (s.committed p < 16) with
    | some p => .default p
    | none => .pool

/-- A freed strand sets out, its retune ending at a tick (15 R319). -/
def State.freeStrand (s : State) (t : Nat) (i : StrandId) : State :=
  let u := s.freedTo i
  s.modAlloc i fun _ => { use := .pool, moving := some (u, t) }

/-- Freed strands, none of which counts for a peer any more, set out one after another (15 R314, R319). -/
def State.freeStrands (s : State) (l : List StrandId) : State :=
  l.foldl (fun s i => s.freeStrand (s.now + retuneTicks) i) (s.modAllocs l fun _ => {})

/-- A strand of a lease, no longer counted for it, leaves with no notice; one that was under notice goes at once to the request that noticed it
(15 R317, R318, R323). -/
def State.leaveLease (s : State) (t : Nat) (i : StrandId) : State :=
  match s.alloc[i.val].notice with
  | some (u, _) => s.modAlloc i fun a => { a with use := .pool, moving := some (u, t), notice := none }
  | none => s.freeStrand t i

/-- Several strands leave their leases at the next flit boundary; none of them counts for its old peer any more (15 R314, R317-R319). -/
def State.leaveLeases (s : State) (l : List StrandId) : State :=
  let s := (s.departStrands l).modAllocs l fun a => { a with use := .pool }
  l.foldl (fun u i => u.leaveLease (s.clearTick l + retuneTicks) i) s

/-- The strands of a lease, those under notice first (15 R318). -/
def State.leaseStrands (s : State) (id : Nat) : List StrandId :=
  (s.strandsWhere fun a => a.use.ofLease id && a.notice.isSome) ++ s.strandsWhere fun a => a.use.ofLease id && a.notice.isNone

/-- Leases that neither hold strands nor await any are over. -/
def State.sweepLeases (s : State) : State :=
  { s with leases := s.leases.filter fun l => decide (0 < s.held l.id) || decide (0 < l.ungranted) }

/-- A task releases its leases and cancels its requests (15 R322, R319). -/
def State.dropLeases (s : State) (task : Word) : State :=
  if (s.leases.any fun l => l.task == task) || s.leaseReqs.any fun l => l.task == task then
    let s := s.accrue
    let mine := s.leases.filter fun l => l.task == task
    let strands := mine.flatMap fun l => s.leaseStrands l.id
    let s := { s with
      leases := s.leases.filter fun l => l.task != task
      leaseReqs := s.leaseReqs.filter fun l => l.task != task }
    mine.foldl (fun s l => if 0 < l.ungranted then s.leaseStatus l 3 6 else s) (s.leaveLeases strands)
  else s

/-! ### Rings that follow a strand -/

/-- A comb line of a fibre that no enabled ring serves. -/
def State.unserved (s : State) (fibre line : Nat) : Bool :=
  !(List.range 64).any fun k => match s.rings[fibre * 64 + k]? with | some r => !r.disable && r.line == line | none => false

/-- The unserved lines of a fibre that reach a peer. -/
def State.openLines (s : State) (fibre p : Nat) : List Nat := (List.range 240).filter fun j => linePeer fibre j == p && s.unserved fibre j

/-- A ring changed. -/
def State.modRing (s : State) (r : RingId) (f : Ring → Ring) : State := { s with rings := s.rings.set r.val (f s.rings[r.val]) }

/-- The strand that a ring's channel belongs to. -/
def State.ringStrand (s : State) (r : RingId) : StrandId := Fin.ofNat 512 (s.rings[r.val]).strand.toNat

/-- The line on which ring r would carry the channel of ring k: its own where that reaches the peer of k's strand, else an unserved one of its
fibre that does (24 R403). -/
def State.lineFor (s : State) (r k : RingId) : Option Nat :=
  let line := s.rings[r.val].line
  match s.alloc[(s.ringStrand k).val].use.peer with
  | none => some line
  | some q => if linePeer (r.val / 64) line == q then some line else (s.openLines (r.val / 64) q).head?

/-- One channel of a strand comes to a line that reaches a peer. Where its own fibre has no such line, the engine exchanges it with a channel of
a strand that stands still, on another fibre of the router, that its ring can carry; which ring and line it takes is not architected
(24 R403, log 40). -/
def State.moveChannel (s : State) (p : Nat) (r : RingId) : State :=
  let router := (List.finRange 4096).filter fun k =>
    k.val / 2048 == r.val / 2048 && !s.rings[k.val].disable && !(s.openLines (k.val / 64) p).isEmpty
  let ok := if router.contains r then [r] else router.filter fun k =>
    s.alloc[(s.ringStrand k).val].moving.isNone && (s.lineFor r k).isSome
  match ok[Config.freeNat (s.choices * 2) % ok.length]? with
  | none => s
  | some k =>
    let lines := s.openLines (k.val / 64) p
    let a := s.rings[r.val]
    let b := s.rings[k.val]
    let back := (s.lineFor r k).getD a.line
    let s := (s.settleStrand (s.ringStrand r)).settleStrand (s.ringStrand k)
    let s := s.modRing r fun x => { x with strand := b.strand, chan := b.chan, line := back }
    let s := s.modRing k fun x =>
      { x with strand := a.strand, chan := a.chan, line := lines.getD (Config.freeNat (s.choices * 2 + 1) % lines.length) x.line }
    { s with choices := s.choices + 1 }

/-- The channels of a strand come to a peer, every one active (24 R403, R410). -/
def State.moveRings (s : State) (i : StrandId) (p : Nat) : State :=
  let mine := (List.finRange 4096).filter fun k => s.rings[k.val].strand.toNat == i.val && !s.rings[k.val].disable && linePeer (k.val / 64) s.rings[k.val].line != p
  (mine.foldl (fun s k => s.moveChannel p k) s).modStrand i fun x =>
    { x with amask := 0xFF, carry := 0xFF, wakeEnd := none, parkDue := false, parking := false, due := none }

end Sys2Proof.Machine
end

