-- ==== Sys2Proof/Machine/Tasks.lean ====
section
/-! DEFINITION. The ends of tasks and regions: fault-domain events (02 R38, 19 R345), kills (02 R32, 19 R354, 20 R360), and
violations (05 R101, R102). -/

namespace Sys2Proof.Machine

/-! ### Ending tasks -/

/-- The parts of an access's target that live in a core or a cluster, and so end with the task. -/
def Target.inHoop (t : Target) (cores : List CoreId) : Bool :=
  match t with
  | .scratch c _ | .vreg c _ _ => cores.contains c
  | .operand _ _ _ => false
  | .global _ | .scm _ _ | .bad _ _ => false

/-- The commands of one core's queues. -/
def Queues.all (q : Queues) : List Cmd := q.ca ++ q.cb ++ q.m ++ q.bank ++ q.dec

/-- The accesses that belong to a core's queues. -/
def Access.ofCore (a : Access) (c : CoreId) : Bool :=
  match a.owner with
  | .cmd d _ _ => d == c
  | _ => false

/-- Accesses of a core whose commands are discarded: reads vanish, a write that has left may still perform, one into
the core's own state or into operand memory does not. -/
def dropAccesses (c : CoreId) (l : List Access) : List Access :=
  l.filterMap fun a =>
    if a.ofCore c then
      match a.op, a.target with
      | .read _ _, _ | _, .scratch _ _ | _, .vreg _ _ _ | _, .operand _ _ _ => none
      | _, _ => some { a with owner := .none }
    else some a

/-- A cluster's slots that a core owns become free (12 R246). -/
def Cluster.freeSlots (cl : Cluster) (c : CoreId) : Cluster :=
  { cl with owner := cl.owner.map fun o => if o == some c then none else o
            grant := match cl.grant with
              | some g => if g.holder == c then none else some g
              | none => none }

/-- A core as no task leaves it: idle, with its clock, codes and counters going on (02 R32). -/
def Core.vacate (c : Core) : Core :=
  { ({} : Core) with cyc := c.cyc, tick := c.tick, codes := c.codes, shed := c.shed, v := c.v
                     loc := { ({} : Loc) with lmem := c.loc.lmem, gated := c.loc.gated, waking := c.loc.waking, wakeAt := c.loc.wakeAt } }

/-- A core leaves its task: claims, grants, queues and accesses end. -/
def State.vacateCore (s : State) (c : CoreId) : State :=
  let s := s.modCluster (clusterOf c) (·.freeSlots c)
  let s := { s with accesses := dropAccesses c s.accesses }
  s.modCore c (·.vacate)

/-- Accepted bank commands of a task that is killed run on without it; its hoop stays theirs (14 R302, R303). -/
def State.orphanJobs (s : State) (task : Word) (cores : List CoreId) : State :=
  { s with jobs := s.jobs.map fun j => if j.task == task && j.orphan.isNone then { j with orphan := some cores } else j }

/-- The task leaves the dispatcher with everything it held (02 R32, 20 R360). -/
def State.removeTask (s : State) (t : Task) : State :=
  let s := t.cores.foldl State.vacateCore (s.chargeTask t)
  let s := s.orphanJobs t.va t.cores
  let s := s.dropLeases t.va
  { s with tasks := (s.tasks.filter fun x => x.va != t.va).map fun x =>
      if x.parent == some t.va then { x with parent := none } else x }

/-- An event in a region's queue of at most 64 undelivered ones; a 65th is counted and logged (19 R345). -/
def State.queueEvent (s : State) (id : Nat) (e : RegEvent) : State :=
  match s.region id with
  | none => s
  | some r =>
    if r.events.length < 64 then s.modRegion id fun r => { r with events := r.events ++ [e] }
    else s.logModule id 0 6 0

/-- The tasks of a region and of every region below it, started or not (20 R360, R370). -/
def State.tasksBelow (s : State) (id : Nat) : List Task :=
  s.tasks.filter fun t => match s.nearestStarted 65536 t.region with | some r => s.within r id | none => false

/-- The task runs: on a hoop, on the bank engines or in the supervisor complex (02 R25, R32). -/
def Task.running (t : Task) : Bool := t.state == .running || t.state == .retiring

/-- Kills every task of a region's tree: the supervisor learns of each that ran, the entry of one that did not is only freed (02 R32; 19
R345; 20 R360). -/
def State.killTree (s : State) (id : Nat) : State :=
  (s.tasksBelow id).foldl (fun s t =>
    let s := (s.removeTask t).charge t.region 0xD0 1
    if t.running then { s with supEvents := s.supEvents ++ [.taskKilled t.va 0 0 0 0 0xFFFF] } else s) s

/-- The regions of a tree end; their counters are brought up to date first, and their sticky lines become default ones. What they carved
returns with them (05 R99; 20 R357, R360). -/
def State.endRegions (s : State) (id : Nat) : State :=
  let gone := s.regions.filter fun x => s.within x.id id
  let s := gone.foldl (fun s x => (s.flushCharges x.id).l2Release { x with sticky := 0 }) s
  { s with regions := s.regions.filter fun x => !(gone.any fun y => y.id == x.id) }

/-- Every region of a partition is killed (02 R38). -/
def State.killPartition (s : State) (root : Nat) : State :=
  let p := s.partOfRegion root
  let s := (s.killTree root).endRegions root
  { s with supEvents := s.supEvents ++ [.partitionFatal p] }

/-- What the fault-domain policies make of an event (02 R38). -/
inductive Landing where
  /-- It waits for the region's handler (19 R345). -/
  | region (id : Nat)
  /-- No region handles it; the supervisor has been told. -/
  | supervisor
  /-- The partition of this root is killed. -/
  | fatal (root : Nat)
deriving DecidableEq, Repr

/-- Where an event of a region lands, with fuel for the way up the tree (02 R38, 19 R345). A root has no parent: propagate contains there
(log 57). -/
def State.landing (s : State) : Nat → Nat → Landing
  | 0, _ => .supervisor
  | fuel + 1, id =>
    match s.region id with
    | none => .supervisor
    | some r =>
      if r.policy = 1 ∧ r.parent ≠ r.id then State.landing s fuel r.parent
      else if r.policy = 2 then .fatal ((s.rootOf id).elim id (·.id))
      else if r.handler == 0 then .supervisor else .region id

/-- An event reaches where it lands (02 R38). -/
def State.landEvent (s : State) (l : Landing) (e : RegEvent) : State :=
  match l with
  | .region id => s.queueEvent id e
  | .supervisor => s
  | .fatal root => s.killPartition root

/-- A fault-domain event of a region, after the supervisor has been told (02 R38, 19 R345). -/
def State.faultDomain (s : State) (id : Nat) (e : RegEvent) : State := s.landEvent (s.landing (s.regions.length + 1) id) e

/-- Posts an event to a region's fault domain and to the supervisor; graph errors, bank faults and hibernation losses
count for the region itself (19 R345, 20 R368). -/
def State.postEvent (s : State) (region : Nat) (e : RegEvent) (sup : SupEvent) : State :=
  let s := { s with supEvents := s.supEvents ++ [sup] }
  let s := if 2 ≤ e.kind ∧ e.kind ≤ 4 then s.charge region 0xF8 1 else s
  s.faultDomain region e

/-- A region's tree is killed with its tasks: the kill of each task that ran goes to the fault domain of its region as the tree stood,
and reaches a region that is left (02 R32, R38; 20 R360). Under fatal the partition goes. -/
def State.killSubtree (s : State) (id : Nat) : State :=
  let events := ((s.tasksBelow id).filter Task.running).map fun t => (s.landing (s.regions.length + 1) t.region, t.va)
  match events.findSome? fun (l, _) => match l with | .fatal root => some root | _ => none with
  | some root => s.killPartition root
  | none => events.foldl (fun s (l, va) => s.landEvent l { kind := 1, info := 0, task := va }) ((s.killTree id).endRegions id)

/-- A task ends Killed: its context is discarded, the event goes to its region's fault domain (02 R32). -/
def State.killTask (s : State) (t : Task) (sup : SupEvent) : State :=
  let s := ((s.removeTask t).charge t.region 0xD0 1).flushCharges t.region
  s.postEvent t.region { kind := 1, info := 0, task := t.va } sup

/-- A fatal context error ends the core's task: the event is posted with tcause, tbaddr, tinfo0, tinfo1 and coreid (19 R354). A core
that hosts no task of the dispatcher's goes idle. -/
def State.killHost (s : State) (c : CoreId) (tcause tbaddr tinfo0 tinfo1 : Word) : State :=
  match s.taskOf c with
  | none => (s.orphanJobs (s.core c).ctl.taskid [c]).vacateCore c
  | some t => s.killTask t (.taskKilled t.va tcause tbaddr tinfo0 tinfo1 c.val)

/-- A fatal context error that is no violation: logged as kind 2, then the task is killed (19 R354, R355). -/
def State.fatal (s : State) (c : CoreId) (tcause tbaddr tinfo0 tinfo1 : Word) : State :=
  (s.logCore c tinfo1.toNat 2 (tcause.toNat % 256)).killHost c tcause tbaddr tinfo0 tinfo1

/-- The hibernation sequence is on its way, from the warning to power-off (23 R395). -/
def HbState.leaving (h : HbState) : Bool :=
  match h with
  | .warn | .quiesce | .flush | .drain | .seal | .off => true
  | .run | .restore | .rejoin => false

/-- The core's queues start nothing: its die is shed, or the module has come to QUIESCE (22 R388, 23 R395). -/
def State.asleep (s : State) (c : CoreId) : Bool :=
  match s.hib.state with
  | .run | .warn | .restore | .rejoin => (s.core c).shed
  | .quiesce | .flush | .drain | .seal | .off => true

/-- The dies, HBM and optics have power: not while the module is off or in recovery (25 R413, R415). -/
def State.powered (s : State) : Bool := s.boot.step == .training || s.boot.step == .done

/-- The supervisor complex does not run: from FLUSH on until firmware has started again, and in recovery (23 R395; 25 R413, R415). -/
def State.supStopped (s : State) : Bool :=
  !s.powered || match s.hib.state with
  | .flush | .drain | .seal | .off => true
  | .run | .warn | .quiesce | .restore | .rejoin => false

/-- What the supervisor complex does happens while it runs (23 R395). -/
def State.supervise (s : State) (f : State → State) : State := if s.supStopped then s else f s

/-- Partition set-up and region starts are step 7 of the boot: they happen once the steps before it have ended (25 R413). -/
def State.superviseBooted (s : State) (f : State → State) : State := s.supervise fun s => if s.boot.step == .done then f s else s

/-- The pseudo-channels of a migration between BANK pages (21 R379). -/
def State.migChannels (s : State) : List Nat :=
  if s.trans.migState == .idle then []
  else [s.trans.migOld, s.trans.migTo].filterMap fun e => if e.getLsbD 4 then some (bitsOf e.toNat 32 9) else none

/-- tcause FATAL (19 R343). -/
def causeFatal : Nat := 0x20

/-- tcause LOCAL for the local classes, FATAL for the others (05 R101). -/
def violationCause (cls : Nat) : Nat := if cls ≤ 3 then 0x05 else causeFatal

/-- The kind of a violation's entry in the error log: 5 for a HIBERNATING answer, else 1 (05 R102, 19 R355). -/
def violationKind (cls : Nat) : Nat := if cls == clsHibernating then 5 else 1

/-- The entry of a violation in the error log (05 R102, 19 R355). -/
def State.logViolation (s : State) (c : CoreId) (cls addr : Nat) : State :=
  (s.missed cls addr).logCore c addr (violationKind cls) cls

/-- The entry of a violation that the dispatcher or the sequencer meets for a task (05 R102, 19 R355). -/
def State.logModuleViolation (s : State) (cls addr : Nat) (task : Word) : State :=
  (s.missed cls addr).logModule addr task (violationKind cls) cls

/-- A violation that has been logged kills the task (05 R101, 19 R354). -/
def State.violationKill (s : State) (c : CoreId) (cls addr : Nat) (tbaddr : Word) : State :=
  s.killHost c (BitVec.ofNat 64 (violationCause cls)) tbaddr (BitVec.ofNat 64 cls) (BitVec.ofNat 64 addr)

/-- A violation that is a fatal context error: its one entry in the log, then the task is killed (05 R101, R102; 19 R354, R355; log
54). -/
def State.violation (s : State) (c : CoreId) (cls addr : Nat) (tbaddr : Word) : State :=
  (s.logViolation c cls addr).violationKill c cls addr tbaddr

end Sys2Proof.Machine
end

