-- ==== Sys2Proof/Machine/Ops.lean ====
section
/-! DEFINITION. The operations of a core that every family shares: registers and results in flight (03 R43-R51,
07 R139, 08 R147), control and system registers (03 R60, 19 R350, 21 R372), vector names and the bypass
(03 R47, R50), local memory (05 R84-R91, 06 R105, R106), the core's clock (01 R17, 22 R381), and taking a trap
(19 R341-R349) with the two returns beside it (08 R164, 19 R351). -/

namespace Sys2Proof.Machine

/-! ### Clock -/

/-- The divisor a code selects (01 R17); a reserved code selects none and is never in force. -/
def divisor (code : BitVec 4) : Nat :=
  match code.toNat with
  | 0 => 2
  | 1 => 3
  | 2 => 4
  | 3 => 6
  | 4 => 8
  | 5 => 12
  | _ => 16

/-- The index of a domain among a core's codes (07 R127). -/
def domIdx : Domain → Fin 4
  | .seq => 0
  | .vec => 1
  | .mat => 2
  | .copy => 3

/-- The divisor of a core's domain. -/
def Core.div (c : Core) (d : Domain) : Nat := divisor c.codes[domIdx d]

/-- The factor of vector latencies: the vector divisor over the sequencer divisor (22 R381). -/
def Core.vecScale (c : Core) : Nat := c.div .vec / c.div .seq

/-- The sc that a core is in (03 R60 cyc). -/
def Core.sc (c : Core) : Nat := c.cyc.toNat

/-- The sc begins a vector cycle (22 R381). -/
def Core.vecAligned (c : Core) : Bool := c.sc % c.vecScale == 0

/-- Ticks of one sc: the divisor times 0.25 ns (01 R17, log 4). -/
def Core.scTicks (c : Core) : Nat := c.div .seq * 105

/-! ### Scalar registers and predicates -/

/-- A scalar register; s0 reads zero (03 R43). -/
def Core.rs (c : Core) (r : BitVec 5) : Word := if r = 0 then 0 else c.s[r.toNat]

/-- A predicate; p0 reads 1 (03 R44). -/
def Core.rp (c : Core) (r : BitVec 4) : Bool := if r = 0 then true else c.p[r.toNat]

/-- A result to a scalar register; one to s0 is discarded (03 R43). -/
def Core.ws (c : Core) (r : BitVec 5) (v : Word) : Core := if r = 0 then c else { c with s := c.s.set r.toNat v }

/-- A result to a predicate; one to p0 is discarded (03 R44). -/
def Core.wp (c : Core) (r : BitVec 4) (v : Bool) : Core := if r = 0 then c else { c with p := c.p.set r.toNat v }

/-! ### Control registers -/

/-- The place of a chain's state in chprog (13 R283). -/
def Chain.prog (h : Chain) : Nat :=
  h.issued % 16 + h.done % 16 * 2 ^ 4 + h.pk.steps.length % 16 * 2 ^ 8 + b2n h.isOpen * 2 ^ 12 + b2n h.pk.dir * 2 ^ 13
    + b2n h.pk.bf16 * 2 ^ 14 + h.pass % 2 ^ 24 * 2 ^ 16 + h.npass % 2 ^ 24 * 2 ^ 40

/-- A user control register as it stands, or none where no register has the index (03 R60). -/
def State.ctlRead (s : State) (cid : CoreId) (index : Nat) : Option Word :=
  let c := s.core cid
  let t := c.ctl
  if index = 0x000 then some c.cyc
  else if index = 0x001 then some (zext t.hx)
  else if index = 0x002 then some (zext t.hy)
  else if index = 0x003 then some (zext t.hw)
  else if index = 0x004 then some (zext t.hh)
  else if 0x008 ≤ index ∧ index ≤ 0x00F then some (zext (t.mb[index - 8]?.getD 0))
  else if index = 0x010 then some (zext t.fmode)
  else if index = 0x011 then some (zext t.cvsat)
  else if index = 0x012 then some (zext t.cvflz)
  else if index = 0x013 then some (zext t.cvnan)
  else if index = 0x014 then some (zext t.cvthr)
  else if index = 0x015 then some (zext t.rrb)
  else if index = 0x016 then some (zext t.rbase)
  else if index = 0x017 then some (zext t.rsize)
  else if index = 0x018 then some (zext t.rstep)
  else if index = 0x019 then some (zext t.vwb)
  else if index = 0x01A then some (zext t.lfsr)
  else if index = 0x01B then some t.ln
  else if 0x020 ≤ index ∧ index ≤ 0x023 then some (zext (t.lc[index - 0x20]?.getD 0))
  else if index = 0x024 then some (BitVec.ofNat 64 c.mx.chain.prog)
  else if index = 0x025 then some t.lstat
  else if index = 0x030 then some (zext s.modid)
  else if index = 0x031 then some t.taskid
  else if index = 0x032 then some (zext t.region)
  else none

/-- fmode has bit 3 reserved (03 R60). -/
def fmodeMask : Word := 0xFF7

/-- A write to a user control register that R47 has let pass; read-only registers and reserved bits ignore it
(03 R60). A write of 0 to srseed loads 1. -/
def Core.ctlWrite (c : Core) (index : Nat) (v : Word) : Core :=
  let t := c.ctl
  if index = 0x010 then { c with ctl := { t with fmode := (v &&& fmodeMask).setWidth 12 } }
  else if index = 0x011 then { c with ctl := { t with cvsat := v.setWidth 32 } }
  else if index = 0x012 then { c with ctl := { t with cvflz := v.setWidth 32 } }
  else if index = 0x013 then { c with ctl := { t with cvnan := v.setWidth 32 } }
  else if index = 0x014 then { c with ctl := { t with cvthr := v.setWidth 32 } }
  else if index = 0x015 then { c with ctl := { t with rrb := v.setWidth 10 } }
  else if index = 0x016 then { c with ctl := { t with rbase := v.setWidth 11 } }
  else if index = 0x017 then { c with ctl := { t with rsize := v.setWidth 11 } }
  else if index = 0x018 then { c with ctl := { t with rstep := v.setWidth 10 } }
  else if index = 0x019 then { c with ctl := { t with vwb := v.setWidth 11 } }
  else if index = 0x01A then
    { c with ctl := { t with lfsr := if v.setWidth 32 = 0#32 then 1 else v.setWidth 32 } }
  else if index = 0x01B then { c with ctl := { t with ln := v } }
  else if h : 0x020 ≤ index ∧ index ≤ 0x023 then
    { c with ctl := { t with lc := t.lc.set (index - 0x20) (v.setWidth 32) (by omega) } }
  else if index = 0x025 then { c with ctl := { t with lstat := v } }
  else c

/-- Whether MTC may write a whole 64-bit value to a window or rotation register (03 R47). -/
def ctlLegal (index : Nat) (v : Word) : Bool :=
  let n := v.toNat
  if index = 0x019 ∨ index = 0x016 then n % 32 == 0 && decide (n ≤ 1504)
  else if index = 0x017 then n % 32 == 0 && decide (n ≤ 1024)
  else if index = 0x018 ∨ index = 0x015 then decide (n ≤ 1023)
  else true

/-- Rotation of the region by n names (03 R48, 08 R154). -/
def Core.rotate (c : Core) (n : Nat) : Core :=
  let m := c.ctl.rsize.toNat
  if m = 0 then c
  else { c with ctl := { c.ctl with rrb := BitVec.ofNat 10 (((c.ctl.rrb.toNat : Int) - n) % m).toNat } }

/-! ### Vector names -/

/-- The physical register a name stands for (03 R47). -/
def Core.phys (c : Core) (n : Nat) : Nat :=
  if n < 32 then c.ctl.vwb.toNat + n
  else c.ctl.rbase.toNat + (n - 32 + c.ctl.rrb.toNat) % c.ctl.rsize.toNat

/-- Using a name traps VWIN: a rotating name while the region is empty or leaves the file (03 R47). -/
def Core.badName (c : Core) (n : Nat) : Bool :=
  decide (32 ≤ n) && (c.ctl.rsize == 0 || decide (1536 < c.ctl.rbase.toNat + c.ctl.rsize.toNat))

/-- A physical register's contents in the file. -/
def Core.fileV (c : Core) (phys : Nat) : VecReg := c.v[phys]?.getD 0

/-- A physical register as an instruction that issues now reads it: a transient result within its window of 3k sc,
else the file (03 R50, R51; 22 R381). -/
def Core.readPhys (c : Core) (phys : Nat) : VecReg :=
  match c.bypass.find? fun b => b.phys == phys && decide (c.sc < b.readyAt + 3 * c.vecScale) with
  | some b => b.value
  | none => c.fileV phys

/-- A named vector register as read at issue. -/
def Core.rv (c : Core) (n : Nat) : VecReg := c.readPhys (c.phys n)

/-- A physical register written. -/
def Core.writePhys (c : Core) (phys : Nat) (v : VecReg) : Core :=
  if h : phys < 1536 then { c with v := c.v.set phys v } else c

/-! ### System registers of a core -/

/-- tstat as a word (19 R350). -/
def Sys.tstat (y : Sys) : Word := BitVec.ofNat 64 (b2n y.sh + b2n y.pm * 2 + b2n y.uh * 4 + b2n y.mode * 8)

/-- Bits [hi:0] without the low 16 (21 R372). -/
def low16Zero (v : Word) : Word := v &&& 0xFFFFFFFFFFFF0000

/-- A core-local system register, or none where no register has the index (19 R350, 21 R372). -/
def State.sysLocalRead (s : State) (cid : CoreId) (index : Nat) : Option Word :=
  let y := (s.core cid).sys
  if index = 0x00 then some (zext y.tcause)
  else if index = 0x01 then some y.tbaddr
  else if index = 0x02 then some y.tinfo0
  else if index = 0x03 then some y.tinfo1
  else if index = 0x04 then some y.tstat
  else if index = 0x05 then some y.uret
  else if index = 0x06 then some y.shentry
  else if index = 0x07 then some (BitVec.ofNat 64 cid.val)
  else if 0x08 ≤ index ∧ index ≤ 0x0B then some (y.ksc[index - 8]?.getD 0)
  else if index = 0x0C then some (match s.taskOf cid with | some t => t.ckmark | none => y.ckmark)
  else if index = 0x10 then some (zext y.pfbud)
  else if 0x100 ≤ index ∧ index ≤ 0x13F then
    let w := y.wins[(index - 0x100) / 8]?.getD {}
    some (match index % 8 with
      | 0 => zext w.va
      | 1 => zext w.len
      | 2 => zext w.ia
      | 3 => zext w.ctl
      | _ => 0)
  else none

/-- One field of a window written; bases and length have their low 16 bits zero (21 R372). -/
def Window.write (w : Window) (k : Nat) (v : Word) : Window :=
  match k with
  | 0 => { w with va := (low16Zero v).setWidth 48 }
  | 1 => { w with len := (low16Zero v).setWidth 48 }
  | 2 => { w with ia := (low16Zero v).setWidth 56 }
  | 3 => { w with ctl := v.setWidth 4 }
  | _ => w

/-- A write to a core-local system register; read-only registers and reserved bits ignore it (19 R350). -/
def Core.sysWrite (c : Core) (index : Nat) (v : Word) : Core :=
  let y := c.sys
  if index = 0x00 then { c with sys := { y with tcause := (v &&& 0x1FFF).setWidth 32 } }
  else if index = 0x01 then { c with sys := { y with tbaddr := v } }
  else if index = 0x02 then { c with sys := { y with tinfo0 := v } }
  else if index = 0x03 then { c with sys := { y with tinfo1 := v } }
  else if index = 0x04 then
    { c with sys := { y with sh := v.getLsbD 0, pm := v.getLsbD 1, uh := v.getLsbD 2 } }
  else if index = 0x05 then { c with sys := { y with uret := v } }
  else if index = 0x06 then { c with sys := { y with shentry := v } }
  else if h : 0x08 ≤ index ∧ index ≤ 0x0B then
    { c with sys := { y with ksc := y.ksc.set (index - 8) v (by omega) } }
  else if h : 0x100 ≤ index ∧ index ≤ 0x13F then
    let w := (y.wins[(index - 0x100) / 8]'(by omega)).write (index % 8) v
    { c with sys := { y with wins := y.wins.set ((index - 0x100) / 8) w (by omega) } }
  else c

/-! ### Results in flight -/

/-- Writes one field of a descriptor word: `n` bytes from byte `lo` (03 R56). -/
def setTdBytes (d : TdWord) (lo n : Nat) (v : Word) : TdWord := BitVec.ofNat 256 (withBits d.toNat (8 * lo) (8 * n) v.toNat)

/-- The bytes of a descriptor that a TDSET field takes (03 R56, 07 R129, 08 R178). -/
def tdPlace : TdField → Nat × Nat
  | .base => (0, 8)
  | .format => (8, 1)
  | .flags => (9, 1)
  | .layout => (10, 1)
  | .retain => (11, 1)
  | .rows => (12, 2)
  | .cols => (14, 2)
  | .stride => (16, 4)
  | .scaleOff => (20, 4)
  | .tscale => (24, 4)
  | .link => (28, 4)

/-- Producer or consumer advance of a handle (03 R54). -/
def Handle.advance (h : Handle) (producer : Bool) (n : Nat) : Handle :=
  if producer then { h with prod := (h.prod + n) % (2 * h.slotCount) }
  else { h with cons := (h.cons + n) % (2 * h.slotCount) }

/-- Claim or release of operand slots in what a core may name (12 R245, R246). -/
def setNames (m : BitVec 64) (first n : Nat) (v : Bool) : BitVec 64 :=
  BitVec.ofNat 64 (withBits m.toNat first n (if v then 2 ^ n - 1 else 0))

/-- What a result does when it becomes readable. An ordinary vector result supersedes earlier transient results for
its register (03 R51). -/
def Core.commit (c : Core) (p : Pending) : Core :=
  match p.res with
  | .s r v => c.ws r v
  | .p r v => c.wp r v
  | .vec phys v transient =>
    let c := { c with bypass := c.bypass.filter fun b => b.phys != phys }
    if transient then { c with bypass := { phys := phys, value := v, readyAt := p.readyAt } :: c.bypass }
    else c.writePhys phys v
  | .td i v => { c with td := c.td.set i.toNat v }
  | .tdField i f v => { c with td := c.td.set i.toNat (setTdBytes c.td[i.toNat] (tdPlace f).1 (tdPlace f).2 v) }
  | .handle h v => { c with handles := c.handles.set h.toNat (some v) }
  | .advance h producer n =>
    { c with handles := c.handles.set h.toNat (c.handles[h.toNat].map fun x => x.advance producer n) }
  | .bd i v => { c with bd := c.bd.set i.toNat v }
  | .ch i mask v => { c with ch := c.ch.set i.toNat ((c.ch[i.toNat] &&& ~~~mask) ||| (v &&& mask)) }
  | .ctrl index v => c.ctlWrite index v
  | .rot n => c.rotate n
  | .vwb v => { c with ctl := { c.ctl with vwb := v } }
  | .sys index v => c.sysWrite index v
  | .spill off v => { c with loc := { c.loc with spill := c.loc.spill.putNat off 8 v.toNat } }
  | .names first n claim => { c with mx := { c.mx with names := setNames c.mx.names first n claim } }
  | .contender t => { c with mx := { c.mx with contender := t, tickets := t.getD c.mx.tickets } }
  | .stash i e => { c with loc := { c.loc with map := c.loc.map.set i.toNat e } }
  | .shadow fn f => { c with xs := { c.xs with shadow := c.xs.shadow.set fn.toNat f } }
  | .tables active => { c with xs := { c.xs with active := active } }
  | .counts sat flz nan =>
    let add := fun (x : BitVec 32) n => BitVec.ofNat 32 (satAdd 0xFFFFFFFF x.toNat n)
    { c with ctl := { c.ctl with
        cvsat := add c.ctl.cvsat sat, cvflz := add c.ctl.cvflz flz, cvnan := add c.ctl.cvnan nan } }
  | .tret => { c with sys := { c.sys with uh := false }, loops := c.loops.map fun r => { r with maskU := false } }
  | .rte =>
    { c with sys := { c.sys with mode := c.sys.pm, sh := false, held := 0, inPfw := false }
             loops := c.loops.map fun r => { r with maskS := false } }

/-- Results in order: by slot, then by issue (07 R139); those of one sc are committed in this order. -/
def Pending.before (a b : Pending) : Bool := decide (a.slot < b.slot) || (a.slot == b.slot && decide (a.ord ≤ b.ord))

/-- Puts a result at its place among those of one sc. -/
def insertPending (p : Pending) : List Pending → List Pending
  | [] => [p]
  | q :: t => if q.before p then q :: insertPending p t else p :: q :: t

/-- The results that become readable in an sc, in the order in which they take effect. -/
def duePending (l : List Pending) (sc : Nat) : List Pending :=
  (l.filter fun p => p.readyAt == sc).foldl (fun acc p => insertPending p acc) []

/-- Puts a result of the issuing slot in flight, readable L sc from now (08 R147). -/
def State.emit (s : State) (lat : Nat) (r : Result) : State :=
  s.modMe fun c => { c with pend := c.pend ++ [{ readyAt := c.sc + lat, slot := s.curSlot.num, ord := c.issue, res := r }] }

/-- A result of the vector clock domain, readable k·L sc from now (22 R381). -/
def State.emitV (s : State) (lat : Nat) (r : Result) : State := s.emit (lat * s.me.vecScale) r

/-! ### Local memory -/

/-- End of local memory (05 R84). -/
def localEnd : Nat := 0x100000

/-- First stash address (05 R84). -/
def Core.stashBase (c : Core) : Nat := localEnd - 0x10000 * c.loc.stashSteps

/-- Some byte of a span lies in a bank that is gated or waking (22 R390). -/
def Core.gatedSpan (c : Core) (a n : Nat) : Bool :=
  (List.range 32).any fun b =>
    (c.loc.gated.getLsbD b || c.loc.waking.getLsbD b) && decide (a < (b + 1) * 0x8000) && decide (b * 0x8000 < a + n)

/-- The local addresses at which a span enters a granule: its first byte and each 4 KiB boundary inside it. -/
def granuleStarts (a n : Nat) : List Nat :=
  a :: ((List.range (n / 4096 + 1)).map fun i => (a / 4096 + 1 + i) * 4096).filter fun x => decide (x < a + n)

/-- A core's own local access of n bytes: the violation class it meets, if any (05 R84, R88, R90, R101; 22 R390). -/
def Core.localCheck (c : Core) (a n : Nat) (write : Bool) : Option Nat :=
  if n = 0 then none
  else if localEnd < a + n then some clsLocal
  else if c.gatedSpan a n then some clsLocal
  else if a + n ≤ c.stashBase then none
  else
    let starts := (granuleStarts a n).filter fun x => decide (c.stashBase ≤ x)
    if starts.any fun x => (c.stashEntry x).isNone then some clsUnmapped
    else if write && starts.any fun x => !((c.stashEntry x).map (·.write)).getD false then some clsPerm
    else none

/-- The granule at a local address is present. -/
def Core.present (c : Core) (a : Nat) : Bool := c.loc.granules.any fun g => g.base == a / 4096 * 4096

/-- The first granule that a span touches in the stash and that is not present (05 R89). -/
def Core.missing (c : Core) (a n : Nat) : Option Nat :=
  if n = 0 ∨ a + n ≤ c.stashBase then none
  else
    ((granuleStarts a n).filter fun x => decide (c.stashBase ≤ x) && !c.present x).head?.map fun x => x / 4096 * 4096

/-- An engine's or a neighbour's access to a scratchpad: the violation class (05 R86, 22 R390). -/
def Core.scratchCheck (c : Core) (a n : Nat) : Option Nat :=
  if n = 0 then none else if c.stashBase < a + n || c.gatedSpan a n then some clsLocal else none

/-- Puts a local load in flight: it reads at issue + 2 (06 R105). -/
def State.emitLoad (s : State) (ready a n : Nat) (d : LoadDest) : State :=
  s.modMe fun c => { c with loc := { c.loc with loads := c.loc.loads ++
    [{ due := c.sc + 2, readyAt := c.sc + ready, slot := s.curSlot.num, ord := c.issue, addr := a, len := n, dest := d }] } }

/-- Puts a local store in flight: it takes effect at issue + 2 (06 R105). -/
def State.emitStore (s : State) (a : Nat) (bs : List Byte) (half : Bool := false) : State :=
  s.modMe fun c => { c with loc := { c.loc with stores := c.loc.stores ++
    [{ due := c.sc + 2, slot := s.curSlot.num, issue := c.issue, addr := a, bytes := bs, half := half }] } }

/-- Every queued command of a core changed. -/
def Queues.mapAll (q : Queues) (f : Cmd → Cmd) : Queues :=
  { q with ca := q.ca.map f, cb := q.cb.map f, m := q.m.map f, bank := q.bank.map f, dec := q.dec.map f }

/-- Every queued command of a core changed, with the queue it stands in. -/
def Queues.mapEach (q : Queues) (f : QueueId → Cmd → Cmd) : Queues :=
  { q with ca := q.ca.map (f .ca), cb := q.cb.map (f .cb), m := q.m.map (f .m), bank := q.bank.map (f .bank), dec := q.dec.map (f .dec) }

/-- The descriptors that a command reads its sources through (10, 11, 12, 13, 14). -/
def CmdKind.sources : CmdKind → List TdWord
  | .copy _ s _ _ | .copyh _ _ s | .gather _ s _ | .scatter _ s _ | .ddict s | .bkvec s _ _ | .macc s => [s.td]
  | .decomp s _ _ _ _ => [s]
  | .mma a b _ _ _ _ _ => [a.td, b.td]
  | .chain _ _ i _ _ => [i.td]
  | .chgrad l r _ _ _ => [l.td, r.td]
  | _ => []

/-- Where a descriptor's tensor begins in the issuing core's own scratchpad: that of space 0, and that of space 1 at offset (0, 0),
which is the issuing core (01 R22; 10 R208). -/
def tdOwn (d : TdWord) : Option Nat :=
  match tdSpace d with
  | 0 => some (tdPlaceBits d)
  | 1 => if bitsOf (tdPlaceBits d) 48 8 == 0 then some (bitsOf (tdPlaceBits d) 0 20) else none
  | _ => none

/-- A command that is not complete reads this byte of its own scratchpad. -/
def Cmd.readsLocal (k : Cmd) (a : Nat) : Bool :=
  k.phase != .performed && k.kind.sources.any fun d =>
    ((tdOwn d).map fun p => decide (p ≤ a) && decide (a < p + tdBound d)).getD false

/-- A command keeps a byte of its own scratchpad as it stood (06 R106). -/
def Cmd.keep (k : Cmd) (a : Nat) (old : Byte) : Cmd :=
  if k.readsLocal a && (lookupKey a k.kept).isNone then { k with kept := (a, old) :: k.kept } else k

/-- A store of the core's own stream to one byte of its scratchpad: queued commands that must not see it keep the
byte as it was (06 R106). -/
def Core.storeByte (c : Core) (issue a : Nat) (b : Byte) : Core :=
  let old := c.loc.lmem.get a
  { c with q := c.q.mapAll fun k => if k.issue ≤ issue then k.keep a old else k
           loc := { c.loc with lmem := c.loc.lmem.set a b } }

/-- How a command of a queue meets a write to bytes of its own scratchpad by an engine or a neighbour, or by a command `mine` of
its core: it sees the write of an earlier command of its own queue (06 R107), and keeps the bytes as they were at its issue
under any other (06 R106; 10 R210, R212). -/
def Cmd.meetWrite (k : Cmd) (q : QueueId) (mine : Option (QueueId × Nat)) (a : Nat) (old : List Byte) : Cmd :=
  match mine with
  | some (p, id) =>
    if p == q && decide (id < k.id) then
      { k with kept := k.kept.filter fun x => decide (x.1 < a) || decide (a + old.length ≤ x.1) }
    else ((List.range old.length).zip old).foldl (fun k (i, b) => k.keep (a + i) b) k
  | none => ((List.range old.length).zip old).foldl (fun k (i, b) => k.keep (a + i) b) k

/-- A write of an engine or a neighbour to a scratchpad; `mine` is the command of the core's own queues that makes it. -/
def Core.engineWrite (c : Core) (mine : Option (QueueId × Nat)) (a : Nat) (bs : List Byte) : Core :=
  let old := c.loc.lmem.bytes a bs.length
  { c with q := c.q.mapEach fun q k => if k.kind.sources.any (fun d => (tdOwn d).isSome) then k.meetWrite q mine a old else k
           loc := { c.loc with lmem := c.loc.lmem.put a bs } }

/-- Marks a byte of a present granule dirty (05 R90). -/
def Core.markDirty (c : Core) (a : Nat) : Core :=
  { c with loc := { c.loc with granules := c.loc.granules.map fun g =>
      if g.base == a / 4096 * 4096 then { g with dirty := BitVec.ofNat 4096 (withBits g.dirty.toNat (a % 4096) 1 1) } else g } }

/-- One byte of a store as it takes effect: in the scratchpad, in a present granule, or, where a remote write has
taken the granule away, at its home. A granule whose page is no longer resident recalls nothing. A store to the stash performs at its page's scope: other stashes lose the granule, and
earlier captures of the byte are overtaken (05 R90, 06 R103, R104). -/
def State.performByte (s : State) (cid : CoreId) (issue a : Nat) (b : Byte) : State :=
  let c := s.core cid
  if a < c.stashBase then s.modCore cid (·.storeByte issue a b)
  else
    match c.stashEntry a with
    | none => s
    | some e =>
      let ia := e.ia + (a - e.lbase)
      let p := s.homePage ia
      let s := (if p.isNone && s.onModule ia then s else s.recall p ia true (some cid)).overtake none ia 1
      if c.present a then s.modCore cid fun c => (c.storeByte issue a b).markDirty a else s.pokeCells p ia [(0, b)]

/-- The bytes of a store as it takes effect. -/
def State.performBytes (s : State) (cid : CoreId) (issue a : Nat) : List Byte → State
  | [] => s
  | b :: bs => State.performBytes (s.performByte cid issue a b) cid issue (a + 1) bs

/-- The bytes that a store leaves, given the byte its last one finds: a half store keeps the high nibble of it (09 R200). -/
def LocalStore.final (st : LocalStore) (old : Byte) : List Byte :=
  if st.half then st.bytes.dropLast ++ [BitVec.ofNat 8 (withBits old.toNat 0 4 (st.bytes.getLast?.getD 0).toNat)] else st.bytes

/-- The place of a store's last byte. -/
def LocalStore.last (st : LocalStore) : Nat := st.addr + (st.bytes.length - 1)

/-- A local access in flight whose granule a remote write has taken away fails at the home of its bytes (05 R90, R101; 21 R375). -/
def State.stashFail (s : State) (cid : CoreId) (addr n : Nat) : Option (Nat × Nat) :=
  let c := s.core cid
  (granuleStarts addr n).findSome? fun a =>
    match c.stashEntry a with
    | none => none
    | some e =>
      let ia := e.ia + (a - e.lbase)
      if decide (a < c.stashBase) || c.present a then none else (s.homeFail (.core cid) ia).map fun cls => (cls, ia)

/-- The access that has asked a peer has had its answer: the next choice is another (log 53). -/
def State.asked (s : State) (cid : CoreId) (addr n : Nat) : State :=
  if ((s.core cid).missing addr n).isSome then { s with choices := s.choices + 1 } else s

/-- A store takes effect (06 R105). -/
def State.performStore (s : State) (cid : CoreId) (st : LocalStore) : State :=
  (match s.stashFail cid st.addr st.bytes.length with
    | some (cls, addr) => s.violation cid cls addr (s.core cid).pc
    | none => s.performBytes cid st.issue st.addr (st.final ((s.core cid).loc.lmem.get st.last))).asked cid st.addr st.bytes.length

/-- What a load delivers, given the bytes it has read (08 R171, R177, R179; 09 R199, R200). A record that has turned bad since the
issue of its HSET leaves the handle unchanged (log 52). -/
def LocalLoad.result (l : LocalLoad) (bs : List Byte) : Result :=
  match l.dest with
  | .s r signed =>
    let n := natOfBytes bs
    .s r (if signed then BitVec.ofInt 64 (signedOf (8 * l.len) n) else BitVec.ofNat 64 n)
  | .vec phys => .vec phys (BitVec.ofNat 4096 (natOfBytes bs)) false
  | .td i => .td i (BitVec.ofNat 256 (natOfBytes bs))
  | .handle h top =>
    match handleOf top (natOfBytes bs) with
    | some v => .handle h v
    | none => .advance h true 0

/-- What a load of a core reads: its local memory, or, where a remote write has taken a granule away since the load issued, what a read
at the home returns in this sc (05 R90; 06 R103, R104). -/
def State.loadBytes (s : State) (cid : CoreId) (addr n : Nat) : List Byte :=
  let c := s.core cid
  if (c.missing addr n).isNone then c.loc.lmem.bytes addr n
  else (cutAt 4096 addr n).flatMap fun (o, k) =>
    let a := addr + o
    match c.stashEntry a with
    | none => c.loc.lmem.bytes a k
    | some e =>
      let ia := e.ia + (a - e.lbase)
      if decide (a < c.stashBase) || c.present a then c.loc.lmem.bytes a k
      else match s.homePage ia with
        | some p => s.homeBytes p ia k
        | none => s.freeBytes k

/-- The loads of a core that read in this sc: what they deliver is on its way to its register; the first that fails at its home is a
violation of the core (05 R101; 06 R105). -/
def State.performLoads (s : State) (cid : CoreId) : State :=
  let c := s.core cid
  let read := c.loc.loads.filter fun l => l.due == c.sc
  if read.isEmpty then s
  else
    let fails := fun (l : LocalLoad) => s.stashFail cid l.addr l.len
    let got := (read.filter fun l => (fails l).isNone).map fun l =>
      ({ readyAt := l.readyAt, slot := l.slot, ord := l.ord, res := l.result (s.loadBytes cid l.addr l.len) } : Pending)
    let t := s.modCore cid fun c =>
      { c with pend := c.pend ++ got, loc := { c.loc with loads := c.loc.loads.filter fun l => l.due != c.sc } }
    let t := read.foldl (fun t l => t.asked cid l.addr l.len) t
    match read.findSome? fails with
    | some (cls, addr) => t.violation cid cls addr c.pc
    | none => t

/-- Loads that read in this sc read, then the stores of this sc take effect, then the results of this sc become
readable (06 R105, 07 R139). -/
def State.settle (s : State) (cid : CoreId) : State :=
  let c := s.core cid
  let sc := c.sc
  let s := s.performLoads cid
  let stores := c.loc.stores.filter fun st => st.due == sc
  let s := s.modCore cid fun c => { c with loc := { c.loc with stores := c.loc.stores.filter fun st => st.due != sc } }
  let s := stores.foldl (fun s st => s.performStore cid st) s
  s.modCore cid fun c =>
    let due := duePending c.pend sc
    let c := due.foldl Core.commit c
    { c with landed := due.filterMap fun p => match p.res with | .vec phys _ false => some phys | _ => none
             pend := c.pend.filter fun p => p.readyAt != sc
             bypass := c.bypass.filter fun b => decide (sc < b.readyAt + 3 * c.vecScale) }

/-- The core's next sc begins. -/
def State.tick (s : State) (cid : CoreId) : State :=
  let s := s.modCore cid fun c => { c with pPrev := c.p, cyc := c.cyc + 1, tick := c.tick + c.scTicks }
  s.settle cid

/-- So many sc pass on a core. -/
def State.ticks (s : State) (cid : CoreId) : Nat → State
  | 0 => s
  | n + 1 => State.ticks (s.tick cid) cid n

/-- Local memory as a core's loads that issue now will find it: with every store of an earlier bundle that is still
in flight (06 R105, R106). -/
def Core.localView (c : Core) (issue a n : Nat) : List Byte :=
  let m := (c.loc.stores.filter fun st => decide (st.issue < issue)).foldl
    (fun m st => Mem.put m st.addr (st.final (m.get st.last))) c.loc.lmem
  m.bytes a n

/-- The bytes of its own scratchpad that a queued command sees: stores of its own and later bundles undone, those of
earlier bundles done (06 R106). -/
def Core.cmdView (c : Core) (k : Cmd) (a n : Nat) : List Byte :=
  ((c.localView k.issue a n).zip (List.range n)).map fun (b, i) => (lookupKey (a + i) k.kept).getD b

/-! ### Loops -/

/-- The active record that a bundle ends, the most recently started one first (08 R152); records masked by a handler's
entry match nothing (19 R346). -/
def Core.endingLoop (c : Core) (pc : Word) : Option (Fin 4) :=
  (List.finRange 4).foldl (fun best n =>
    let r := c.loops[n]
    let later := match best with
      | none => true
      | some m => decide (c.loops[m].order < r.order)
    if r.active && !r.maskU && !r.maskS && r.stop == pc && later then some n else best) none

/-- The stage predicates shifted upward, p8 set while iterations remain (08 R152); the nullifier sees them as the loop-back sets
them (07 R138). -/
def Core.shiftStages (c : Core) (more : Bool) : Core :=
  let shift := fun (old : Vector Bool 16) => Vector.ofFn fun i : Fin 16 =>
    if i.val < 8 then old[i] else if i.val = 8 then more else c.p[i.val - 1]
  { c with p := shift c.p, pPrev := shift c.pPrev }

/-- One record of a loop written. -/
def Core.setLoop (c : Core) (n : Fin 4) (r : LoopRec) : Core := { c with loops := c.loops.set n.val r }

/-- One loop counter written. -/
def Core.setLc (c : Core) (n : Fin 4) (v : BitVec 32) : Core := { c with ctl := { c.ctl with lc := c.ctl.lc.set n.val v } }

/-- Loop-back at the bundle at pc, or the bundle after it: the pc becomes the next bundle's (08 R152), with fuel for
the four records. -/
def Core.loopBack : Nat → Core → Core
  | 0, c => { c with pc := c.pc + 32 }
  | fuel + 1, c =>
    match c.endingLoop c.pc with
    | none => { c with pc := c.pc + 32 }
    | some n =>
      let r := c.loops[n]
      let k := c.ctl.lc[n]
      if 1 < k.toNat then
        let c := c.setLc n (k - 1)
        let c := if r.modulo then (c.shiftStages (decide (r.stages - 1 < k.toNat - 1))).rotate c.ctl.rstep.toNat else c
        { c with pc := r.start }
      else Core.loopBack fuel ((c.setLc n 0).setLoop n { r with active := false })

/-- The bundle at pc has issued or is skipped: loop-back, then the next bundle. -/
def Core.advance (c : Core) : Core := c.loopBack 4

/-! ### Traps -/

/-- Causes of the system class (19 R343). -/
def systemCause (cause : Nat) : Bool := cause == 0x0E || cause == 0x14 || cause == 0x15

/-- tcause as a trap leaves it (19 R350). -/
def tcauseValue (cause slot : Nat) (sync uh : Bool) : Nat :=
  cause % 256 + slot % 8 * 2 ^ 8 + b2n sync * 2 ^ 11 + b2n uh * 2 ^ 12

/-- Every trap empties the bypass network: transient results, readable or still in flight, are lost (03 R51). -/
def Core.dropTransient (c : Core) : Core :=
  { c with bypass := []
           pend := c.pend.filter fun p => match p.res with | .vec _ _ true => false | _ => true }

/-- Where a user-class trap of a core goes: its region's handler entry (02 R39). -/
def State.userEntry (s : State) (cid : CoreId) : Word := (s.regionOf cid).elim 0 (·.handler)

/-- The bytes of a trap record (19 R346). -/
def trapRecord (tcause : Nat) (tbaddr t0 t1 : Word) : List Byte :=
  bytesOfNat 4 tcause ++ bytesOfNat 4 0 ++ bytesOfNat 8 tbaddr.toNat ++ bytesOfNat 8 t0.toNat ++ bytesOfNat 8 t1.toNat

/-- Entry into the region's user handler: the trap record as a store of the core's own stream, uret, tstat.uh, the handler's first
bundle three sc later (19 R346). A record in a bank that is gated or waking is a violation of the core's (22 R390). -/
def State.enterUser (s : State) (cid : CoreId) (tcause : Nat) (tbaddr t0 t1 : Word) : State :=
  let entry := s.userEntry cid
  let c := (s.core cid).dropTransient
  if c.gatedSpan c.sys.trapRec 32 then s.violation cid clsLocal c.sys.trapRec tbaddr
  else
    let record : LocalStore :=
      { due := c.sc + 2, slot := 0, issue := c.issue, addr := c.sys.trapRec, bytes := trapRecord tcause tbaddr t0 t1, half := false }
    let s := s.setCore cid { c with
      sys := { c.sys with uret := tbaddr, uh := true }
      loops := c.loops.map fun r => { r with maskU := r.maskU || r.active }
      loc := { c.loc with stores := c.loc.stores ++ [record] }
      pc := entry, jump := none, skipRun := 0 }
    s.ticks cid 3

/-- Entry into the supervisor handler at shentry in privileged mode (19 R346). -/
def State.enterSystem (s : State) (cid : CoreId) (cause tcause : Nat) (tbaddr t0 t1 : Word) : State :=
  let c := (s.core cid).dropTransient
  let y := c.sys
  let s := s.setCore cid { c with
    sys := { y with
      tcause := BitVec.ofNat 32 tcause, tbaddr := tbaddr, tinfo0 := t0, tinfo1 := t1
      pm := y.mode, sh := true, mode := true, held := 0
      inPfw := y.inPfw || cause == 0x14
      pfbud := if cause == 0x14 then 4096 else y.pfbud }
    loops := c.loops.map fun r => { r with maskS := r.maskS || r.active }
    pc := y.shentry, jump := none, skipRun := 0 }
  s.ticks cid 3

/-- A trap is taken: to the user handler, to the supervisor handler, or, where 19 R343, R349 and R354 say so, the task
ends. Every register named there is written; nothing else of the core is saved. -/
def State.takeTrap (s : State) (cid : CoreId) (slot cause : Nat) (sync : Bool) (t0 t1 tbaddr : Word) : State :=
  let y := (s.core cid).sys
  let tcause := tcauseValue cause slot sync y.uh
  if sync && y.uh && !systemCause cause then
    s.fatal cid (BitVec.ofNat 64 causeFatal) tbaddr (BitVec.ofNat 64 (0x10000 + cause)) 0
  else if systemCause cause || y.mode then
    if sync && y.sh then s.fatal cid (BitVec.ofNat 64 causeFatal) tbaddr (BitVec.ofNat 64 (0x20000 + cause)) 0
    else s.enterSystem cid cause tcause tbaddr t0 t1
  else if s.userEntry cid == 0 then s.fatal cid (BitVec.ofNat 64 cause) tbaddr t0 t1
  else s.enterUser cid tcause tbaddr t0 t1

/-- What the issuing instruction meets is taken at its own bundle (19 R342, 05 R101). -/
def State.takeRaise (s : State) (r : Raise) : State :=
  let pc := s.me.pc
  match r with
  | .trap cause t0 t1 =>
    -- SWTRAP names the bundle that would issue next (08 R163)
    let s := if cause == 0x13 then s.modMe (·.advance) else s
    s.takeTrap s.cur s.curSlot.num cause true t0 t1 s.me.pc
  | .violation cls addr => s.violation s.cur cls addr pc
  | .fatal t0 t1 => s.fatal s.cur (BitVec.ofNat 64 causeFatal) pc t0 t1

/-- What the issuing instruction meets: taken, or, while the issue logic tries a bundle, noted (07 R125). -/
def State.raise (s : State) (r : Raise) : State := if s.trial then { s with met := some r } else s.takeRaise r

/-- The trap an instruction meets if it meets one, else its effect. -/
def State.orRaise (s : State) (r : Option Raise) (effect : State → State) : State :=
  match r with
  | some r => s.raise r
  | none => effect s

/-- Precedence within a bundle: ILLEGAL, PRIV, VWIN, then any other (07 R125). -/
def Raise.rank : Raise → Nat
  | .trap 0x01 _ _ => 0
  | .trap 0x02 _ _ => 1
  | .trap 0x03 _ _ => 2
  | _ => 3

/-- What a list of checks raises: the first failure of the best rank. -/
def pickRaise (l : List (Option Raise)) : Option Raise :=
  l.foldl (fun best r =>
    match best, r with
    | none, r => r
    | best, none => best
    | some b, some r => if r.rank < b.rank then some r else some b) none

/-- A check that fails with a raise where its condition holds. -/
def failIf (b : Bool) (r : Raise) : Option Raise := if b then some r else none

/-- An asynchronous trap becomes pending on a core (19 R344). -/
def State.pendAsync (s : State) (cid : CoreId) (cause : Nat) (t0 t1 : Word) : State :=
  s.modCore cid fun c =>
    { c with sys := { c.sys with asyncs := c.sys.asyncs ++ [{ cause := cause, tinfo0 := t0, tinfo1 := t1, since := c.sc }] } }

/-- TRET: to uret, with tstat.uh cleared for the next bundle; register-branch timing (08 R148, R164; 19 R350). -/
def State.userReturn (s : State) : State :=
  (s.modMe fun c => { c with pc := c.sys.uret, jump := some 3 }).emit 1 .tret

/-- RTE: to tbaddr, mode := tstat.pm, tstat.sh := 0 for the next bundle; register-branch timing (19 R351). -/
def State.systemReturn (s : State) : State :=
  (s.modMe fun c => { c with pc := c.sys.tbaddr, jump := some 3 }).emit 1 .rte

/-- ILLEGAL names the slot word (19 R343). -/
def State.illegal (s : State) : Raise := .trap 0x01 (zext s.curWord) 0

/-- PRIV names the slot word (19 R343). -/
def State.priv (s : State) : Raise := .trap 0x02 (zext s.curWord) 0

/-- A privileged instruction in user mode (07 R124, 19 R341). -/
def State.privCheck (s : State) : Option Raise := failIf (!s.me.sys.mode) s.priv

/-- VWIN for the first register name that the windows refuse (03 R47, 19 R343). -/
def State.vwinCheck (s : State) (names : List Nat) : Option Raise :=
  (names.find? s.me.badName).map fun n => .trap 0x03 (BitVec.ofNat 64 n) 0

/-- HANDLE names the handle (19 R343). -/
def handleTrap (h : BitVec 4) : Raise := .trap 0x06 (zext h) 0

/-- TDESC names the descriptor (03 R57, 19 R343). -/
def tdescTrap (td : BitVec 6) : Raise := .trap 0x07 (zext td) 0

/-- A core's own local access checked at issue: the violation it is (05 R101). -/
def State.localAccess (s : State) (a n : Nat) (write : Bool) : Option Raise :=
  (s.me.localCheck a n write).map fun cls => .violation cls a

end Sys2Proof.Machine
end

