-- ==== Sys2Proof/Machine/Flags.lean ====
section
/-! DEFINITION. What conversions count and when CONVTHR is taken (04 R71, R76-R78; 19 R348), and the rounding
generator that conversions sample. -/

namespace Sys2Proof.Machine

/-- What a list of conversions adds to cvsat, cvflz and cvnan (04 R76). -/
def convCounts (l : List Conv) : Nat × Nat × Nat :=
  (l.countP (·.sat), l.countP (·.flz), l.countP (·.nan))

/-- A counter, 0 cvsat, 1 cvflz, 2 cvnan. -/
def Ctl.counter (t : Ctl) (k : Nat) : Nat :=
  match k with
  | 0 => t.cvsat.toNat
  | 1 => t.cvflz.toNat
  | _ => t.cvnan.toNat

/-- What a result of the current bundle does to the running value of a counter: an MTC sets it, increments add
(04 R77, R78). MTC stands in slot s, before every counted conversion. -/
def runCounter (k value : Nat) : Result → Nat
  | .ctrl index v => if index = 0x11 + k then v.toNat % 2 ^ 32 else value
  | .counts sat flz nan => satAdd 0xFFFFFFFF value (match k with | 0 => sat | 1 => flz | _ => nan)
  | _ => value

/-- The running value of a counter within the bundle that issues (04 R77). -/
def Core.running (c : Core) (k : Nat) : Nat :=
  (c.pend.filter fun p => p.ord == c.issue).foldl (fun v p => runCounter k v p.res) (c.ctl.counter k)

/-- A counter that starts at v passes a threshold when n is added (04 R77). -/
def passes (thr v n : Nat) : Bool := decide (0 < n) && decide (thr < satAdd 0xFFFFFFFF v n)

/-- The lowest-numbered counter that passes (19 R348). -/
def firstPass (thr : Nat) (value add : Nat → Nat) : Option Nat :=
  [0, 1, 2].find? fun k => passes thr (value k) (add k)

/-- One of three numbers. -/
def pick3 (x : Nat × Nat × Nat) : Nat → Nat
  | 0 => x.1
  | 1 => x.2.1
  | _ => x.2.2

/-- The precise CONVTHR of a counted conversion of the issuing slot (04 R77, 19 R348). -/
def State.convTrap (s : State) (n : Nat × Nat × Nat) : Option Raise :=
  (firstPass s.me.ctl.cvthr.toNat s.me.running (pick3 n)).map fun k =>
    .trap 0x0D (BitVec.ofNat 64 (s.curSlot.num + k * 16)) 0

/-- Increments of a counted conversion, seen by later bundles. -/
def State.emitCounts (s : State) (n : Nat × Nat × Nat) : State :=
  if n.1 + n.2.1 + n.2.2 = 0 then s else s.emit 1 (.counts n.1 n.2.1 n.2.2)

/-- The deferred application of a batch's or a command's increments with the check that follows; queue names the
queue, num the batch or command (04 R77, 19 R348). -/
def State.applyCounts (s : State) (cid : CoreId) (n : Nat × Nat × Nat) (queue num : Nat) : State :=
  let t := (s.core cid).ctl
  let s := s.modCore cid fun c =>
    { c with ctl := { t with
        cvsat := BitVec.ofNat 32 (satAdd 0xFFFFFFFF t.cvsat.toNat n.1)
        cvflz := BitVec.ofNat 32 (satAdd 0xFFFFFFFF t.cvflz.toNat n.2.1)
        cvnan := BitVec.ofNat 32 (satAdd 0xFFFFFFFF t.cvnan.toNat n.2.2) } }
  match firstPass t.cvthr.toNat t.counter (pick3 n) with
  | some k => s.pendAsync cid 0x0D (BitVec.ofNat 64 (k * 2 ^ 4 + queue * 2 ^ 8 + num % 2 ^ 16 * 2 ^ 16 + 2 ^ 63)) 0
  | none => s

/-- The significant bits of a format and the bits of its range above 1; b4 with its block's scale of up to 2^30 (03 R46; 04 R63, R68). -/
def fmtReach : Fmt → Nat × Nat
  | .f32 => (24, 128)
  | .bf16 => (8, 128)
  | .f16 => (11, 16)
  | .e4m3 => (4, 9)
  | .e5m2 => (3, 16)
  | .b4 => (3, 34)
  | .i8 => (7, 7)
  | .n8 => (8, 8)
  | .i16 => (15, 15)
  | .i32 => (31, 31)
  | .n32 => (32, 32)

/-- A format of integers. -/
def fmtWhole : Fmt → Bool
  | .i8 | .n8 | .i16 | .i32 | .n32 => true
  | _ => false

/-- A conversion from one format to another is into fewer fraction bits or a smaller range, so that stochastic rounding may apply
(04 R71; log 10). -/
def narrows (source target : Option Fmt) : Bool :=
  match source, target with
  | some a, some b =>
    (fmtWhole b && !fmtWhole a) || decide ((fmtReach b).1 < (fmtReach a).1) || decide ((fmtReach b).2 < (fmtReach a).2)
  | _, _ => false

/-- How a conversion that takes its rounding from fmode rounds element i (04 R70, R71). -/
def fmodeRounding (fmode : BitVec 12) (lfsr : BitVec 32) (i : Nat) : Rounding :=
  if modeSR fmode then .stochastic (lfsrDraw lfsr i) else .mode (modeRM fmode)

/-- The LFSR steps once after an instruction that samples it (04 R71); within a bundle each sampling instruction sees
the state the one before it left. -/
def State.stepLfsr (s : State) (sampled : Bool) : State :=
  if sampled then s.modMe fun c => { c with ctl := { c.ctl with lfsr := lfsrStep c.ctl.lfsr } } else s

end Sys2Proof.Machine
end

