-- ==== Sys2Proof/Machine/Operands.lean ====
section
/-! DEFINITION. Tensor descriptors: their fields and the checks of use (03 R56, R57; 10 R209; 12 R244), the places of
their elements, and what an instruction reads of one at issue; handles (03 R53-R55). -/

namespace Sys2Proof.Machine

/-- A use of descriptor number i, which must be of one of these spaces: PRIV for space 8 in user mode, TDESC, or VWIN
for a register it names (03 R47, R57; 10 R208). -/
def State.tdCheck (s : State) (i : BitVec 6) (spaces : List Nat) (link : Bool := false) : Option Raise :=
  let d := s.me.td[i.toNat]
  if tdSpace d == 8 && !s.me.sys.mode then some s.priv
  else if !tdOk d || !spaces.contains (tdSpace d) || (link && !tdLink d) then some (tdescTrap i)
  else if tdSpace d == 4 then s.vwinCheck ((tdNames d).1 ++ (tdNames d).2)
  else none

/-- The descriptor with its space-4 names mapped, as an instruction reads it at issue (10 R209). -/
def Core.opnd (c : Core) (i : BitVec 6) : Opnd :=
  let d := c.td[i.toNat]
  if tdSpace d == 4 then { td := d, regs := (tdNames d).1.map c.phys, sregs := (tdNames d).2.map c.phys } else { td := d }

/-- OMSLOT names the first slot that failed (19 R343). -/
def omslotTrap (slot : Nat) : Raise := .trap 0x0A (BitVec.ofNat 64 slot) 0

/-- Every slot of a list can be named by the core (12 R245, R246). -/
def Core.slotCheck (c : Core) (slots : List Nat) : Option Raise :=
  (slots.find? fun i => decide (63 < i) || !c.mx.names.getLsbD i).map omslotTrap

/-- A command names a handle (03 R53, R55). -/
def CmdKind.names (k : CmdKind) (h : BitVec 4) : Bool :=
  match k with
  | .copyh g _ _ => g == h
  | .decomp _ _ _ _ _ => h == 15
  | _ => false

end Sys2Proof.Machine
end

