-- ==== Sys2Proof/Machine/Access.lean ====
section
/-! DEFINITION. Accesses on their way to where they perform: how a tensor operand becomes accesses (05 R86, R92-R94;
10 R209; 12 R244), and how one performs at its home, in a scratchpad, a register, operand memory or SCM (05 R97, R101,
R102; 06 R103, R104, R114; 10 R216, R217; 21 R375). -/

namespace Sys2Proof.Machine

/-! ### From operands to accesses -/

/-- The core of the issuing hoop at a signed offset (01 R22). -/
def State.neighbour (s : State) (c : CoreId) (dx dy : Int) : Option CoreId :=
  let t := (s.core c).ctl
  let x := (t.hx.toNat : Int) + dx
  let y := (t.hy.toNat : Int) + dy
  if 0 ≤ x ∧ x < t.hw.toNat ∧ 0 ≤ y ∧ y < t.hh.toNat then
    match s.taskOf c with
    | some task => task.cores.find? fun d => ((s.core d).ctl.hx.toNat : Int) == x && ((s.core d).ctl.hy.toNat : Int) == y
    | none => if dx == 0 && dy == 0 then some c else none
  else none

/-- Where the n bytes at an offset of a descriptor's elements stand, as seen by a command of core c: pieces with their
place in the operand's stream. Global pieces lie within one 128-byte line. -/
def State.runPieces (s : State) (c : CoreId) (wins : Vector Window 8) (need : Need) (o : Opnd) (media : Bool)
    (off place n : Nat) : List (Target × Nat × Nat) :=
  let d := o.td
  let p := tdPlaceBits d
  match tdSpace d with
  | 0 => [(.scratch c (p + off), place, n)]
  | 1 =>
    let dx := (BitVec.ofNat 4 (bitsOf p 52 4)).toInt
    let dy := (BitVec.ofNat 4 (bitsOf p 48 4)).toInt
    match s.neighbour c dx dy with
    | some e => [(.scratch e (bitsOf p 0 20 + off), place, n)]
    | none => [(.bad clsLocal (bitsOf p 0 20 + off), place, n)]
  | 2 => [(.operand (clusterOf c) false (p * 32768 + off), place, n)]
  | 3 => (cutAt 128 (p + off) n).map fun (o, k) =>
      (match translate wins need (p + off + o) with
        | .ok ia => .global ia
        | .error e => .bad e (p + off + o), place + o, k)
  | 4 => (cutAt 512 off n).map fun (k, m) => (.vreg c (o.regs.getD ((off + k) / 512) 0) ((off + k) % 512), place + k, m)
  | 7 =>
    let va := bitsOf p 0 48 + off
    (cutAt 128 va n).map fun (o, k) =>
      (match s.translatePeer wins need (BitVec.ofNat 4 (bitsOf p 52 4)) (BitVec.ofNat 4 (bitsOf p 48 4)) (va + o) with
        | .ok ia => .global ia
        | .error e => .bad e (va + o), place + o, k)
  | _ => [(if 2 ^ 41 < p + off + n then .bad clsMedia (p + off) else .scm media (p + off), place, n)]

/-- Where n scale bytes of a b4 operand stand from scale byte `off` on, and their place in its stream (10 R209,
12 R244). -/
def State.scaleRun (s : State) (c : CoreId) (wins : Vector Window 8) (need : Need) (o : Opnd) (media : Bool)
    (off n : Nat) : List (Target × Nat × Nat) :=
  let d := o.td
  if n = 0 then []
  else match tdSpace d with
    | 2 => [(.operand (clusterOf c) true (tdPlaceBits d * 2048 + off), scalePlace + off, n)]
    | 4 => (cutAt 512 off n).map fun (k, m) =>
        (.vreg c (o.sregs.getD ((off + k) / 512) 0) ((off + k) % 512), scalePlace + off + k, m)
    | _ => s.runPieces c wins need o media (tdScaleOff d + off) (scalePlace + off) n

/-- Every byte of an operand, elements then scale bytes. -/
def State.pieces (s : State) (c : CoreId) (wins : Vector Window 8) (need : Need) (o : Opnd) (media : Bool := false) :
    List (Target × Nat × Nat) :=
  ((tdRuns o.td).flatMap fun (off, place, n) =>
    s.runPieces c wins need o media
      (if tdSpace o.td == 4 then place else off) place n)
    ++ s.scaleRun c wins need o media 0 (tdScales o.td)

/-- Bytes of the elements of rows [r0, r0 + rn) and columns [c0, c0 + cn) of an operand, with the scale bytes of their
blocks. -/
def State.windowPieces (s : State) (c : CoreId) (wins : Vector Window 8) (need : Need) (o : Opnd) (r0 rn c0 cn : Nat) :
    List (Target × Nat × Nat) :=
  let d := o.td
  (tdWindow d r0 rn c0 cn).flatMap (fun (off, place, n) =>
      s.runPieces c wins need o false (if tdSpace d == 4 then place else off) place n)
    ++ (if tdScales d = 0 then [] else ((List.range rn).map (r0 + ·)).flatMap fun r =>
      let lo := (r * tdCols d + c0) / 32
      s.scaleRun c wins need o false lo ((r * tdCols d + c0 + cn - 1) / 32 + 1 - lo))

/-- Bytes of some rows of an operand, elements then scale bytes. -/
def State.rowPieces (s : State) (c : CoreId) (wins : Vector Window 8) (need : Need) (o : Opnd) (media : Bool)
    (rows : List Nat) : List (Target × Nat × Nat) :=
  let d := o.td
  let per := if tdScales d = 0 then 0 else tdCols d / 32
  ((tdRuns d).filter fun (_, place, _) => rows.contains (place * 8 / tdBits d / tdCols d)).flatMap (fun (off, place, n) =>
      s.runPieces c wins need o media (if tdSpace d == 4 then place else off) place n)
    ++ rows.flatMap fun r => s.scaleRun c wins need o media (r * per) per

/-- The accesses that read pieces of an operand for an owner. -/
def readAccesses (owner : Owner) (who : Requester) (l : List (Target × Nat × Nat)) : List Access :=
  l.map fun (t, place, n) => { owner := owner, target := t, op := .read n place, requester := who }

/-- The accesses that write pieces of an operand, given the bytes of its stream. -/
def writeAccesses (owner : Owner) (who : Requester) (m : Mem) (l : List (Target × Nat × Nat)) : List Access :=
  l.map fun (t, place, n) => { owner := owner, target := t, op := .write (m.bytes place n), requester := who }

/-! ### Performing -/

/-- Where the second operand of an MMAR stands among the bytes it has read. -/
def operandB : Nat := 2 ^ 42

/-- The bytes that an access covers. -/
def AccessOp.size : AccessOp → Nat
  | .read n _ => n
  | .write bs => bs.length
  | .amo _ w _ _ => w
  | .flush n _ => n

/-- A part of an operation. -/
def AccessOp.part (o : AccessOp) (off len : Nat) : AccessOp :=
  match o with
  | .read _ put => .read len (put + off)
  | .write bs => .write ((bs.drop off).take len)
  | .amo op w v e => .amo op w v e
  | .flush _ l => .flush len l

/-- A target moved on by some bytes. -/
def Target.add (t : Target) (off : Nat) : Target :=
  match t with
  | .global ia => .global (ia + off)
  | .scratch c a => .scratch c (a + off)
  | .vreg c p o => .vreg c p (o + off)
  | .operand cl side a => .operand cl side (a + off)
  | .scm m a => .scm m (a + off)
  | .bad cls a => .bad cls (a + off)

/-- A part of an access. -/
def Access.part (a : Access) (off len : Nat) : Access := { a with target := a.target.add off, op := a.op.part off len }

/-- What remains of an access after a part of it has performed. -/
def Access.rest (a : Access) (off len : Nat) : List Access :=
  let n := a.op.size
  (if off = 0 then [] else [a.part 0 off]) ++ (if n ≤ off + len then [] else [a.part (off + len) (n - off - len)])

/-- The first byte of a target, with a key of its memory, where accesses to the same bytes keep their order. -/
def Target.place : Target → Option (Nat × Nat)
  | .global ia => some (0, ia)
  | .scratch c a => some (1 + c.val, a)
  | .vreg c p o => some (257 + c.val, p * 512 + o)
  | .operand cl side a => some (513 + cl.val * 2 + b2n side, a)
  | .scm _ a => some (641, a)
  | .bad _ _ => none

/-- Two accesses touch a byte in common. -/
def Access.overlaps (a b : Access) : Bool :=
  match a.target.place, b.target.place with
  | some (k, x), some (l, y) => k == l && decide (x < y + b.op.size) && decide (y < x + a.op.size)
  | _, _ => false

/-- An atomic's new value (10 R216). Operation 9 adds f32 values to nearest even without flushing. -/
def amoValue (op : BitVec 4) (width old v : Nat) : Nat :=
  let m := 2 ^ (8 * width)
  let signed := fun x => signedOf (8 * width) x
  match op.toNat with
  | 0 => (old + v) % m
  | 1 => old &&& v
  | 2 => old ||| v
  | 3 => old ^^^ v
  | 4 => v
  | 5 => if signed old ≤ signed v then old else v
  | 6 => if signed v ≤ signed old then old else v
  | 7 => min old v
  | 8 => max old v
  | _ => FFmt.f32.res .rne false ((FFmt.f32.value false old).add false (FFmt.f32.value false v))

/-- What an atomic writes, given the old value; none where a comparison fails (10 R216, R217). -/
def amoWrite (op : BitVec 4) (width old v : Nat) (expected : Option Nat) : Option Nat :=
  match expected with
  | none => some (amoValue op width old v)
  | some e => if old = e then some v else none

/-- An operation at a resident page of this module (06 R104, R114). -/
def State.performHome (s : State) (who : Requester) (p : Page) (ia : Nat) (op : AccessOp) : State × List Byte :=
  match op with
  | .read n _ => s.homeRead p ia n
  | .write bs => (s.homeWrite who p ia bs, [])
  | .flush _ l => (s.homeFlush who p ia l, [])
  | .amo o w v e =>
    let (s, old) := s.homeRead p ia w
    match amoWrite o w (natOfBytes old) v e with
    | some x => (s.homeWrite who p ia (bytesOfNat w x), old)
    | none => (s, old)

/-- What a peer's answer gives: the bytes it returns, a violation with the address, or nothing where the answer does
not fit the request (05 R101, R102). -/
def peerResult (ia n : Nat) (reads : Bool) (ans : PeerAnswer) : Option (Except (Nat × Nat) (List Byte)) :=
  match ans with
  | .ok bs => if reads && bs.length != n then none else some (.ok (if reads then bs else []))
  | .noModule => some (.error (clsNoModule, ia))
  | .hibernating => some (.error (clsHibernating, ia))
  | .refused => some (.error (clsPeerRefused, ia))

/-- The operation returns bytes. -/
def AccessOp.reads : AccessOp → Bool
  | .write _ | .flush _ _ => false
  | _ => true

/-- The operation writes at its home. -/
def AccessOp.writes : AccessOp → Bool
  | .read _ _ => false
  | _ => true

/-- An access to global memory performs: at a home on this module, or at a peer with its answer. None while the page is
held by a migration (21 R379) or the answer does not fit. A memory-side failure names the intermediate address. -/
def State.performGlobal (s : State) (who : Requester) (hint ia : Nat) (op : AccessOp) (ans : PeerAnswer) :
    Option (Except (Nat × Nat) (State × List Byte)) :=
  if !s.onModule ia then
    if !s.isTrained (iaModule ia) then some (.error (clsNoModule, ia))
    else (peerResult ia op.size op.reads ans).map fun r => r.map fun bs => (s, bs)
  else if s.isHeld (iaLocal ia) then none
  else match s.checkPage who (s.page (iaLocal ia)) with
    | .error e => some (.error (e, ia))
    | .ok p =>
      some (.ok ((s.reach who p ia op.size hint op.writes).performHome who p ia op))

/-- A core's queued command, where it still stands in its queue. -/
def State.cmdOf (s : State) (o : Owner) : Option (CoreId × Cmd) :=
  match o with
  | .cmd c _ id => ((s.core c).q.all.find? fun k => k.id == id).map fun k => (c, k)
  | _ => none

/-- The retention hint of a command's access to some place: that of the descriptor it goes through (05 R99). -/
def CmdKind.retain (k : CmdKind) (write : Bool) (put : Nat) : Nat :=
  match k with
  | .copy d s _ _ => tdRetain (if write then d else s).td
  | .mma a b _ _ _ _ _ => tdRetain (if put < operandB then a else b).td
  | .ddict o | .bkvec o _ _ | .mdrain o | .macc o | .chend _ o => tdRetain o.td
  | .chain _ _ o _ _ => tdRetain o.td
  | .chgrad _ _ g _ _ => tdRetain g.td
  | .decomp d i entries _ _ => tdRetain (if entries.isNone then i else d)
  | _ => 0

/-- The retention hint of an access: that of its instruction, or of the descriptor (05 R99, 10 R210, R223). -/
def State.hintOf (s : State) (a : Access) : Nat :=
  let put := match a.op with | .read _ p => p | _ => 0
  match a.owner with
  | .job id => (((s.jobs.find? fun j => j.id == id).bind (·.vec)).map fun o => tdRetain o.td).getD 0
  | o =>
    match s.cmdOf o with
    | some (_, k) => k.hint.getD (k.kind.retain a.op.writes put)
    | none => 0

/-- The bytes of a range that a STFLUSH has captured and nothing has overtaken (10 R220). -/
def State.captured (s : State) (o : Owner) (ia n : Nat) : List (Nat × Byte) :=
  match s.cmdOf o with
  | some (_, k) => (match k.kind with | .stflush l => l.filter (fun p => decide (ia ≤ p.1) && decide (p.1 < ia + n)) | _ => [])
  | none => []

/-- Bytes of a granule that maps to an intermediate address are dirty no longer. -/
def Granule.cleanCells (g : Granule) (ia : Nat) (l : List (Nat × Byte)) : Granule :=
  { g with dirty := l.foldl (fun m p =>
      if p.1 / 4096 == ia / 4096 then BitVec.ofNat 4096 (withBits m.toNat (p.1 - ia) 1 0) else m) g.dirty }

/-- Captured bytes have reached their home: they are dirty no longer in the granule that stays (10 R220). -/
def Core.cleanCells (c : Core) (l : List (Nat × Byte)) : Core :=
  let clean := fun (g : Granule) => (c.granuleIa g).elim g fun ia => g.cleanCells ia l
  { c with loc := { c.loc with granules := c.loc.granules.map clean } }

/-- An engine's read of a scratchpad: the core's own commands see its memory as of their issue (06 R106). -/
def State.readScratch (s : State) (o : Owner) (c : CoreId) (a n : Nat) : List Byte :=
  match s.cmdOf o with
  | some (d, k) => if d == c then (s.core c).cmdView k a n else (s.core c).loc.lmem.bytes a n
  | none => (s.core c).loc.lmem.bytes a n

/-- Bytes of SCM: the media, or what the write buffer holds over them (19 R353). -/
def State.scmByte (s : State) (media : Bool) (a : Nat) : Byte :=
  if media then s.scm.get a else (lookupKey a s.scmBuf).getD (s.scm.get a)

/-- A byte of SCM written: into the buffer, or onto the media, where a buffered byte then no longer stands (19 R353). -/
def State.scmPut (s : State) (media : Bool) (a : Nat) : List Byte → State
  | [] => s
  | b :: bs =>
    State.scmPut (if media then { s with scm := s.scm.set a b, scmBuf := dropKey a s.scmBuf }
      else { s with scmBuf := putKey a b s.scmBuf }) media (a + 1) bs

/-- An access to SCM meets an uncorrectable media error: one on the media itself, or a read that the buffer does not serve
(19 R353). -/
def State.scmBad (s : State) (media : Bool) (addr n : Nat) (reads : Bool) : Bool :=
  (List.range n).any fun i => Config.badMedia ((addr + i) / 4096) && (media || (reads && (lookupKey (addr + i) s.scmBuf).isNone))

/-- Bytes of a vector register replaced. -/
def vecPut (v : VecReg) (off : Nat) (bs : List Byte) : VecReg :=
  BitVec.ofNat 4096 (withBits v.toNat (8 * off) (8 * bs.length) (natOfBytes bs))

/-- The access is a bank engine's own. -/
def Access.ofEngine (a : Access) : Bool :=
  match a.owner with
  | .engine _ _ => true
  | _ => false

/-- An access performs: the state after it with the bytes it returns, the violation it meets, or none while it cannot
perform. -/
def State.performAccess (s : State) (a : Access) (ans : PeerAnswer) :
    Option (Except (Nat × Nat) (State × List Byte)) :=
  match a.target with
  | .bad cls addr => some (.error (cls, addr))
  | .global ia =>
    match a.op with
    | .flush n _ =>
      let l := s.captured a.owner ia n
      let clean := fun (t : State) => match a.requester with
        | .core c => t.modCore c (·.cleanCells l)
        | _ => t
      (s.performGlobal a.requester (s.hintOf a) ia (.flush n l) ans).map fun r => r.map fun x => (clean x.1, x.2)
    | op => (s.performGlobal a.requester (s.hintOf a) ia op ans).map fun r => r.map fun x =>
        (if a.ofEngine && op.writes then x.1.l2Invalidate ia op.size else x.1, x.2)
  | .scratch c addr =>
    match (s.core c).scratchCheck addr a.op.size with
    | some e => some (.error (e, addr))
    | none =>
      match a.op with
      | .read n _ => some (.ok (s, s.readScratch a.owner c addr n))
      | .write bs =>
        let mine := match a.owner with
          | .cmd d q id => if d == c then some (q, id) else none
          | .engine _ id => (s.jobs.find? fun j => j.id == id && j.core == some c && j.orphan.isNone).map fun j => (.bank, j.cmd)
          | _ => none
        some (.ok (s.modCore c fun x => x.engineWrite mine addr bs, []))
      | .amo _ _ _ _ | .flush _ _ => some (.ok (s, []))
  | .vreg c phys off =>
    match a.op with
    | .read n _ => some (.ok (s, ((vecBytes ((s.core c).fileV phys)).drop off).take n))
    | .write bs =>
      -- a result that became readable in this sc wins over the write (10 R210)
      some (.ok (s.modCore c fun x => if x.landed.contains phys then x else x.writePhys phys (vecPut (x.fileV phys) off bs), []))
    | .amo _ _ _ _ | .flush _ _ => some (.ok (s, []))
  | .operand cl side addr =>
    match a.op with
    | .read n _ => some (.ok (s, (if side then (s.cluster cl).side else (s.cluster cl).omem).bytes addr n))
    | .write bs =>
      some (.ok (s.modCluster cl fun x =>
        if side then { x with side := x.side.put addr bs } else { x with omem := x.omem.put addr bs }, []))
    | .amo _ _ _ _ | .flush _ _ => some (.ok (s, []))
  | .scm media addr =>
    if s.scmBad media addr a.op.size a.op.reads then some (.error (clsMedia, addr))
    else match a.op with
    | .read n _ => some (.ok (s, (List.range n).map fun i => s.scmByte media (addr + i)))
    | .write bs => some (.ok (s.scmPut media addr bs, []))
    | .amo _ _ _ _ | .flush _ _ => some (.ok (s, []))

/-- The access at place k of the list may perform: no earlier access of its owner touches its bytes on this module, and
one that comes after the others of its owner is alone (06 R107; 10 R205, R215). The words of the lease engine keep their order (15 R313). A bank engine's write into the scratchpad of a core
whose die is shed holds (14 R303). -/
def State.mayPerform (s : State) (k : Nat) (a : Access) : Bool :=
  let before := (s.accesses.take k).filter fun b => b.owner == a.owner && a.owner != .none
  let remote := match a.target with | .global ia => !s.onModule ia | _ => false
  let held := match a.owner, a.target with | .engine _ _, .scratch c _ => (s.core c).shed | _, _ => false
  let words := !a.leaseWord || !((s.accesses.take k).any (·.leaseWord))
  !held && words && (remote || before.all fun b => !b.overlaps a)
    && (!a.after || (s.accesses.filter fun b => b.owner == a.owner).length == 1)

/-- Some access of an owner is still on its way. -/
def State.outstanding (s : State) (o : Owner) : Bool := s.accesses.any fun a => a.owner == o

/-- The accesses of an owner are given up. -/
def State.dropOwner (s : State) (o : Owner) : State := { s with accesses := s.accesses.filter fun a => a.owner != o }

/-- Accesses set out. -/
def State.send (s : State) (l : List Access) : State := { s with accesses := s.accesses ++ l }

end Sys2Proof.Machine
end

