-- ==== Sys2Proof/Machine/Queues.lean ====
section
/-! DEFINITION. The five queues of a core as instructions and waits see them: entry, capacity and batches (10 R203-R207),
failures (R206), and when DRAIN, WAITQ and WAITB are satisfied (06 R112, 08 R155). -/

namespace Sys2Proof.Machine

/-- The commands of one queue, oldest first. -/
def Queues.get (q : Queues) : QueueId → List Cmd
  | .ca => q.ca
  | .cb => q.cb
  | .m => q.m
  | .bank => q.bank
  | .dec => q.dec

/-- One queue replaced. -/
def Queues.put (q : Queues) (i : QueueId) (l : List Cmd) : Queues :=
  match i with
  | .ca => { q with ca := l }
  | .cb => { q with cb := l }
  | .m => { q with m := l }
  | .bank => { q with bank := l }
  | .dec => { q with dec := l }

/-- Capacity in entries (10 R203, 12 R252). -/
def capacity : QueueId → Nat
  | .ca | .cb => 64
  | .m => 32
  | .bank | .dec => 16

/-- The queues that a mask names. -/
def maskList (q : QMask) : List QueueId :=
  (if q.ca then [.ca] else []) ++ (if q.cb then [.cb] else []) ++ (if q.m then [.m] else [])
    ++ (if q.bank then [.bank] else []) ++ (if q.dec then [.dec] else [])

/-- The copy queue of a C slot (10 R203). -/
def slotQueue (sl : Slot) : QueueId := if sl == .cb then .cb else .ca

/-! ### Batches -/

/-- The number of the open batch of a copy queue (10 R204). -/
def Queues.openNum (q : Queues) (cb : Bool) : Nat := if cb then q.nextBatchB else q.nextBatchA

/-- A batch by its queue and number. -/
def Queues.batch (q : Queues) (cb : Bool) (num : Nat) : Option Batch :=
  q.batches.find? fun b => b.cb == cb && b.num == num

/-- One batch changed. -/
def Queues.modBatch (q : Queues) (cb : Bool) (num : Nat) (f : Batch → Batch) : Queues :=
  { q with batches := q.batches.map fun b => if b.cb == cb && b.num == num then f b else b }

/-- The open batch of a queue stands among the batches (10 R204). -/
def Queues.withOpen (q : Queues) (cb : Bool) : Queues :=
  if (q.batch cb (q.openNum cb)).isSome then q
  else { q with batches := q.batches ++ [{ cb := cb, num := q.openNum cb }] }

/-- A new command enters a queue; `member` is the copy slot whose open batch it joins (10 R204, R205), `hint` the retention hint that its
instruction names (05 R99). -/
def Core.enqueue (c : Core) (i : QueueId) (kind : CmdKind) (member : Option Bool) (lfsr : BitVec 32) (hint : Option Nat := none) : Core :=
  let q := match member with | some cb => c.q.withOpen cb | none => c.q
  let place := member.map fun cb =>
    let num := q.openNum cb
    (cb, num, ((q.batch cb num).map (·.count)).getD 0)
  let q := match member with
    | some cb => q.modBatch cb (q.openNum cb) fun b => { b with count := b.count + 1 }
    | none => q
  let k : Cmd :=
    { id := q.nextId, issue := c.issue, kind := kind, batch := place, num := c.mx.numM, wins := c.sys.wins
      fmode := c.ctl.fmode, lfsr := lfsr, hint := hint }
  let c := { c with q := { q.put i (q.get i ++ [k]) with nextId := q.nextId + 1 } }
  if i == .m then { c with mx := { c.mx with numM := c.mx.numM + 1 } } else c

/-- The issuing core places a command in a queue. -/
def State.enqueue (s : State) (i : QueueId) (kind : CmdKind) (member : Option Bool := none) (hint : Option Nat := none) : State :=
  s.modMe fun c => c.enqueue i kind member c.ctl.lfsr hint

/-- The copy slot of the issuing instruction as a batch's queue. -/
def State.mySlotCb (s : State) : Bool := s.curSlot == .cb

/-- A command of a core changed. -/
def Core.modCmd (c : Core) (id : Nat) (f : Cmd → Cmd) : Core :=
  { c with q := c.q.mapAll fun k => if k.id == id then f k else k }

/-- A command leaves its queues. -/
def Core.dropCmd (c : Core) (id : Nat) : Core :=
  { c with q := { c.q with ca := c.q.ca.filter (·.id != id), cb := c.q.cb.filter (·.id != id), m := c.q.m.filter (·.id != id)
                           bank := c.q.bank.filter (·.id != id), dec := c.q.dec.filter (·.id != id) } }

/-- The batch of a command has been stopped by the failure of an earlier command of it (10 R206). -/
def Core.stopped (c : Core) (k : Cmd) : Bool :=
  match k.batch with
  | some (cb, num, index) => (((c.q.batch cb num).bind (·.stop)).map fun i => decide (i < index)).getD false
  | none => false

/-- A failure of a command noted in its batch: `first` is the lowest-numbered command that failed, and a violation or a decode failure
stops the batch. The record reports the lowest-numbered command that stopped it, or else the first failure (10 R205, R206; 11 R239; log 18). -/
def Batch.noteFail (b : Batch) (index status cls addr : Nat) : Batch :=
  { b with
    fail := match b.fail with
      | some (st, c, f, a) =>
        -- a stopping failure takes the record from an earlier INDEX, which is never fatal
        let stops := status != 2 && (b.stop.map fun i => decide (index < i)).getD true
        if stops then some (status, cls, min f index, addr) else some (st, c, min f index, a)
      | none => some (status, cls, index, addr)
    stop := if status == 2 then b.stop else some (match b.stop with | some i => min i index | none => index) }

/-- A batch's command has completed (10 R205): its bytes and counts join the batch's. -/
def Batch.add (b : Batch) (k : Cmd) : Batch :=
  { b with
    complete := b.complete + 1, bytes := b.bytes + k.bytes
    sat := satAdd 0xFFFFFFFF b.sat k.sat, flz := satAdd 0xFFFFFFFF b.flz k.flz, nan := satAdd 0xFFFFFFFF b.nan k.nan
    dueSat := b.dueSat + k.sat, dueFlz := b.dueFlz + k.flz, dueNan := b.dueNan + k.nan }

/-- Applies a batch's increments that are due, with the check that follows (04 R77). -/
def State.applyBatch (s : State) (c : CoreId) (b : Batch) : State :=
  let s := s.modCore c fun x =>
    { x with q := x.q.modBatch b.cb b.num fun b => { b with dueSat := 0, dueFlz := 0, dueNan := 0 } }
  s.applyCounts c (b.dueSat, b.dueFlz, b.dueNan) (b2n b.cb) b.num

/-- The fatal context error of a batch that no completion word reports (10 R206). -/
def State.batchFatal (s : State) (c : CoreId) (b : Batch) : State :=
  match b.fail with
  | some (_, cls, _, addr) => s.violationKill c cls addr (s.core c).pc
  | none => s

/-- What a batch that no completion word reports does once it counts as complete: a violation is fatal, a decode failure
traps DECODE once, unless RATIO has been taken for it (10 R206; 11 R239, R240). -/
def State.resolveBatch (s : State) (c : CoreId) (b : Batch) : State :=
  match b.fail with
  | some (1, _, _, _) => s.batchFatal c b
  | some (3, _, _, addr) =>
    if b.ratio then s
    else (s.modCore c fun x => { x with q := x.q.modBatch b.cb b.num fun b => { b with ratio := true } }).pendAsync c 0x11
      (Config.commandName b.cb b.num (b.stop.getD 0)) (BitVec.ofNat 64 addr)
  | _ => s

/-- An open batch that a wait or EXIT counts complete: its increments apply, and a violation it holds is fatal
(04 R77; 10 R206, R207). -/
def State.countOpen (s : State) (c : CoreId) (cb : Bool) : State :=
  match (s.core c).q.batch cb ((s.core c).q.openNum cb) with
  | some b =>
    if b.count == b.complete then
      (s.applyBatch c b).resolveBatch c b
    else s
  | none => s

/-- Incomplete batches of a core (10 R207). -/
def Core.incompleteBatches (c : Core) : Nat :=
  (c.q.batches.filter fun b => b.closed || b.complete != b.count).length

/-! ### What waits look at -/

/-- The command writes to global, peer, SCM or neighbour memory (06 R112). -/
def tdRemote (d : TdWord) : Bool := tdSpace d == 1 || tdSpace d == 3 || tdSpace d == 7 || tdSpace d == 8

/-- The command has writes that DRAIN waits for (06 R112). -/
def CmdKind.drains (k : CmdKind) : Bool :=
  match k with
  | .copy d _ _ _ | .gather d _ _ | .scatter d _ _ | .mdrain d | .chend _ d => tdRemote d.td
  | .chgrad _ _ g _ _ => tdRemote g.td
  | .amo _ _ _ _ _ _ | .amocas _ _ _ _ _ | .stflush _ => true
  | .cbatch _ va _ _ => va.isSome
  | _ => false

/-- Stash stores of bundles before one are in flight (06 R112). -/
def Core.stashStores (c : Core) (issue : Nat) : Bool :=
  c.loc.stores.any fun st => decide (st.issue < issue) && decide (c.stashBase < st.addr + st.bytes.length)

/-- DRAIN's condition, for the bundles before one (06 R112). -/
def Core.drainedBefore (c : Core) (issue : Nat) : Bool :=
  !c.stashStores issue
    && (c.q.ca ++ c.q.cb ++ c.q.m).all fun k => decide (issue ≤ k.issue) || k.phase == .performed || !k.kind.drains

/-- DRAIN's condition for the bundle that has issued last (06 R112). -/
def Core.drained (c : Core) : Bool := c.drainedBefore c.issue

/-- Every command of earlier bundles in the named queues has completed (08 R155). -/
def Core.queuesDone (c : Core) (m : QMask) : Bool :=
  (maskList m).all fun i => (c.q.get i).all fun k => decide (c.issue ≤ k.issue)

/-- The pipeline and every queue are empty (05 R100), and no SPAWN waits for its answer (08 R162). -/
def Core.quiet (c : Core) : Bool :=
  c.spawns.isEmpty && c.pend.isEmpty && c.loc.loads.isEmpty && c.loc.stores.isEmpty && c.q.all.isEmpty

end Sys2Proof.Machine
end

