-- ==== Sys2Proof/Machine/Accept.lean ====
section
/-! DEFINITION. Reads of global memory that end within a step, and the acceptance of task descriptors (02 R28, R29,
R32, R36, R37; 20 R357, R361, R367). -/

namespace Sys2Proof.Machine

/-- A read that ends within the step, of bytes of one 128-byte line (05 R97, 21 R375). The failure names the
intermediate address. -/
def State.readLine (s : State) (who : Requester) (ia n : Nat) : Except (Nat × Nat) (State × List Byte) :=
  if !s.onModule ia then
    match s.peerVerdict ia ia with
    | none => .ok ({ s with choices := s.choices + 1 }, s.freeBytes n)
    | some cls => .error (cls, ia)
  else match s.checkPage who (s.page (iaLocal ia)) with
    | .error e => .error (e, ia)
    | .ok p => .ok ((s.reach who p ia n 0 false).homeRead p ia n)

/-- A read of n bytes at an intermediate address that ends within the step, line by line. -/
def State.readLines (s : State) (who : Requester) (ia n : Nat) : Except (Nat × Nat) (State × List Byte) :=
  (cutAt 128 ia n).foldl (fun acc (o, k) =>
    match acc with
    | .error e => .error e
    | .ok (s, bs) => (s.readLine who (ia + o) k).map fun (s, b) => (s, bs ++ b)) (.ok (s, []))

/-- A read of n bytes at a virtual address that ends within the step, line by line (05 R92). -/
def State.readVa (s : State) (who : Requester) (wins : Vector Window 8) (need : Need) (va n : Nat) :
    Except (Nat × Nat) (State × List Byte) :=
  (cutAt 128 va n).foldl (fun acc (o, k) =>
    match acc with
    | .error e => .error e
    | .ok (s, bs) =>
      match translate wins need (va + o) with
      | .error e => .error (e, va + o)
      | .ok ia => (s.readLine who ia k).map fun (s, b) => (s, bs ++ b)) (.ok (s, []))

/-- Every local load in flight has read: it delivers what the stores of earlier bundles make it find (06 R105). -/
def Core.fixLoads (c : Core) : Core :=
  { c with
    pend := c.pend ++ c.loc.loads.map fun l =>
      { readyAt := l.readyAt, slot := l.slot, ord := l.ord, res := l.result (c.localView l.ord l.addr l.len) }
    loc := { c.loc with loads := [] } }

/-- A core's stash stores of earlier bundles that are in flight have performed at their homes (05 R90): what a read that
comes after them finds. -/
def State.flushStores (s : State) (c : CoreId) : State :=
  let mine := fun (st : LocalStore) => decide (st.issue < (s.core c).issue) && decide ((s.core c).stashBase < st.addr + st.bytes.length)
  let l := (s.core c).loc.stores.filter mine
  if l.isEmpty then s
  else
    let s := s.modCore c fun x => { x.fixLoads with loc := { x.fixLoads.loc with stores := x.loc.stores.filter fun st => !mine st } }
    l.foldl (fun s st => s.performStore c st) s

/-! ### Pools -/

/-- Tasks that hold a pending-pool entry (20 R361). -/
def State.pendingTasks (s : State) : List Task := s.tasks.filter fun t => t.state == .pending

/-- Tasks that hold a ready-pool entry (20 R361, R367). -/
def State.readyHeld (s : State) : Nat :=
  (s.tasks.filter fun t => match t.state with | .pending | .spawnWait _ => false | _ => true).length

/-- The ready pool has room (20 R361). -/
def State.readyRoom (s : State) : Bool := decide (s.readyHeld < 4096)

/-- The pending pool and the quota share of a region have room for one more entry (02 R36). -/
def State.pendingRoom (s : State) (region : Nat) : Bool :=
  decide (s.pendingTasks.length < 16384) &&
    match s.quotaHolder region with
    | none => false
    | some h =>
      decide ((s.pendingTasks.filter fun t => ((s.quotaHolder t.region).map (·.id)) == some h.id).length < s.uncarved 11 h)

/-- A task's level: its priority lowered to its region's (02 R28, 20 R362). -/
def State.level (s : State) (t : Task) : Nat :=
  match s.region t.region with
  | some r => if t.prio = 0xFF then r.prio else min t.prio r.prio
  | none => 0

/-- The task stands in its region's queue (20 R362). -/
def Task.queued (t : Task) : Bool := t.state == .ready || t.state == .preempted

/-- The queue that a task is about to join has not been active since it last emptied (20 R362). -/
def State.lapseEmpty (s : State) (va : Word) : State :=
  match s.task va with
  | none => s
  | some t =>
    let lvl := s.level t
    if s.tasks.any fun x => x.va != va && x.region == t.region && x.queued && s.level x == lvl then s
    else s.modRegion t.region fun r => { r with wasActive := r.wasActive.filter fun l => l != lvl }

/-- A task becomes Ready, at the tail of its region's queue (20 R362). -/
def State.makeReady (s : State) (va : Word) (st : TaskState) : State :=
  { ((s.lapseEmpty va).modTask va fun t => { t with state := st, readySeq := s.readyCount, victim := none, retryFirst := false }) with readyCount := s.readyCount + 1 }

/-! ### Descriptors -/

/-- A field of a task descriptor of 128 bytes, as a number (02 R28). -/
def descField (b off n : Nat) : Nat := bitsOf b (8 * off) (8 * n)

/-- The lowest code of a check of R29 that a descriptor fails; anc is the region it must lie in or below. -/
def State.descCode (s : State) (b anc spawnQuota : Nat) : Option Nat :=
  let kind := descField b 0x08 1
  let w := descField b 0x09 1
  let h := descField b 0x0A 1
  let prio := descField b 0x0B 1
  let region := descField b 0x0C 2
  let operand := fun i => descField b (0x50 + 16 * i + 12) 4
  [ (1, decide (2 < kind) || (if kind == 0 then !(decide (1 ≤ w ∧ w ≤ 8) && decide (1 ≤ h ∧ h ≤ 4)) else w != 0 || h != 0))
  , (2, (kind == 0 && descField b 0 8 % 32 != 0) || (kind == 1 && descField b 0 8 % 4 != 0))
  , (3, decide (11 < prio) && prio != 0xFF)
  , (4, descField b 0x18 2 % 8 != 0 || decide (16384 < descField b 0x18 2) || decide (1504 < descField b 0x1A 2))
  , (5, bitsOf b (8 * 0x14 + 10) 22 != 0 || descField b 0x1C 4 != 0 || descField b 0x28 8 != 0
      || [0, 1, 2].any fun i => decide (16 ≤ operand i))
  , (6, !s.tableWithin 65536 region anc)
  , (7, match s.region region with | some r => decide (r.maxCores < w * h) | none => false)
  , (8, spawnQuota == 0)
  ].find? (·.2) |>.map (·.1)

/-- The task that an accepted descriptor makes (02 R28, R30, R31). -/
def taskOfDesc (va : Word) (b : Nat) (wins : Vector Window 8) (parent : Option Word) : Task :=
  { va := va
    kind := descField b 0x08 1
    w := descField b 0x09 1
    h := descField b 0x0A 1
    prio := descField b 0x0B 1
    region := descField b 0x0C 2
    spawnQuota := descField b 0x0E 2
    affinity := descField b 0x14 1
    rdDefault := bitsOf b (8 * 0x14 + 8) 1 == 1
    waitYield := bitsOf b (8 * 0x14 + 9) 1 == 1
    spill := descField b 0x18 2
    vfoot := descField b 0x1A 2
    entry := BitVec.ofNat 64 (descField b 0 8)
    succ := BitVec.ofNat 64 (descField b 0x20 8)
    mb := (List.range 8).map fun i => BitVec.ofNat 32 (descField b (0x30 + 4 * i) 4)
    operands := (List.range 3).map fun i =>
      (descField b (0x50 + 16 * i) 8, descField b (0x58 + 16 * i) 4, descField b (0x5C + 16 * i) 4)
    wins := wins
    parent := parent }

/-- What becomes of a descriptor that is submitted. -/
inductive Submission where
  | accepted
  /-- A check of R29 fails. -/
  | failed (code : Nat)
  /-- Pool room or quota is lacking, or the VA belongs to a task that has not ended. -/
  | lacking
  | violation (cls addr : Nat)
deriving DecidableEq, Repr

/-- Children of a task that have not ended (20 R367). -/
def State.children (s : State) (va : Word) : Nat := (s.tasks.filter fun t => t.parent == some va).length

/-- Submits the descriptor at a VA, read through windows for a requester, as spawned from within a region by a task
or by none (02 R29, R32, R36; 20 R361). -/
def State.submit (s : State) (va : Word) (who : Requester) (wins : Vector Window 8) (anc : Nat) (parent : Option Word) :
    State × Submission :=
  let quota := (parent.bind fun p => (s.task p).map (·.spawnQuota)).getD 0xFFFF
  if va.toNat % 128 ≠ 0 then (s, .failed (if quota == 0 then 8 else 9))
  else match s.readVa who wins { r := true } va.toNat 128 with
    | .error (cls, addr) => (s, .violation cls addr)
    | .ok (s, bs) =>
      let b := natOfBytes bs
      match s.descCode b anc quota with
      | some code => (s, .failed code)
      | none =>
        let waits := decide (0 < descField b 0x10 4) || !s.readyRoom
        let lacks := (s.task va).isSome
          || (match parent with | some p => quota != 0xFFFF && decide (quota ≤ s.children p) | none => false)
          || (waits && !s.pendingRoom (descField b 0x0C 2))
        if lacks then (s, .lacking)
        else
          let t := taskOfDesc va b wins parent
          let s := { s with tasks := s.tasks ++ [t] }
          let s := if waits then s else s.makeReady va .ready
          (s.charge t.region 0xC0 1, .accepted)

end Sys2Proof.Machine
end

