-- ==== Sys2Proof/Machine/Control.lean ====
section
/-! DEFINITION. The K slot: branches and calls, hardware loops, waits, task control and CLKDIV (07 R127; 08 R148-R165;
05 R100; 02 R36, R37, R40; 22 R382). A meaning writes the pc only where it redirects the stream; the next bundle in
program order is the issue logic's. -/

namespace Sys2Proof.Machine

/-- The next bundle issues at a target so many sc later (08 R148). -/
def State.branch (s : State) (target : Word) (delay : Nat) : State :=
  s.modMe fun c => { c with pc := target, jump := some delay }

/-- A branch offset counts bundles (07 R120, R126). -/
def Core.offTarget (c : Core) (off : BitVec 22) : Word := c.pc + 32 * sext off

/-- A target lies in 48 bits (08 R149). -/
def wideTarget (w : Word) : Bool := decide (2 ^ 48 ≤ w.toNat)

/-- A register target must be a bundle address of 48 bits (07 R127, 08 R149). -/
def badTarget (w : Word) : Bool := decide (w.toNat % 32 ≠ 0) || wideTarget w

/-- ln takes the address after the call (08 R149). -/
def State.link (s : State) : State := s.emit 1 (.ctrl 0x01B (s.me.pc + 32))

/-- NOP: no effect (07 R123). -/
def execNop (s : State) : Host.Outcome State Fault Refusal := .next s

/-- ILLEGAL for a relative target beyond 48 bits (08 R149). -/
def State.trapOffset (s : State) (off : BitVec 22) : Option Raise := failIf (wideTarget (s.me.offTarget off)) s.illegal

/-- BR (08 R149). -/
def execBr (off : BitVec 22) (s : State) : Host.Outcome State Fault Refusal :=
  .next (s.orRaise (s.trapOffset off) fun s => s.branch (s.me.offTarget off) 1)

/-- CALL (08 R149). -/
def execCall (off : BitVec 22) (s : State) : Host.Outcome State Fault Refusal :=
  .next (s.orRaise (s.trapOffset off) fun s => s.link.branch (s.me.offTarget off) 1)

/-- ILLEGAL for a bad register target (08 R149). -/
def State.trapTarget (s : State) (w : Word) : Option Raise := failIf (badTarget w) s.illegal

/-- BRI (08 R149). -/
def execBri (a : BitVec 5) (s : State) : Host.Outcome State Fault Refusal :=
  .next (s.orRaise (s.trapTarget (s.me.rs a)) fun s => s.branch (s.me.rs a) 3)

/-- CALLI: the target is read before ln is written (08 R149). -/
def execCalli (a : BitVec 5) (s : State) : Host.Outcome State Fault Refusal :=
  .next (s.orRaise (s.trapTarget (s.me.rs a)) fun s => s.link.branch (s.me.rs a) 3)

/-- RET (08 R149). -/
def execRet (s : State) : Host.Outcome State Fault Refusal :=
  .next (s.orRaise (s.trapTarget s.me.ctl.ln) fun s => s.branch s.me.ctl.ln 3)

/-! ### Loops -/

/-- Greater than every start order in use. -/
def Core.nextOrder (c : Core) : Nat := c.loops.toList.foldl (fun m r => max m (r.order + 1)) 0

/-- A loop instruction: with a count of 0 the bundle after the end issues next and the counter is 0; else the record
is made and the counter loaded (08 R151). -/
def State.startLoop (s : State) (lc : BitVec 2) (count len : Nat) (modulo : Bool) (stages : Nat) : State :=
  let pc := s.me.pc
  let stop := pc + BitVec.ofNat 64 (32 * len)
  let n := lc.toFin
  if count = 0 then (s.emit 1 (.ctrl (0x020 + lc.toNat) 0)).branch (stop + 32) 1
  else
    let s := s.modMe fun c => c.setLoop n
      { active := true, start := pc + 32, stop := stop, modulo := modulo, stages := stages, order := c.nextOrder }
    let s := s.emit 1 (.ctrl (0x020 + lc.toNat) (BitVec.ofNat 64 (count + (if modulo then stages - 1 else 0))))
    let s := if modulo then (List.range 8).foldl (fun s i => s.emit 1 (.p (BitVec.ofNat 4 (8 + i)) (i == 0))) s else s
    s.branch (pc + 32) 1

/-- LOOP (08 R151). -/
def execLoop (lc : BitVec 2) (count : BitVec 5) (len : BitVec 15) (s : State) : Host.Outcome State Fault Refusal :=
  .next (s.orRaise (failIf (len.toNat == 0) s.illegal) fun s =>
    s.startLoop lc ((s.me.rs count).toNat % 2 ^ 32) len.toNat false 1)

/-- LOOPI (08 R151). -/
def execLoopi (lc : BitVec 2) (count len : BitVec 10) (s : State) : Host.Outcome State Fault Refusal :=
  .next (s.orRaise (failIf (len.toNat == 0) s.illegal) fun s => s.startLoop lc count.toNat len.toNat false 1)

/-- MLOOP is ILLEGAL with a length of 0, with more than 8 stages, with a count above 2^32 - S, or while another modulo
record is active (08 R151). -/
def State.trapMloop (s : State) (lc : BitVec 2) (count : BitVec 5) (stages : BitVec 4) (len : BitVec 11) : Option Raise :=
  let n := (s.me.rs count).toNat % 2 ^ 32
  failIf (len.toNat == 0 || decide (7 < stages.toNat) || decide (2 ^ 32 - (stages.toNat + 1) < n)
    || (List.finRange 4).any fun k => k.val != lc.toNat && s.me.loops[k].active && s.me.loops[k].modulo) s.illegal

/-- MLOOP (08 R151). -/
def execMloop (lc : BitVec 2) (count : BitVec 5) (stages : BitVec 4) (len : BitVec 11) (s : State) :
    Host.Outcome State Fault Refusal :=
  .next (s.orRaise (s.trapMloop lc count stages len) fun s =>
    s.startLoop lc ((s.me.rs count).toNat % 2 ^ 32) len.toNat true (stages.toNat + 1))

/-- LEXIT: clears the record and every record started after it (08 R153). -/
def execLexit (lc : BitVec 2) (s : State) : Host.Outcome State Fault Refusal :=
  let r := s.me.loops[lc.toFin]
  .next (if r.active then
    ((s.modMe fun c => { c with loops := c.loops.map fun x => if r.order ≤ x.order then { x with active := false } else x }).emit 1
      (.ctrl (0x020 + lc.toNat) 0)).branch (r.stop + 32) 1
  else s)

/-! ### Waits -/

/-- A condition of WAITA between the word and the value (08 R156). -/
def condHolds (cond : WCond) (w : Width) (word value : Word) (first : Option Word) : Bool :=
  let bits := match w with | .w4 => 32 | .w8 => 64
  let a := word.toNat % 2 ^ bits
  let b := value.toNat % 2 ^ bits
  match cond with
  | .eq => a == b
  | .ne => a != b
  | .ge => decide (signedOf bits b ≤ signedOf bits a)
  | .lt => decide (signedOf bits a < signedOf bits b)
  | .gen => decide (b ≤ a)
  | .ltn => decide (a < b)
  | .chg => match first with | some f => a != f.toNat % 2 ^ bits | none => false

/-- What a look at a wait's condition gives: the state after it, and either whether it holds with the wait as it goes
on, or what it meets. -/
abbrev Look := State × Except Raise (Bool × Wait)

/-- When a core arrived at its k-th HBAR, with the end of its sc after that one; none for a core that has not. One that has exited
holds nobody back (08 R159). -/
def Core.arrivalAt (c : Core) (k : Nat) : Option (Nat × Nat) :=
  if c.hbarCount = k then c.arrivals[0]?
  else if k < c.hbarCount then some (c.arrivals.getD (c.hbarCount - k) (0, 0))
  else if c.status == .exited then some (0, 0) else none

/-- The later of two arrivals. -/
def laterArrival (a b : Nat × Nat) : Nat × Nat := if a.1 < b.1 ∨ (a.1 = b.1 ∧ a.2 < b.2) then b else a

/-- Every core of the hoop has executed its k-th HBAR or has exited, and the core's next sc begins no earlier than the end of the
sc after that in which the last of them issued it (08 R159). -/
def State.hoopArrived (s : State) (cid : CoreId) (k : Nat) : Bool :=
  let hoop := ((s.taskOf cid).map (·.cores)).getD [cid]
  let l := hoop.map fun d => (s.core d).arrivalAt k
  l.all (·.isSome) && decide (((l.filterMap id).foldl laterArrival (0, 0)).2 ≤ (s.core cid).tick + (s.core cid).scTicks)

/-- One look at a wait of a core (08 R155, R156, R159, R162). -/
def State.look (s : State) (cid : CoreId) (w : Wait) : Look :=
  let c := s.core cid
  match w with
  | .filled h n => (s, .ok (match c.handles[h.toNat] with | some x => decide (n ≤ x.filled) | none => false, w))
  | .free h n => (s, .ok (match c.handles[h.toNat] with | some x => decide (n ≤ x.free) | none => false, w))
  | .batches n => (s, .ok (decide (c.incompleteBatches ≤ n), w))
  | .queues m => (s, .ok (c.queuesDone m, w))
  | .drain => (s, .ok (c.drained, w))
  | .hoop k => (s, .ok (s.hoopArrived cid k, w))
  | .word ia value cond wd first va =>
    match s.readLine (.core cid) ia (match wd with | .w4 => 4 | .w8 => 8) with
    | .error (cls, addr) => (s, .error (.violation cls addr))
    | .ok (s, bs) =>
      let x := BitVec.ofNat 64 (natOfBytes bs)
      (s, .ok (condHolds cond wd x value first, .word ia value cond wd (some (first.getD x)) va))
  | .spawn t =>
    if !c.drained then (s, .ok (false, w)) else
    let (s, r) := s.submit t (.core cid) c.sys.wins c.ctl.region.toNat ((s.taskOf cid).map (·.va))
    match r with
    | .accepted => (s, .ok (true, w))
    | .lacking => (s, .ok (false, w))
    | .failed code => (s, .error (.fatal (BitVec.ofNat 64 code) t))
    | .violation cls addr => (s, .error (.violation cls addr))

/-- What a wait that is satisfied leaves behind: the batches a WAITB or WAITQ counts complete (04 R77, 10 R206), and
16 sc from the issue of SPAWNW (08 R162). -/
def State.satisfy (s : State) (cid : CoreId) (w : Wait) : State :=
  match w with
  | .batches _ => (s.countOpen cid false).countOpen cid true
  | .queues m =>
    let s := if m.ca then s.countOpen cid false else s
    if m.cb then s.countOpen cid true else s
  | .spawn _ => s.modCore cid fun c => { c with delay := max 1 (16 - (c.tick - c.waitSince) / c.scTicks) }
  | _ => s

/-- A wait satisfied at its issue. The batches that a WAITB or WAITQ counts are counted as one of the bundle's implicit updates, after its
reads (07 R140; 08 R155). -/
def State.satisfyNow (s : State) (w : Wait) : State :=
  match w with
  | .batches _ | .queues _ => s.modMe fun c => { c with counting := some w }
  | _ => s.satisfy s.cur w

/-- A wait at its issue: satisfied at once, or the core waits (08 R155). -/
def State.beginWait (s : State) (w : Wait) : State :=
  let s := s.modMe fun c => { c with waitSince := c.tick }
  match s.look s.cur w with
  | (s, .error r) => s.raise r
  | (s, .ok (true, w)) => s.satisfyNow w
  | (s, .ok (false, w)) => s.modMe fun c => { c with status := .waiting w }

/-- HANDLE for WAITF and WAITE: an unconfigured handle, or n above its slots (08 R155). -/
def State.trapWaitHandle (s : State) (h : BitVec 4) (n : BitVec 10) : Option Raise :=
  match s.me.handles[h.toNat] with
  | some x => failIf (decide (x.slotCount < n.toNat)) (handleTrap h)
  | none => some (handleTrap h)

/-- WAITF (08 R155). -/
def execWaitf (h : BitVec 4) (n : BitVec 10) (s : State) : Host.Outcome State Fault Refusal :=
  .next (s.orRaise (s.trapWaitHandle h n) fun s => s.beginWait (.filled h n.toNat))

/-- WAITE (08 R155). -/
def execWaite (h : BitVec 4) (n : BitVec 10) (s : State) : Host.Outcome State Fault Refusal :=
  .next (s.orRaise (s.trapWaitHandle h n) fun s => s.beginWait (.free h n.toNat))

/-- WAITA's address: aligned, and translated by a window that grants reads (08 R155, 05 R92). -/
def State.waitaAddr (s : State) (addr : BitVec 5) (w : Width) : Except Raise Nat :=
  let va := (s.me.rs addr).toNat
  if va % (match w with | .w4 => 4 | .w8 => 8) ≠ 0 then .error (.violation clsAlign va)
  else match translate s.me.sys.wins { r := true } va with
    | .error e => .error (.violation e va)
    | .ok ia => .ok ia

/-- What WAITA meets at issue: its address, or its first look (08 R155). -/
def State.trapWaita (s : State) (addr : BitVec 5) (w : Width) : Option Raise :=
  match s.waitaAddr addr w with
  | .error r => some r
  | .ok ia =>
    match s.readLine (.core s.cur) ia (match w with | .w4 => 4 | .w8 => 8) with
    | .error (cls, a) => some (.violation cls a)
    | .ok _ => none

/-- WAITA (08 R155, R156). -/
def execWaita (addr value : BitVec 5) (cond : WCond) (w : Width) (s : State) : Host.Outcome State Fault Refusal :=
  .next (s.orRaise (s.trapWaita addr w) fun s =>
    match s.waitaAddr addr w with
    | .ok ia => s.beginWait (.word ia (s.me.rs value) cond w none (s.me.rs addr))
    | .error r => s.raise r)

/-- WAITB (08 R155, 10 R207). -/
def execWaitb (n : BitVec 6) (s : State) : Host.Outcome State Fault Refusal := .next (s.beginWait (.batches n.toNat))

/-- WAITQ (08 R155). -/
def execWaitq (m : QMask) (s : State) : Host.Outcome State Fault Refusal := .next (s.beginWait (.queues m))

/-- DRAIN (06 R112). -/
def execDrain (s : State) : Host.Outcome State Fault Refusal := .next (s.beginWait .drain)

/-- HBAR: the core arrives, unless it takes up a wait in which it had arrived already (02 R41, 08 R159). -/
def execHbar (s : State) : Host.Outcome State Fault Refusal :=
  let s := s.modMe fun c =>
    if c.again then c
    else { c with hbarCount := c.hbarCount + 1, arrivals := (c.tick, c.tick + 2 * c.scTicks) :: c.arrivals.take 1 }
  .next (s.beginWait (.hoop s.me.hbarCount))

/-- The 64 KiB pieces of a range, by their first address within it (05 R100). -/
def probePieces (base len : Nat) : List Nat := (cutAt 65536 base len).map fun (o, _) => base + o

/-- What a piece whose home is a peer gives a PROBE: the peer's answer, or its word that the page is not resident; a free choice
(05 R94, R100, R101; log 53). -/
def State.peerProbe (s : State) (ia : Nat) (va : Nat) : Option Raise :=
  match s.peerVerdict ia va with
  | some cls => some (.violation cls ia)
  | none => if Config.freeBool (s.choices * 2 ^ 48 + va) then some (.trap 0x0E 0 (BitVec.ofNat 64 va)) else none

/-- What PROBE finds at one piece (05 R100, 08 R158): a violation, or a page that is not resident. -/
def State.probePiece (s : State) (w : Bool) (va : Nat) : Option Raise :=
  match translate s.me.sys.wins { r := true, w := w } va with
  | .error e => some (.violation e va)
  | .ok ia =>
    if !s.onModule ia then s.peerProbe ia va
    else match s.checkPage (.core s.cur) (s.page (iaLocal ia)) with
      | .ok _ => none
      | .error e => if e = clsNotResident then some (.trap 0x0E 0 (BitVec.ofNat 64 va)) else some (.violation e ia)

/-- PROBE's check: a range that ends above 2^48 is a WINDOW violation (05 R100, 08 R158). -/
def State.trapProbe (s : State) (base len : BitVec 5) (w : Bool) : Option Raise :=
  let b := (s.me.rs base).toNat
  let n := (s.me.rs len).toNat
  if n = 0 then none
  else if 2 ^ 48 < b + n then some (.violation clsWindow b)
  else (probePieces b n).findSome? fun va => s.probePiece w va

/-- Translation units hold what the table gives for the pieces of a range that lie on this module (21 R376). -/
def State.cachePieces (s : State) (l : List Nat) : State :=
  l.foldl (fun s va => match translate s.me.sys.wins {} va with
    | .ok ia => if s.onModule ia then s.cachePage (iaLocal ia) else s
    | .error _ => s) s

/-- PROBE, once the pipeline and the queues are empty: a successful one changes no state but what the translation units
now hold of the pages it looked at (05 R100, 21 R376). The issue logic holds the bundle until they are. -/
def execProbe (base len : BitVec 5) (w : Bool) (s : State) : Host.Outcome State Fault Refusal :=
  let b := (s.me.rs base).toNat
  let n := (s.me.rs len).toNat
  let t := { s.cachePieces (if 2 ^ 48 < b + n then [] else probePieces b n) with choices := s.choices + 1 }
  .next (match s.trapProbe base len w with
    | some r => t.raise r
    | none => t)

/-! ### Task control -/

/-- EXIT: no further bundle issues (08 R160). -/
def execExit (s : State) : Host.Outcome State Fault Refusal :=
  .next (s.modMe fun c => { c with status := .exiting })

/-- The reason of a pre-emption that a task asks for at its next boundary. -/
def preemptYield : Nat := 1
/-- Pre-emption by a higher level (20 R365). -/
def preemptLevel : Nat := 2
/-- Wait-yield (02 R41). -/
def preemptWait : Nat := 3
/-- SPAWNW conversion (02 R37). -/
def preemptSpawn : Nat := 4
/-- By the supervisor, or for power (19 R352, 22 R384). -/
def preemptForced : Nat := 5

/-- The dispatcher reads the descriptor of a SPAWN and answers: the accept bit is readable in the sc given, or in the next one where
that has passed (02 R36, 08 R162). A violation in reading it is one of the core's. -/
def State.spawnAnswer (s : State) (va : Word) (pd : BitVec 4) (issue readyAt : Nat) : State × Option (Nat × Nat) :=
  let (s, r) := s.submit va (.core s.cur) s.me.sys.wins s.me.ctl.region.toNat ((s.taskOf s.cur).map (·.va))
  let put := fun (s : State) b => s.modMe fun c =>
    { c with pend := c.pend ++ [{ readyAt := max readyAt (c.sc + 1), slot := Slot.k.num, ord := issue, res := .p pd b }] }
  match r with
  | .violation cls addr => (s, some (cls, addr))
  | .accepted => (put s true, none)
  | _ => (put (s.charge s.me.ctl.region.toNat 0xD8 1) false, none)

/-- SPAWN: submits the descriptor, once the core's earlier stores have performed; the instruction stream goes on (02 R36, 08 R162;
log 16). -/
def execSpawn (task : BitVec 5) (pd : BitVec 4) (s : State) : Host.Outcome State Fault Refusal :=
  let va := s.me.rs task
  let s := s.flushStores s.cur
  .next (if s.me.drained && s.me.spawns.isEmpty then
    match s.spawnAnswer va pd s.me.issue (s.me.sc + 16) with
    | (s, some (cls, addr)) => s.raise (.violation cls addr)
    | (s, none) => s
  else s.modMe fun c =>
    { c with spawns := c.spawns ++ [{ issue := c.issue, pc := c.pc, task := va, pd := pd, readyAt := c.sc + 16 }] })

/-- The oldest SPAWN that waits for earlier stores is answered once they have performed (08 R162). -/
def State.runSpawns (s : State) : State :=
  match s.me.spawns with
  | [] => s
  | r :: rest =>
    if !s.me.drainedBefore r.issue then s
    else match (s.modMe fun c => { c with spawns := rest }).spawnAnswer r.task r.pd r.issue r.readyAt with
      | (s, some (cls, addr)) => s.violation s.cur cls addr r.pc
      | (s, none) => s

/-- SPAWNW: the next bundle issues no earlier than 16 sc later (02 R37, 08 R162). -/
def execSpawnw (task : BitVec 5) (s : State) : Host.Outcome State Fault Refusal :=
  .next ((s.flushStores s.cur).beginWait (.spawn (s.me.rs task)))

/-- TRAP raises SWTRAP (08 R163). -/
def execTrap (imm : BitVec 16) (s : State) : Host.Outcome State Fault Refusal :=
  .next (s.raise (.trap 0x13 (zext imm) 0))

/-- ROT: the new value governs names from the next bundle (08 R154). -/
def execRot (imm : BitVec 10) (s : State) : Host.Outcome State Fault Refusal := .next (s.emit 1 (.rot imm.toNat))

/-! ### Clock divisors -/

/-- Every other divisor is an integer multiple of the sequencer's (01 R18). -/
def codesLegal (codes : Vector (BitVec 4) 4) : Bool :=
  codes.toList.all (fun k => decide (k.toNat ≤ 6)) &&
    (codes.toList.drop 1).all fun k => divisor k % divisor codes[0] == 0

/-- The codes in force: the larger of the requested and the granted one, domain by domain (22 R382). -/
def codesOf (asked granted : Vector (BitVec 4) 4) : Vector (BitVec 4) 4 :=
  Vector.zipWith (fun a g => if a.toNat < g.toNat then g else a) asked granted

/-- The codes that a request leads to. -/
def Core.codesFor (c : Core) (dom : Domain) (code : BitVec 4) : Vector (BitVec 4) 4 :=
  codesOf (c.asked.set (domIdx dom) code) c.granted

/-- CLKDIV is ILLEGAL with a reserved code, or where the codes would break R18 (08 R165, 22 R382). -/
def State.trapClkdiv (s : State) (dom : Domain) (code : BitVec 4) : Option Raise :=
  failIf (decide (7 ≤ code.toNat) || !codesLegal (s.me.codesFor dom code)) s.illegal

/-- CLKDIV: the codes take effect after the results in flight (08 R165, 22 R382). -/
def execClkdiv (dom : Domain) (code : BitVec 4) (s : State) : Host.Outcome State Fault Refusal :=
  .next (s.orRaise (s.trapClkdiv dom code) fun s => s.modMe fun c =>
    { c with asked := c.asked.set (domIdx dom) code, clkNext := some (c.codesFor dom code) })

/-- TRET is ILLEGAL outside a user handler (08 R164). -/
def State.trapTret (s : State) : Option Raise := failIf (!s.me.sys.uh) s.illegal

/-- TRET (08 R164). -/
def execTret (s : State) : Host.Outcome State Fault Refusal := .next (s.orRaise s.trapTret State.userReturn)

end Sys2Proof.Machine
end

