-- ==== Sys2Proof/Machine/Scalar.lean ====
section
/-! DEFINITION. The S slot: integer and floating arithmetic, compares, local, spill and state moves, descriptors,
handles, bonds and the chain table (07 R128-R130; 08 R147, R166-R181; 03 R52-R60; 04 R65-R76). -/

namespace Sys2Proof.Machine

/-! ### Integer arithmetic -/

/-- A scalar result of latency lat. -/
def State.emitS (s : State) (lat : Nat) (d : BitVec 5) (v : Word) : State := s.emit lat (.s d v)

/-- A predicate pair: pd takes the condition, pc its complement; where both name one register, it takes the complement
(08 R169). -/
def State.emitPair (s : State) (lat : Nat) (pd pc : BitVec 4) (v : Bool) : State :=
  (s.emit lat (.p pd v)).emit lat (.p pc !v)

/-- ADD (08 R166). -/
def execAdd (d a b : BitVec 5) (s : State) : Host.Outcome State Fault Refusal :=
  .next (s.emitS 1 d (s.me.rs a + s.me.rs b))

/-- SUB (08 R166). -/
def execSub (d a b : BitVec 5) (s : State) : Host.Outcome State Fault Refusal :=
  .next (s.emitS 1 d (s.me.rs a - s.me.rs b))

/-- MUL: the low 64 bits (08 R166). -/
def execMul (d a b : BitVec 5) (s : State) : Host.Outcome State Fault Refusal :=
  .next (s.emitS 3 d (s.me.rs a * s.me.rs b))

/-- High 64 bits of the signed product (08 R166). -/
def mulHigh (a b : Word) : Word := BitVec.ofInt 64 (a.toInt * b.toInt / 2 ^ 64)

/-- MULH (08 R166). -/
def execMulh (d a b : BitVec 5) (s : State) : Host.Outcome State Fault Refusal :=
  .next (s.emitS 3 d (mulHigh (s.me.rs a) (s.me.rs b)))

/-- High 64 bits of the unsigned product (08 R166). -/
def mulHighU (a b : Word) : Word := BitVec.ofNat 64 (a.toNat * b.toNat / 2 ^ 64)

/-- MULHN (08 R166). -/
def execMulhn (d a b : BitVec 5) (s : State) : Host.Outcome State Fault Refusal :=
  .next (s.emitS 3 d (mulHighU (s.me.rs a) (s.me.rs b)))

/-- Signed quotient truncated toward zero; all ones for a divisor of 0, and -2^63 for -2^63 by -1 (08 R166, R167). -/
def divS (a b : Word) : Word := if b = 0 then BitVec.allOnes 64 else BitVec.ofInt 64 (a.toInt.tdiv b.toInt)

/-- DIV (08 R166, R167). -/
def execDiv (d a b : BitVec 5) (s : State) : Host.Outcome State Fault Refusal :=
  .next (s.emitS 24 d (divS (s.me.rs a) (s.me.rs b)))

/-- Unsigned quotient; all ones for a divisor of 0 (08 R166, R167). -/
def divU (a b : Word) : Word := if b = 0 then BitVec.allOnes 64 else BitVec.ofNat 64 (a.toNat / b.toNat)

/-- DIVN (08 R166, R167). -/
def execDivn (d a b : BitVec 5) (s : State) : Host.Outcome State Fault Refusal :=
  .next (s.emitS 24 d (divU (s.me.rs a) (s.me.rs b)))

/-- Signed remainder with the sign of a; a for a divisor of 0 (08 R166, R167). -/
def remS (a b : Word) : Word := if b = 0 then a else BitVec.ofInt 64 (a.toInt.tmod b.toInt)

/-- REM (08 R166, R167). -/
def execRem (d a b : BitVec 5) (s : State) : Host.Outcome State Fault Refusal :=
  .next (s.emitS 24 d (remS (s.me.rs a) (s.me.rs b)))

/-- AND (08 R166). -/
def execAnd (d a b : BitVec 5) (s : State) : Host.Outcome State Fault Refusal :=
  .next (s.emitS 1 d (s.me.rs a &&& s.me.rs b))

/-- OR (08 R166). -/
def execOr (d a b : BitVec 5) (s : State) : Host.Outcome State Fault Refusal :=
  .next (s.emitS 1 d (s.me.rs a ||| s.me.rs b))

/-- XOR (08 R166). -/
def execXor (d a b : BitVec 5) (s : State) : Host.Outcome State Fault Refusal :=
  .next (s.emitS 1 d (s.me.rs a ^^^ s.me.rs b))

/-- A shift distance: the low six bits (08 R166). -/
def shiftOf (b : Word) : Nat := b.toNat % 64

/-- SHL (08 R166). -/
def execShl (d a b : BitVec 5) (s : State) : Host.Outcome State Fault Refusal :=
  .next (s.emitS 1 d (s.me.rs a <<< shiftOf (s.me.rs b)))

/-- SHR (08 R166). -/
def execShr (d a b : BitVec 5) (s : State) : Host.Outcome State Fault Refusal :=
  .next (s.emitS 1 d (s.me.rs a >>> shiftOf (s.me.rs b)))

/-- SRA (08 R166). -/
def execSra (d a b : BitVec 5) (s : State) : Host.Outcome State Fault Refusal :=
  .next (s.emitS 1 d ((s.me.rs a).sshiftRight (shiftOf (s.me.rs b))))

/-- MIN, signed (08 R166). -/
def execMin (d a b : BitVec 5) (s : State) : Host.Outcome State Fault Refusal :=
  .next (s.emitS 1 d (if (s.me.rs a).slt (s.me.rs b) then s.me.rs a else s.me.rs b))

/-- MAX, signed (08 R166). -/
def execMax (d a b : BitVec 5) (s : State) : Host.Outcome State Fault Refusal :=
  .next (s.emitS 1 d (if (s.me.rs a).slt (s.me.rs b) then s.me.rs b else s.me.rs a))

/-- MINN, unsigned (08 R166). -/
def execMinn (d a b : BitVec 5) (s : State) : Host.Outcome State Fault Refusal :=
  .next (s.emitS 1 d (if (s.me.rs a).ult (s.me.rs b) then s.me.rs a else s.me.rs b))

/-- MAXN, unsigned (08 R166). -/
def execMaxn (d a b : BitVec 5) (s : State) : Host.Outcome State Fault Refusal :=
  .next (s.emitS 1 d (if (s.me.rs a).ult (s.me.rs b) then s.me.rs b else s.me.rs a))

/-- Leading zeros of 64 bits (08 R166). -/
def leadingZeros (w : Word) : Nat := if w = 0 then 64 else 63 - Nat.log2 w.toNat

/-- CLZ (08 R166). -/
def execClz (d a : BitVec 5) (s : State) : Host.Outcome State Fault Refusal :=
  .next (s.emitS 1 d (BitVec.ofNat 64 (leadingZeros (s.me.rs a))))

/-- POPC (08 R166). -/
def execPopc (d a : BitVec 5) (s : State) : Host.Outcome State Fault Refusal :=
  .next (s.emitS 1 d (BitVec.ofNat 64 (popCount (s.me.rs a).toNat 64)))

/-- SEL (08 R166). -/
def execSel (d a b : BitVec 5) (p : BitVec 4) (s : State) : Host.Outcome State Fault Refusal :=
  .next (s.emitS 1 d (if s.me.rp p then s.me.rs a else s.me.rs b))

/-- ADDI (08 R168). -/
def execAddi (d a : BitVec 5) (imm : BitVec 12) (s : State) : Host.Outcome State Fault Refusal :=
  .next (s.emitS 1 d (s.me.rs a + sext imm))

/-- ANDI (08 R168). -/
def execAndi (d a : BitVec 5) (imm : BitVec 12) (s : State) : Host.Outcome State Fault Refusal :=
  .next (s.emitS 1 d (s.me.rs a &&& zext imm))

/-- ORI (08 R168). -/
def execOri (d a : BitVec 5) (imm : BitVec 12) (s : State) : Host.Outcome State Fault Refusal :=
  .next (s.emitS 1 d (s.me.rs a ||| zext imm))

/-- XORI (08 R168). -/
def execXori (d a : BitVec 5) (imm : BitVec 12) (s : State) : Host.Outcome State Fault Refusal :=
  .next (s.emitS 1 d (s.me.rs a ^^^ zext imm))

/-- SHLI (08 R168). -/
def execShli (d a : BitVec 5) (imm : BitVec 6) (s : State) : Host.Outcome State Fault Refusal :=
  .next (s.emitS 1 d (s.me.rs a <<< imm.toNat))

/-- SHRI (08 R168). -/
def execShri (d a : BitVec 5) (imm : BitVec 6) (s : State) : Host.Outcome State Fault Refusal :=
  .next (s.emitS 1 d (s.me.rs a >>> imm.toNat))

/-- SRAI (08 R168). -/
def execSrai (d a : BitVec 5) (imm : BitVec 6) (s : State) : Host.Outcome State Fault Refusal :=
  .next (s.emitS 1 d ((s.me.rs a).sshiftRight imm.toNat))

/-- MOVI (08 R168). -/
def execMovi (d : BitVec 5) (imm : BitVec 17) (s : State) : Host.Outcome State Fault Refusal :=
  .next (s.emitS 1 d (sext imm))

/-- MOVH: the destination as it stands, shifted, with the immediate below (08 R168). -/
def execMovh (d : BitVec 5) (imm : BitVec 17) (s : State) : Host.Outcome State Fault Refusal :=
  .next (s.emitS 1 d ((s.me.rs d <<< 17) ||| zext imm))

/-! ### Compares and predicates -/

/-- A condition of CMP (07 R130). -/
def cmpHolds (cond : Cond) (a b : Word) : Bool :=
  match cond with
  | .eq => a == b
  | .ne => a != b
  | .lt => a.slt b
  | .ge => b.sle a
  | .ltn => a.ult b
  | .gen => b.ule a
  | .le => a.sle b
  | .gt => b.slt a
  | .len => a.ule b
  | .gtn => b.ult a

/-- CMP (08 R169). -/
def execCmp (pd pc : BitVec 4) (a b : BitVec 5) (cond : Cond) (s : State) : Host.Outcome State Fault Refusal :=
  .next (s.emitPair 1 pd pc (cmpHolds cond (s.me.rs a) (s.me.rs b)))

/-- CMPEQI (08 R169). -/
def execCmpeqi (pd pc : BitVec 4) (a : BitVec 5) (imm : BitVec 9) (s : State) : Host.Outcome State Fault Refusal :=
  .next (s.emitPair 1 pd pc (s.me.rs a == sext imm))

/-- CMPLTI, signed (08 R169). -/
def execCmplti (pd pc : BitVec 4) (a : BitVec 5) (imm : BitVec 9) (s : State) : Host.Outcome State Fault Refusal :=
  .next (s.emitPair 1 pd pc ((s.me.rs a).slt (sext imm)))

/-- CMPLTNI, unsigned (08 R169). -/
def execCmpltni (pd pc : BitVec 4) (a : BitVec 5) (imm : BitVec 9) (s : State) : Host.Outcome State Fault Refusal :=
  .next (s.emitPair 1 pd pc ((s.me.rs a).ult (zext imm)))

/-- PAND (08 R170). -/
def execPand (pd pa pb : BitVec 4) (s : State) : Host.Outcome State Fault Refusal :=
  .next (s.emit 1 (.p pd (s.me.rp pa && s.me.rp pb)))

/-- POR (08 R170). -/
def execPor (pd pa pb : BitVec 4) (s : State) : Host.Outcome State Fault Refusal :=
  .next (s.emit 1 (.p pd (s.me.rp pa || s.me.rp pb)))

/-- PXOR (08 R170). -/
def execPxor (pd pa pb : BitVec 4) (s : State) : Host.Outcome State Fault Refusal :=
  .next (s.emit 1 (.p pd (s.me.rp pa != s.me.rp pb)))

/-- PANDN (08 R170). -/
def execPandn (pd pa pb : BitVec 4) (s : State) : Host.Outcome State Fault Refusal :=
  .next (s.emit 1 (.p pd (s.me.rp pa && !s.me.rp pb)))

/-! ### Local and spill moves -/

/-- Bytes of an access size (07 R129). -/
def sizeBytes : Size → Nat
  | .n8 | .i8 => 1
  | .n16 | .i16 => 2
  | .n32 | .i32 => 4
  | .d64 => 8

/-- The load of this size extends the sign (07 R129). -/
def sizeSigned : Size → Bool
  | .i8 | .i16 | .i32 => true
  | _ => false

/-- The local address of LDL and STL, computed in 64 bits (08 R171). -/
def Core.localAddr (c : Core) (a : BitVec 5) (imm : BitVec 9) : Nat := (c.rs a + sext imm).toNat

/-- LDL (08 R171). -/
def execLdl (d a : BitVec 5) (size : Size) (imm : BitVec 9) (s : State) : Host.Outcome State Fault Refusal :=
  let addr := s.me.localAddr a imm
  .next (s.orRaise (s.localAccess addr (sizeBytes size) false) fun s =>
    s.emitLoad 4 addr (sizeBytes size) (.s d (sizeSigned size)))

/-- STL (08 R171). -/
def execStl (d a : BitVec 5) (size : Size) (imm : BitVec 9) (s : State) : Host.Outcome State Fault Refusal :=
  let addr := s.me.localAddr a imm
  .next (s.orRaise (s.localAccess addr (sizeBytes size) true) fun s =>
    s.emitStore addr (bytesOfNat (sizeBytes size) (s.me.rs d).toNat))

/-- SPILL: an offset at or beyond the declared bytes (03 R52, 08 R172). -/
def State.trapSpill (s : State) (imm : BitVec 11) : Option Raise :=
  let off := 8 * imm.toNat
  failIf (decide (s.me.loc.spillLimit < off + 8))
    (.trap 0x04 (BitVec.ofNat 64 off) (BitVec.ofNat 64 s.me.loc.spillLimit))

/-- LDSP: the spill memory as the earlier bundles left it (03 R52, 08 R172). -/
def execLdsp (d : BitVec 5) (imm : BitVec 11) (s : State) : Host.Outcome State Fault Refusal :=
  .next (s.orRaise (s.trapSpill imm) fun s =>
    s.emitS 1 d (BitVec.ofNat 64 (s.me.loc.spill.nat (8 * imm.toNat) 8)))

/-- STSP (03 R52, 08 R172). -/
def execStsp (a : BitVec 5) (imm : BitVec 11) (s : State) : Host.Outcome State Fault Refusal :=
  .next (s.orRaise (s.trapSpill imm) fun s => s.emit 1 (.spill (8 * imm.toNat) (s.me.rs a)))

/-! ### Control registers and vector elements -/

/-- ILLEGAL for an index that names no user control register (03 R60). -/
def State.trapMfc (s : State) (index : BitVec 12) : Option Raise :=
  failIf (s.ctlRead s.cur index.toNat).isNone s.illegal

/-- MFC: the register as it stood at issue (08 R173). -/
def execMfc (d : BitVec 5) (index : BitVec 12) (s : State) : Host.Outcome State Fault Refusal :=
  .next (s.orRaise (s.trapMfc index) fun s => s.emitS 1 d ((s.ctlRead s.cur index.toNat).getD 0))

/-- MTC: ILLEGAL for an unknown index, VWIN for a value that R47 refuses (03 R47, R60; 08 R173). -/
def State.trapMtc (s : State) (a : BitVec 5) (index : BitVec 12) : Option Raise :=
  pickRaise [failIf (s.ctlRead s.cur index.toNat).isNone s.illegal,
    failIf (!ctlLegal index.toNat (s.me.rs a)) (.trap 0x03 (s.me.rs a) 0)]

/-- MTC: in effect for the next bundle (03 R60, 08 R173). -/
def execMtc (a : BitVec 5) (index : BitVec 12) (s : State) : Host.Outcome State Fault Refusal :=
  .next (s.orRaise (s.trapMtc a index) fun s => s.emit 1 (.ctrl index.toNat (s.me.rs a)))

/-- MFV (08 R174). -/
def execMfv (d : BitVec 5) (v : BitVec 6) (el : BitVec 7) (s : State) : Host.Outcome State Fault Refusal :=
  .next (s.orRaise (s.vwinCheck [v.toNat]) fun s =>
    s.emitS 3 d (BitVec.ofNat 64 (elem (s.me.rv v.toNat) 32 el.toNat)))

/-- A vector register with one element of 32 bits replaced (08 R174). -/
def vecPutElem (v : VecReg) (el : Nat) (x : Nat) : VecReg := BitVec.ofNat 4096 (withBits v.toNat (32 * el) 32 x)

/-- MTV: the whole register is a result of slot s, never transient (08 R174). -/
def execMtv (v : BitVec 6) (a : BitVec 5) (el : BitVec 7) (s : State) : Host.Outcome State Fault Refusal :=
  .next (s.orRaise (s.vwinCheck [v.toNat]) fun s =>
    s.emit 2 (.vec (s.me.phys v.toNat) (vecPutElem (s.me.rv v.toNat) el.toNat ((s.me.rs a).toNat % 2 ^ 32)) false))

/-! ### Floating point -/

/-- A scalar's f32 value, after input flushing (08 R175). -/
def Core.fs (c : Core) (r : BitVec 5) : Num := FFmt.f32.value (flushIn c.ctl.fmode (.flt .f32)) ((c.rs r).toNat % 2 ^ 32)

/-- A scalar f32 result, rounded once by fmode.rm and flushed (08 R175). -/
def Core.fres (c : Core) (x : Num) : Word :=
  BitVec.ofNat 64 (FFmt.f32.res (modeRM c.ctl.fmode) (flushOut c.ctl.fmode (.flt .f32)) x)

/-- An exact sum of opposite values is -0 only under RD (04 R65). -/
def Core.rd (c : Core) : Bool := (modeRM c.ctl.fmode).isRD

/-- FADD (08 R175). -/
def execFadd (d a b : BitVec 5) (s : State) : Host.Outcome State Fault Refusal :=
  .next (s.emitS 4 d (s.me.fres ((s.me.fs a).add s.me.rd (s.me.fs b))))

/-- FSUB (08 R175). -/
def execFsub (d a b : BitVec 5) (s : State) : Host.Outcome State Fault Refusal :=
  .next (s.emitS 4 d (s.me.fres ((s.me.fs a).add s.me.rd (s.me.fs b).neg)))

/-- FMUL (08 R175). -/
def execFmul (d a b : BitVec 5) (s : State) : Host.Outcome State Fault Refusal :=
  .next (s.emitS 4 d (s.me.fres ((s.me.fs a).mul (s.me.fs b))))

/-- FMA: one rounding (08 R175). -/
def execFma (d a b c : BitVec 5) (s : State) : Host.Outcome State Fault Refusal :=
  .next (s.emitS 4 d (s.me.fres (((s.me.fs a).mul (s.me.fs b)).add s.me.rd (s.me.fs c))))

/-- FCVTIF (08 R175). -/
def execFcvtif (d a : BitVec 5) (s : State) : Host.Outcome State Fault Refusal :=
  .next (s.emitS 4 d (s.me.fres (.ofInt (s.me.rs a).toInt)))

/-- FCVTFI: rounded by fmode.rm, saturated, NaN to 0 (08 R175). -/
def execFcvtfi (d a : BitVec 5) (s : State) : Host.Outcome State Fault Refusal :=
  .next (s.emitS 4 d (BitVec.ofNat 64 (intConv 64 true (.mode (modeRM s.me.ctl.fmode)) (s.me.fs a)).bits))

/-- A condition of FCMP (07 R130, 08 R176). -/
def fcmpHolds (cond : FCond) (a b : Num) : Bool :=
  match cond with
  | .eq => a.eq b
  | .ne => !a.eq b
  | .lt => a.lt b
  | .ge => b.lt a || a.eq b
  | .le => a.lt b || a.eq b
  | .gt => b.lt a
  | .un => a.isNan || b.isNan

/-- FCMP (08 R176). -/
def execFcmp (pd pc : BitVec 4) (a b : BitVec 5) (cond : FCond) (s : State) : Host.Outcome State Fault Refusal :=
  .next (s.emitPair 2 pd pc (fcmpHolds cond (s.me.fs a) (s.me.fs b)))

/-! ### Bonds, descriptors, handles and the chain table -/

/-- BDMOV's value must be from 1 to 512 (03 R58). The trap reports the value. -/
def State.trapBdmov (s : State) (a : BitVec 5) : Option Raise :=
  let v := s.me.rs a
  failIf (!decide (1 ≤ v.toNat ∧ v.toNat ≤ 512)) (.trap 0x07 v 0)

/-- BDMOV (03 R58, 08 R181). -/
def execBdmov (bd : BitVec 4) (a : BitVec 5) (s : State) : Host.Outcome State Fault Refusal :=
  .next (s.orRaise (s.trapBdmov a) fun s => s.emit 1 (.bd bd ((s.me.rs a).setWidth 16)))

/-- The local address of TDLD and TDST (08 R177). -/
def Core.tdAddr (c : Core) (a : BitVec 5) (imm : BitVec 11) : Nat := (c.rs a + zext imm * 32).toNat

/-- TDLD and TDST: TDESC for an address that is not 32-byte aligned, or a local violation (08 R177). -/
def State.trapTdMove (s : State) (td : BitVec 6) (a : BitVec 5) (imm : BitVec 11) (write : Bool) : Option Raise :=
  pickRaise [failIf (decide (s.me.tdAddr a imm % 32 ≠ 0)) (tdescTrap td), s.localAccess (s.me.tdAddr a imm) 32 write]

/-- TDLD (08 R177). -/
def execTdld (td : BitVec 6) (a : BitVec 5) (imm : BitVec 11) (s : State) : Host.Outcome State Fault Refusal :=
  .next (s.orRaise (s.trapTdMove td a imm false) fun s => s.emitLoad 3 (s.me.tdAddr a imm) 32 (.td td))

/-- TDST (08 R177). -/
def execTdst (td : BitVec 6) (a : BitVec 5) (imm : BitVec 11) (s : State) : Host.Outcome State Fault Refusal :=
  .next (s.orRaise (s.trapTdMove td a imm true) fun s =>
    s.emitStore (s.me.tdAddr a imm) (bytesOfNat 32 s.me.td[td.toNat].toNat))

/-- TDSET (08 R178). -/
def execTdset (td : BitVec 6) (f : TdField) (a : BitVec 5) (s : State) : Host.Outcome State Fault Refusal :=
  .next (s.emit 1 (.tdField td f (s.me.rs a)))

/-- The record of an HSET as the stores of earlier bundles leave it: by it HSET is judged at its issue (08 R179; log 52). -/
def State.hsetRecord (s : State) (a : BitVec 5) : Option Handle :=
  handleOf s.me.stashBase (natOfBytes (s.me.localView s.me.issue (s.me.rs a).toNat 16))

/-- HSET: HANDLE for a misaligned record, a field out of range, or a handle that an incomplete command names (03 R53,
08 R179). -/
def State.trapHset (s : State) (h : BitVec 4) (a : BitVec 5) : Option Raise :=
  let addr := (s.me.rs a).toNat
  pickRaise [failIf (decide (addr % 16 ≠ 0)) (handleTrap h), s.localAccess addr 16 false,
    failIf (s.hsetRecord a).isNone (handleTrap h), failIf (s.me.q.all.any fun k => k.kind.names h) (handleTrap h)]

/-- HSET: the record is read 2 sc later, as a load of the core's own stream, and the handle is usable 3 sc later (08 R179; log 52). -/
def execHset (h : BitVec 4) (a : BitVec 5) (s : State) : Host.Outcome State Fault Refusal :=
  .next (s.orRaise (s.trapHset h a) fun s =>
    s.emitLoad 3 (s.me.rs a).toNat 16 (.handle h s.me.stashBase))

/-- HANDLE for a handle that has not been configured (03 R53). -/
def State.trapUnset (s : State) (h : BitVec 4) : Option Raise := failIf s.me.handles[h.toNat].isNone (handleTrap h)

/-- HADDR: the address of the k-th filled slot (08 R179). -/
def execHaddr (d : BitVec 5) (h : BitVec 4) (k : BitVec 10) (s : State) : Host.Outcome State Fault Refusal :=
  .next (s.orRaise (s.trapUnset h) fun s =>
    match s.me.handles[h.toNat] with
    | some x => s.emitS 1 d (BitVec.ofNat 64 (x.slotAddr (x.cons + k.toNat)))
    | none => s)

/-- ADVC: HANDLE for more slots than are filled (03 R54). -/
def State.trapAdvc (s : State) (h : BitVec 4) (n : BitVec 10) : Option Raise :=
  match s.me.handles[h.toNat] with
  | some x => failIf (decide (x.filled < n.toNat)) (handleTrap h)
  | none => some (handleTrap h)

/-- ADVC (03 R54, 08 R180). -/
def execAdvc (h : BitVec 4) (n : BitVec 10) (s : State) : Host.Outcome State Fault Refusal :=
  .next (s.orRaise (s.trapAdvc h n) fun s => s.emit 1 (.advance h false n.toNat))

/-- ADVP: HANDLE for h15, or for more slots than are free (03 R54, R55). -/
def State.trapAdvp (s : State) (h : BitVec 4) (n : BitVec 10) : Option Raise :=
  match s.me.handles[h.toNat] with
  | some x => failIf (h == 15 || decide (x.free < n.toNat)) (handleTrap h)
  | none => some (handleTrap h)

/-- ADVP (03 R54, 08 R180). -/
def execAdvp (h : BitVec 4) (n : BitVec 10) (s : State) : Host.Outcome State Fault Refusal :=
  .next (s.orRaise (s.trapAdvp h n) fun s => s.emit 1 (.advance h true n.toNat))

/-- CHSET: the mask is s_b, or all ones where b names s0 (03 R59). -/
def execChset (e : BitVec 3) (a b : BitVec 5) (s : State) : Host.Outcome State Fault Refusal :=
  .next (s.emit 1 (.ch e (if b = 0 then BitVec.allOnes 64 else s.me.rs b) (s.me.rs a)))

end Sys2Proof.Machine
end

