-- ==== Sys2Proof/Machine/Vector.lean ====
section
/-! DEFINITION. The V slot (07 R131, R132; 09 R182-R202; 04 R65, R74, R81). -/

namespace Sys2Proof.Machine

/-! ### Elements and results -/

/-- Width in bits of a V-slot type. -/
def tyBits (ty : Ty) : Nat := (tyElt ty).width

/-- The value of an element's code of a type, after input flushing: `el` of 09 R184. -/
def elValue (fmode : BitVec 12) (ty : Ty) (x : Nat) : Num := (tyElt ty).value (flushIn fmode (tyElt ty)) x

/-- An exact floating result rounded to a floating element type: `res` of 09 R184. -/
def fltRes (fmode : BitVec 12) (f : FFmt) (x : Num) : Nat := f.res (modeRM fmode) (flushOut fmode (.flt f)) x

/-- An integer element's value: signed for i types, unsigned for n types (09 R187). -/
def tyInt (ty : Ty) (x : Nat) : Int :=
  match tyElt ty with
  | .int b true => signedOf b x
  | _ => x

/-- An operation on elements: its floating and its integer form. -/
structure LaneOp where
  flt : (rd : Bool) → Num → Num → Num → Num
  int : Int → Int → Int → Int

/-- One element of an operation on a, b and d (09 R184, R185). -/
def LaneOp.apply (op : LaneOp) (fmode : BitVec 12) (ty : Ty) (a b d : Nat) : Nat :=
  match tyElt ty with
  | .flt f => fltRes fmode f (op.flt (modeRM fmode).isRD (elValue fmode ty a) (elValue fmode ty b) (elValue fmode ty d))
  | .int w _ => patternOf w (op.int (tyInt ty a) (tyInt ty b) (tyInt ty d))

/-- Three lists combined element by element. -/
def zip3 (f : Nat → Nat → Nat → Nat) : List Nat → List Nat → List Nat → List Nat
  | a :: as, b :: bs, c :: cs => f a b c :: zip3 f as bs cs
  | _, _, _ => []

/-- A vector operation on three registers (09 R184). -/
def lanes (w : Nat) (f : Nat → Nat → Nat → Nat) (a b d : VecReg) : VecReg :=
  vecOf w (zip3 f (elems a w) (elems b w) (elems d w))

/-- A V-slot result for a named register (09 R182, R183; 22 R381). -/
def State.emitVec (s : State) (lat : Nat) (d : BitVec 6) (v : VecReg) (t : Bool) : State :=
  s.emitV lat (.vec (s.me.phys d.toNat) v t)

/-- A vector register read at issue by its name. -/
def State.rv (s : State) (n : BitVec 6) : VecReg := s.me.rv n.toNat

/-- The trap of an instruction that names vector registers (03 R47). -/
def State.trapV (s : State) (l : List (BitVec 6)) : Option Raise := s.vwinCheck (l.map (·.toNat))

/-- An element-wise instruction on a, b and d (09 R185). -/
def State.lane3 (s : State) (op : LaneOp) (d a b : BitVec 6) (ty : Ty) (t : Bool) : State :=
  s.orRaise (s.trapV [d, a, b]) fun s =>
    s.emitVec 4 d (lanes (tyBits ty) (op.apply s.me.ctl.fmode ty) (s.rv a) (s.rv b) (s.rv d)) t

/-- The addition of 09 R185. -/
def opAdd : LaneOp := { flt := fun rd a b _ => a.add rd b, int := fun a b _ => a + b }
/-- The subtraction of 09 R185. -/
def opSub : LaneOp := { flt := fun rd a b _ => a.add rd b.neg, int := fun a b _ => a - b }
/-- The product of 09 R185. -/
def opMul : LaneOp := { flt := fun _ a b _ => a.mul b, int := fun a b _ => a * b }
/-- The fused product and sum of 09 R185. -/
def opFma : LaneOp := { flt := fun rd a b d => (a.mul b).add rd d, int := fun a b d => a * b + d }
/-- The fused product and difference of 09 R185. -/
def opFms : LaneOp := { flt := fun rd a b d => d.add rd (a.mul b).neg, int := fun a b d => d - a * b }
/-- The minimum of 09 R185. -/
def opMin : LaneOp := { flt := fun _ a b _ => a.min b, int := fun a b _ => min a b }
/-- The maximum of 09 R185. -/
def opMax : LaneOp := { flt := fun _ a b _ => a.max b, int := fun a b _ => max a b }
/-- The absolute value of 09 R185. -/
def opAbs : LaneOp := { flt := fun _ a _ _ => a.abs, int := fun a _ _ => a.natAbs }
/-- The negation of 09 R185. -/
def opNeg : LaneOp := { flt := fun _ a _ _ => a.neg, int := fun a _ _ => -a }

/-- VADD (09 R185). -/
def execVadd (d a b : BitVec 6) (ty : Ty) (t : Bool) (s : State) : Host.Outcome State Fault Refusal :=
  .next (s.lane3 opAdd d a b ty t)

/-- VSUB (09 R185). -/
def execVsub (d a b : BitVec 6) (ty : Ty) (t : Bool) (s : State) : Host.Outcome State Fault Refusal :=
  .next (s.lane3 opSub d a b ty t)

/-- VMUL (09 R185). -/
def execVmul (d a b : BitVec 6) (ty : Ty) (t : Bool) (s : State) : Host.Outcome State Fault Refusal :=
  .next (s.lane3 opMul d a b ty t)

/-- VFMA (09 R185). -/
def execVfma (d a b : BitVec 6) (ty : Ty) (t : Bool) (s : State) : Host.Outcome State Fault Refusal :=
  .next (s.lane3 opFma d a b ty t)

/-- VFMS (09 R185). -/
def execVfms (d a b : BitVec 6) (ty : Ty) (t : Bool) (s : State) : Host.Outcome State Fault Refusal :=
  .next (s.lane3 opFms d a b ty t)

/-- VMIN (09 R185). -/
def execVmin (d a b : BitVec 6) (ty : Ty) (t : Bool) (s : State) : Host.Outcome State Fault Refusal :=
  .next (s.lane3 opMin d a b ty t)

/-- VMAX (09 R185). -/
def execVmax (d a b : BitVec 6) (ty : Ty) (t : Bool) (s : State) : Host.Outcome State Fault Refusal :=
  .next (s.lane3 opMax d a b ty t)

/-- VABS (09 R185). -/
def execVabs (d a : BitVec 6) (ty : Ty) (t : Bool) (s : State) : Host.Outcome State Fault Refusal :=
  .next (s.lane3 opAbs d a a ty t)

/-- VNEG (09 R185). -/
def execVneg (d a : BitVec 6) (ty : Ty) (t : Bool) (s : State) : Host.Outcome State Fault Refusal :=
  .next (s.lane3 opNeg d a a ty t)

/-! ### Bits, shifts, compare and select -/

/-- An instruction on the bits of whole registers (09 R186). -/
def State.bits2 (s : State) (f : VecReg → VecReg → VecReg) (d a b : BitVec 6) (t : Bool) : State :=
  s.orRaise (s.trapV [d, a, b]) fun s => s.emitVec 4 d (f (s.rv a) (s.rv b)) t

/-- VAND (09 R186). -/
def execVand (d a b : BitVec 6) (_ty : Ty) (t : Bool) (s : State) : Host.Outcome State Fault Refusal :=
  .next (s.bits2 (· &&& ·) d a b t)

/-- VOR (09 R186). -/
def execVor (d a b : BitVec 6) (_ty : Ty) (t : Bool) (s : State) : Host.Outcome State Fault Refusal :=
  .next (s.bits2 (· ||| ·) d a b t)

/-- VXOR (09 R186). -/
def execVxor (d a b : BitVec 6) (_ty : Ty) (t : Bool) (s : State) : Host.Outcome State Fault Refusal :=
  .next (s.bits2 (· ^^^ ·) d a b t)

/-- An instruction on the patterns of elements. -/
def State.patterns (s : State) (f : Nat → Nat → Nat → Nat) (d a b : BitVec 6) (w : Nat) (t : Bool) : State :=
  s.orRaise (s.trapV [d, a, b]) fun s => s.emitVec 4 d (lanes w f (s.rv a) (s.rv b) (s.rv d)) t

/-- A left shift of w bits; 0 from w on (09 R186). -/
def shlElem (w a k : Nat) : Nat := if w ≤ k then 0 else a * 2 ^ k % 2 ^ w

/-- A logical right shift of w bits; 0 from w on (09 R186). -/
def shrElem (w a k : Nat) : Nat := if w ≤ k then 0 else a / 2 ^ k

/-- An arithmetic right shift of w bits; copies of the sign from w on (09 R186). -/
def sraElem (w a k : Nat) : Nat := patternOf w (signedOf w a / 2 ^ (min k (w - 1)))

/-- VSHL (09 R186). -/
def execVshl (d a b : BitVec 6) (ty : Ty) (t : Bool) (s : State) : Host.Outcome State Fault Refusal :=
  .next (s.patterns (fun x k _ => shlElem (tyBits ty) x k) d a b (tyBits ty) t)

/-- VSHR (09 R186). -/
def execVshr (d a b : BitVec 6) (ty : Ty) (t : Bool) (s : State) : Host.Outcome State Fault Refusal :=
  .next (s.patterns (fun x k _ => shrElem (tyBits ty) x k) d a b (tyBits ty) t)

/-- VSRA (09 R186). -/
def execVsra (d a b : BitVec 6) (ty : Ty) (t : Bool) (s : State) : Host.Outcome State Fault Refusal :=
  .next (s.patterns (fun x k _ => sraElem (tyBits ty) x k) d a b (tyBits ty) t)

/-- VSEL: where d's element is nonzero, a's, else b's (09 R187). -/
def execVsel (d a b : BitVec 6) (ty : Ty) (t : Bool) (s : State) : Host.Outcome State Fault Refusal :=
  .next (s.patterns (fun x y z => if z ≠ 0 then x else y) d a b (tyBits ty) t)

/-- An order of elements: by value for floating types, by integer for the others (09 R187). -/
def elLt (fmode : BitVec 12) (ty : Ty) (a b : Nat) : Bool :=
  if (tyElt ty).isFlt then (elValue fmode ty a).lt (elValue fmode ty b) else decide (tyInt ty a < tyInt ty b)

/-- Equality of elements by value (09 R187). -/
def elEq (fmode : BitVec 12) (ty : Ty) (a b : Nat) : Bool :=
  if (tyElt ty).isFlt then (elValue fmode ty a).eq (elValue fmode ty b) else a == b

/-- A compare: all ones where it holds (09 R187). -/
def State.compare (s : State) (f : BitVec 12 → Ty → Nat → Nat → Bool) (d a b : BitVec 6) (ty : Ty) (t : Bool) : State :=
  let w := tyBits ty
  s.patterns (fun x y _ => if f s.me.ctl.fmode ty x y then 2 ^ w - 1 else 0) d a b w t

/-- VCMPEQ (09 R187). -/
def execVcmpeq (d a b : BitVec 6) (ty : Ty) (t : Bool) (s : State) : Host.Outcome State Fault Refusal :=
  .next (s.compare elEq d a b ty t)

/-- VCMPLT (09 R187). -/
def execVcmplt (d a b : BitVec 6) (ty : Ty) (t : Bool) (s : State) : Host.Outcome State Fault Refusal :=
  .next (s.compare elLt d a b ty t)

/-- VCMPLE (09 R187). -/
def execVcmple (d a b : BitVec 6) (ty : Ty) (t : Bool) (s : State) : Host.Outcome State Fault Refusal :=
  .next (s.compare (fun m ty x y => elLt m ty x y || elEq m ty x y) d a b ty t)

/-! ### Scalar broadcast -/

/-- The low bits of a scalar as an element (09 R188). -/
def scalarElem (w : Nat) (x : Word) : Nat := x.toNat % 2 ^ w

/-- An element-wise instruction with a scalar in place of b (09 R188). -/
def State.laneS (s : State) (op : LaneOp) (d a : BitVec 6) (b : BitVec 5) (ty : Ty) (t : Bool) : State :=
  s.orRaise (s.trapV [d, a]) fun s =>
    let x := scalarElem (tyBits ty) (s.me.rs b)
    s.emitVec 4 d (lanes (tyBits ty) (fun p _ r => op.apply s.me.ctl.fmode ty p x r) (s.rv a) (s.rv a) (s.rv d)) t

/-- VADDS (09 R188). -/
def execVadds (d a : BitVec 6) (b : BitVec 5) (ty : Ty) (t : Bool) (s : State) : Host.Outcome State Fault Refusal :=
  .next (s.laneS opAdd d a b ty t)

/-- VMULS (09 R188). -/
def execVmuls (d a : BitVec 6) (b : BitVec 5) (ty : Ty) (t : Bool) (s : State) : Host.Outcome State Fault Refusal :=
  .next (s.laneS opMul d a b ty t)

/-- VFMAS (09 R188). -/
def execVfmas (d a : BitVec 6) (b : BitVec 5) (ty : Ty) (t : Bool) (s : State) : Host.Outcome State Fault Refusal :=
  .next (s.laneS opFma d a b ty t)

/-- VMAXS (09 R188). -/
def execVmaxs (d a : BitVec 6) (b : BitVec 5) (ty : Ty) (t : Bool) (s : State) : Host.Outcome State Fault Refusal :=
  .next (s.laneS opMax d a b ty t)

/-! ### Widening, narrowing and conversion -/

/-- The wide type of a narrow type and a group, as an element type (09 R189). -/
def wideElt (ty : Ty) (g : Group) : Elt :=
  match tyElt ty with
  | .flt _ => .flt .f32
  | .int w sg => .int (w * g.count) sg

/-- One widened element (09 R189). -/
def wideOp (op : LaneOp) (fmode : BitVec 12) (ty : Ty) (g : Group) (a b : Nat) : Nat :=
  match tyElt ty with
  | .flt _ => fltRes fmode .f32 (op.flt (modeRM fmode).isRD (elValue fmode ty a) (elValue fmode ty b) .zero)
  | .int w _ => patternOf (w * g.count) (op.int (tyInt ty a) (tyInt ty b) 0)

/-- Every k-th element from r on (03 R49). -/
def everyKth (k r : Nat) (xs : List Nat) : List Nat :=
  (List.range (xs.length / k)).map fun i => xs.getD (i * k + r) 0

/-- The registers of a group by their names (03 R49). -/
def groupNames (d : BitVec 6) (g : Group) : List Nat := (List.range g.count).map (d.toNat + ·)

/-- A widening instruction: element i goes to register d + i mod k, position i div k (03 R49, 09 R189). -/
def State.widen (s : State) (op : LaneOp) (d a b : BitVec 6) (ty : Ty) (g : Group) : State :=
  s.orRaise (s.vwinCheck (groupNames d g ++ [a.toNat, b.toNat])) fun s =>
    let m := s.me.ctl.fmode
    let xs := (List.zipWith (wideOp op m ty g) (elems (s.rv a) (tyBits ty)) (elems (s.rv b) (tyBits ty)))
    (List.range g.count).foldl (fun s r =>
      s.emitV 5 (.vec (s.me.phys (d.toNat + r)) (vecOf (wideElt ty g).width (everyKth g.count r xs)) false)) s

/-- VWMUL (09 R189). -/
def execVwmul (d a b : BitVec 6) (ty : Ty) (g : Group) (s : State) : Host.Outcome State Fault Refusal :=
  .next (s.widen opMul d a b ty g)

/-- VWADD (09 R189). -/
def execVwadd (d a b : BitVec 6) (ty : Ty) (g : Group) (s : State) : Host.Outcome State Fault Refusal :=
  .next (s.widen opAdd d a b ty g)

/-- The elements of a group in their order: element i in register a + i mod k (03 R49). -/
def interleave (regs : List (List Nat)) (n : Nat) : List Nat :=
  (List.range n).map fun i => (regs.getD (i % regs.length) []).getD (i / regs.length) 0

/-- A counted conversion of elements by fmode's rounding (04 R71, 09 R189, R190). -/
def convList (src dst : Elt) (fmode : BitVec 12) (rnd : Nat → Rounding) (xs : List Nat) : List Conv :=
  (List.range xs.length).zipWith (fun i x => dst.conv (rnd i) (flushOut fmode dst) (src.value (flushIn fmode src) x)) xs

/-- What VNARROW converts to (09 R189). -/
def State.vnarrowConv (s : State) (a : BitVec 6) (ty : Ty) (g : Group) : List Conv :=
  let c := s.me
  let wide := wideElt ty g
  let xs := interleave ((groupNames a g).map fun n => elems (c.rv n) wide.width) (elemCount (tyBits ty))
  convList wide (tyElt ty) c.ctl.fmode (fmodeRounding c.ctl.fmode c.ctl.lfsr) xs

/-- VNARROW's traps: VWIN, then the precise CONVTHR (04 R77). -/
def State.trapVnarrow (s : State) (d a : BitVec 6) (ty : Ty) (g : Group) : Option Raise :=
  pickRaise [s.vwinCheck (d.toNat :: groupNames a g), s.convTrap (convCounts (s.vnarrowConv a ty g))]

/-- A counted conversion delivers its elements and its counts, and steps the LFSR if it sampled it (04 R71, R76). -/
def State.emitConv (s : State) (lat : Nat) (d : BitVec 6) (w : Nat) (l : List Conv) (t sampled : Bool) : State :=
  ((s.emitVec lat d (vecOf w (l.map (·.bits))) t).emitCounts (convCounts l)).stepLfsr sampled

/-- VNARROW (09 R189). -/
def execVnarrow (d a : BitVec 6) (ty : Ty) (g : Group) (s : State) : Host.Outcome State Fault Refusal :=
  .next (s.orRaise (s.trapVnarrow d a ty g) fun s =>
    s.emitConv 4 d (tyBits ty) (s.vnarrowConv a ty g) false (modeSR s.me.ctl.fmode))

/-- What VCVT converts to (09 R190). -/
def State.vcvtConv (s : State) (a : BitVec 6) (src dst : Ty) : List Conv :=
  let c := s.me
  let xs := (elems (s.rv a) (tyBits src)).take (elemCount (max (tyBits src) (tyBits dst)))
  convList (tyElt src) (tyElt dst) c.ctl.fmode (fmodeRounding c.ctl.fmode c.ctl.lfsr) xs

/-- VCVT's traps (04 R77). -/
def State.trapVcvt (s : State) (d a : BitVec 6) (src dst : Ty) : Option Raise :=
  pickRaise [s.trapV [d, a], s.convTrap (convCounts (s.vcvtConv a src dst))]

/-- VCVT: bytes beyond the elements converted are zero (09 R190). -/
def execVcvt (d a : BitVec 6) (src dst : Ty) (t : Bool) (s : State) : Host.Outcome State Fault Refusal :=
  .next (s.orRaise (s.trapVcvt d a src dst) fun s =>
    s.emitConv 4 d (tyBits dst) (s.vcvtConv a src dst) t (modeSR s.me.ctl.fmode))

/-! ### Estimates -/

/-- An estimate: below the normal range it is rounded to nearest, beyond the range it is infinite (09 R191, R192). -/
def State.estimate (s : State) (f : Num → Num) (d a : BitVec 6) (t : Bool) : State :=
  s.orRaise (s.trapV [d, a]) fun s =>
    let m := s.me.ctl.fmode
    let one := fun x => FFmt.f32.res .rne (flushOut m (.flt .f32)) (f (elValue m .f32 x))
    s.emitVec 6 d (vecOf 32 ((elems (s.rv a) 32).map one)) t

/-- VRSQE (09 R191). -/
def execVrsqe (d a : BitVec 6) (t : Bool) (s : State) : Host.Outcome State Fault Refusal := .next (s.estimate rsqe d a t)

/-- VRCPE (09 R192). -/
def execVrcpe (d a : BitVec 6) (t : Bool) (s : State) : Host.Outcome State Fault Refusal := .next (s.estimate rcpe d a t)

/-- VEXP2E (09 R192). -/
def execVexp2e (d a : BitVec 6) (t : Bool) (s : State) : Host.Outcome State Fault Refusal := .next (s.estimate exp2e d a t)

/-- VLOG2E (09 R192). -/
def execVlog2e (d a : BitVec 6) (t : Bool) (s : State) : Host.Outcome State Fault Refusal := .next (s.estimate log2e d a t)

/-! ### Reductions and dot products -/

/-- The operation of VRED and VSCAN. -/
def redOp : RedOp → LaneOp
  | .add => opAdd
  | .max => opMax
  | .min => opMin

/-- A node of a reduction, rounded and flushed as an instruction of its own (04 R81). -/
def redNode (fmode : BitVec 12) (op : RedOp) (ty : Ty) (x y : Nat) : Nat := (redOp op).apply fmode ty x y 0

/-- VRED: the pairwise tree into element 0, the rest zero (09 R193). -/
def execVred (d a : BitVec 6) (op : RedOp) (ty : Ty) (t : Bool) (s : State) : Host.Outcome State Fault Refusal :=
  .next (s.orRaise (s.trapV [d, a]) fun s =>
    s.emitVec 8 d (vecOf (tyBits ty) (pairTree (redNode s.me.ctl.fmode op ty) 9 (elems (s.rv a) (tyBits ty)))) t)

/-- The inclusive prefix by doubling steps, with fuel for the steps (09 R193). -/
def scanSteps (op : Nat → Nat → Nat) : Nat → Nat → List Nat → List Nat
  | 0, _, xs => xs
  | fuel + 1, k, xs =>
    if xs.length ≤ k then xs else scanSteps op fuel (2 * k) (xs.take k ++ List.zipWith op xs (xs.drop k))

/-- An element as `el` reads it and `res` delivers it. -/
def opSame : LaneOp := { flt := fun _ a _ _ => a, int := fun a _ _ => a }

/-- The prefixes of a register's elements: the first meets no node, and is delivered as `res` gives it (09 R184, R193). -/
def scanLanes (fmode : BitVec 12) (op : RedOp) (ty : Ty) (xs : List Nat) : List Nat :=
  match scanSteps (redNode fmode op ty) 9 1 xs with
  | x :: l => opSame.apply fmode ty x 0 0 :: l
  | [] => []

/-- VSCAN (09 R193). -/
def execVscan (d a : BitVec 6) (op : RedOp) (ty : Ty) (t : Bool) (s : State) : Host.Outcome State Fault Refusal :=
  .next (s.orRaise (s.trapV [d, a]) fun s =>
    s.emitVec 8 d (vecOf (tyBits ty) (scanLanes s.me.ctl.fmode op ty (elems (s.rv a) (tyBits ty)))) t)

/-- The sum of four products of VDOT (04 R81): for floating types, two pair sums rounded, then their sum rounded; for
integer types, exact. -/
def dotFour (fmode : BitVec 12) (ty : Ty) (a b : List Nat) : Nat :=
  match tyElt ty with
  | .flt _ =>
    let p := List.zipWith (fun x y => (elValue fmode ty x).mul (elValue fmode ty y)) a b
    let rd := (modeRM fmode).isRD
    let g := fun i => p.getD i .nan
    let lo := fltRes fmode .f32 ((g 0).add rd (g 1))
    let hi := fltRes fmode .f32 ((g 2).add rd (g 3))
    fltRes fmode .f32 ((FFmt.f32.value false lo).add rd (FFmt.f32.value false hi))
  | .int _ _ => patternOf 32 ((List.zipWith (fun x y => tyInt ty x * tyInt ty y) a b).foldl (· + ·) 0)

/-- VDOT's accumulation of one wide element (04 R81, 09 R194). -/
def dotAcc (fmode : BitVec 12) (ty : Ty) (d q : Nat) : Nat :=
  if (tyElt ty).isFlt then
    fltRes fmode .f32 ((elValue fmode .f32 d).add (modeRM fmode).isRD (FFmt.f32.value false q))
  else (d + q) % 2 ^ 32

/-- The result of VDOT on registers (09 R194). -/
def dotVec (fmode : BitVec 12) (ty : Ty) (acc : Bool) (a b d : VecReg) : VecReg :=
  let xs := elems a (tyBits ty)
  let ys := elems b (tyBits ty)
  let ds := elems d 32
  let n := xs.length / 4
  let qs := (List.range n).map fun g => dotFour fmode ty ((xs.drop (4 * g)).take 4) ((ys.drop (4 * g)).take 4)
  if acc then vecOf 32 (List.zipWith (dotAcc fmode ty) ds qs ++ ds.drop n) else vecOf 32 qs

/-- VDOT (09 R194). -/
def execVdot (d a b : BitVec 6) (ty : Ty) (acc : Bool) (s : State) : Host.Outcome State Fault Refusal :=
  .next (s.orRaise (s.trapV [d, a, b]) fun s =>
    s.emitVec 5 d (dotVec s.me.ctl.fmode ty acc (s.rv a) (s.rv b) (s.rv d)) false)

/-! ### Permutes and moves -/

/-- VPERM's result: an index into a, or, for 8-bit types, into the element's own half (09 R195). -/
def permVec (w : Nat) (a b : VecReg) : VecReg :=
  let xs := (elems a w).toArray
  let n := elemCount w
  vecOf w ((List.range n).zipWith (fun i j =>
    if w = 8 then xs.getD (256 * (i / 256) + j) 0 else if j < n then xs.getD j 0 else 0) (elems b w))

/-- VPERM (09 R195). -/
def execVperm (d a b : BitVec 6) (ty : Ty) (t : Bool) (s : State) : Host.Outcome State Fault Refusal :=
  .next (s.orRaise (s.trapV [d, a, b]) fun s => s.emitVec 6 d (permVec (tyBits ty) (s.rv a) (s.rv b)) t)

/-- VSHUF's result: d's elements index a and b together (09 R195). -/
def shufVec (w : Nat) (a b d : VecReg) : VecReg :=
  let xs := (elems a w ++ elems b w).toArray
  vecOf w ((elems d w).map fun j => xs.getD j 0)

/-- VSHUF (09 R195). -/
def execVshuf (d a b : BitVec 6) (ty : Ty) (t : Bool) (s : State) : Host.Outcome State Fault Refusal :=
  .next (s.orRaise (s.trapV [d, a, b]) fun s => s.emitVec 6 d (shufVec (tyBits ty) (s.rv a) (s.rv b) (s.rv d)) t)

/-- Every element of w bits the same. -/
def splat (w x : Nat) : VecReg := vecOf w (List.replicate (elemCount w) x)

/-- VBCAST: zero where the index lies beyond the elements (09 R196). -/
def execVbcast (d a : BitVec 6) (b : BitVec 5) (ty : Ty) (t : Bool) (s : State) : Host.Outcome State Fault Refusal :=
  let w := tyBits ty
  .next (s.orRaise (s.trapV [d, a]) fun s =>
    let i := (s.me.rs b).toNat
    s.emitVec 4 d (splat w (if i < elemCount w then elem (s.rv a) w i else 0)) t)

/-- VMOV (09 R196). -/
def execVmov (d a : BitVec 6) (_ty : Ty) (t : Bool) (s : State) : Host.Outcome State Fault Refusal :=
  .next (s.orRaise (s.trapV [d, a]) fun s => s.emitVec 4 d (s.rv a) t)

/-- VMOVS (09 R196). -/
def execVmovs (d : BitVec 6) (b : BitVec 5) (ty : Ty) (t : Bool) (s : State) : Host.Outcome State Fault Refusal :=
  .next (s.orRaise (s.trapV [d]) fun s => s.emitVec 4 d (splat (tyBits ty) (scalarElem (tyBits ty) (s.me.rs b))) t)

/-- The index i as an element: exact in every floating type, i modulo 256 for 8-bit types (09 R196). -/
def iotaElem (ty : Ty) (i : Nat) : Nat :=
  match tyElt ty with
  | .flt f => f.res .rne false (.ofNat i)
  | .int w _ => i % 2 ^ w

/-- VIOTA (09 R196). -/
def execViota (d : BitVec 6) (ty : Ty) (t : Bool) (s : State) : Host.Outcome State Fault Refusal :=
  .next (s.orRaise (s.trapV [d]) fun s => s.emitVec 4 d (vecGen (tyBits ty) (iotaElem ty)) t)

/-- VCNT: the number of nonzero elements in element 0 (09 R196). -/
def execVcnt (d a : BitVec 6) (ty : Ty) (t : Bool) (s : State) : Host.Outcome State Fault Refusal :=
  .next (s.orRaise (s.trapV [d, a]) fun s =>
    s.emitVec 8 d (vecOf 32 [(elems (s.rv a) (tyBits ty)).countP (· != 0)]) t)

/-! ### Chained operation -/

/-- The fields of a chain entry (03 R59). -/
def chOp (e : Word) (k : Nat) : Nat := bitsOf e.toNat (9 * k) 6
/-- Second-operand selector of a stage (03 R59). -/
def chSel (e : Word) (k : Nat) : Nat := bitsOf e.toNat (9 * k + 6) 3

/-- The element type of a chain entry, where VCH implements it (09 R197). -/
def chTy (e : Word) : Option Ty :=
  match bitsOf e.toNat 27 3 with
  | 0 => some .f32
  | 1 => some .bf16
  | 2 => some .f16
  | 3 => some .i32
  | 5 => some .i16
  | _ => none

/-- The entry is legal (03 R59, 09 R198). -/
def chLegal (e : Word) : Bool :=
  match chTy e with
  | none => false
  | some ty => decide (e.toNat < 2 ^ 30) && [0, 1, 2].all fun k => decide (chOp e k ≤ (if (tyElt ty).isFlt then 14 else 12))

/-- A stage on values: x the input, o the operand, b and d the elements of those registers (09 R197). -/
def chFlt (rd : Bool) (op : Nat) (x o b d : Num) : Num :=
  match op with
  | 1 => x.add rd o
  | 2 => x.add rd o.neg
  | 3 => o.add rd x.neg
  | 4 => x.mul o
  | 5 => (x.mul o).add rd b
  | 6 => (x.mul o).add rd d
  | 7 => b.add rd (x.mul o).neg
  | 8 => d.add rd (x.mul o).neg
  | 9 => x.min o
  | 10 => x.max o
  | 11 => x.abs
  | 12 => x.neg
  | 13 => (Num.ofNat 2).add rd (x.mul o).neg
  | _ => ((Num.ofNat 3).add rd (x.mul o).neg).half

/-- A stage on integers (09 R197). -/
def chInt (op : Nat) (x o b d : Int) : Int :=
  match op with
  | 1 => x + o
  | 2 => x - o
  | 3 => o - x
  | 4 => x * o
  | 5 => x * o + b
  | 6 => x * o + d
  | 7 => b - x * o
  | 8 => d - x * o
  | 9 => min x o
  | 10 => max x o
  | 11 => x.natAbs
  | _ => -x

/-- The constant that a selector from 4 to 7 names (09 R197). -/
def chConst (sel : Nat) : Int :=
  match sel with
  | 4 => 0
  | 5 => 1
  | 6 => 2
  | _ => -1

/-- One stage on codes: operands a, b and d are flushed as inputs, the stage input x is not (09 R197). -/
def chStage (fmode : BitVec 12) (ty : Ty) (e : Word) (a b d : Nat) (x k : Nat) : Nat :=
  let op := chOp e k
  let sel := chSel e k
  if op = 0 then x
  else match tyElt ty with
    | .flt f =>
      let el := elValue fmode ty
      let o := match sel with
        | 0 => el b
        | 1 => el d
        | 2 => f.value false x
        | 3 => el a
        | n => .ofInt (chConst n)
      fltRes fmode f (chFlt (modeRM fmode).isRD op (f.value false x) o (el b) (el d))
    | .int w _ =>
      let o := match sel with
        | 0 => tyInt ty b
        | 1 => tyInt ty d
        | 2 => tyInt ty x
        | 3 => tyInt ty a
        | n => chConst n
      patternOf w (chInt op (tyInt ty x) o (tyInt ty b) (tyInt ty d))

/-- An element's code after input flushing: a subnormal becomes the zero of its sign, a NaN keeps its code (09 R197). -/
def flushCode (fmode : BitVec 12) (ty : Ty) (x : Nat) : Nat :=
  match tyElt ty with
  | .flt f => if flushIn fmode (.flt f) && decide (x % f.signBit < 2 ^ f.frac) then x / f.signBit * f.signBit else x
  | .int _ _ => x

/-- One element of VCH (09 R197). -/
def chElem (fmode : BitVec 12) (ty : Ty) (e : Word) (a b d : Nat) : Nat :=
  [0, 1, 2].foldl (chStage fmode ty e a b d) (flushCode fmode ty a)

/-- VCH's traps: ILLEGAL for its entry, VWIN (03 R59, 09 R198). -/
def State.trapVch (s : State) (d a b : BitVec 6) (n : BitVec 3) : Option Raise :=
  pickRaise [failIf (!chLegal s.me.ch[n.toNat]) s.illegal, s.trapV [d, a, b]]

/-- VCH (09 R197). -/
def execVch (d a b : BitVec 6) (n : BitVec 3) (t : Bool) (s : State) : Host.Outcome State Fault Refusal :=
  .next (s.orRaise (s.trapVch d a b n) fun s =>
    let e := s.me.ch[n.toNat]
    match chTy e with
    | some ty => s.emitVec 8 d (lanes (tyBits ty) (chElem s.me.ctl.fmode ty e) (s.rv a) (s.rv b) (s.rv d)) t
    | none => s)

/-! ### Loads and stores -/

/-- sc from the issue of a vector load to its delivery (09 R199, 22 R381). -/
def Core.vldReady (c : Core) : Nat := 2 + 3 * c.vecScale

/-- The address of VLD and VST, in 64 bits (09 R199). -/
def Core.vmAddr (c : Core) (a : BitVec 5) (imm : BitVec 11) : Nat := (c.rs a + 512 * sext imm).toNat

/-- A vector load of bytes from an address: VWIN or the local violation, else the bytes with zeros beyond them. -/
def State.vload (s : State) (d : BitVec 6) (addr n : Nat) : State :=
  s.orRaise (pickRaise [s.trapV [d], s.localAccess addr n false]) fun s =>
    if n = 0 then s.emit s.me.vldReady (.vec (s.me.phys d.toNat) 0 false)
    else s.emitLoad s.me.vldReady addr n (.vec (s.me.phys d.toNat))

/-- A vector store of the first n bytes of a register. -/
def State.vstore (s : State) (d : BitVec 6) (addr n : Nat) (half : Bool) : State :=
  s.orRaise (pickRaise [s.trapV [d], s.localAccess addr n true]) fun s =>
    if n = 0 then s else s.emitStore addr ((vecBytes (s.rv d)).take n) half

/-- VLD (09 R199). -/
def execVld (d : BitVec 6) (a : BitVec 5) (imm : BitVec 11) (s : State) : Host.Outcome State Fault Refusal :=
  .next (s.vload d (s.me.vmAddr a imm) 512)

/-- VST (09 R199). -/
def execVst (d : BitVec 6) (a : BitVec 5) (imm : BitVec 11) (s : State) : Host.Outcome State Fault Refusal :=
  .next (s.vstore d (s.me.vmAddr a imm) 512 false)

/-- The element width of VLDC and VSTC in bits (09 R200). -/
def vcWidth (count : Word) : Nat := 32 / 2 ^ (count.toNat % 4)

/-- The elements VLDC and VSTC touch (09 R200). -/
def vcElems (count : Word) : Nat := min (count.toNat / 4) (elemCount (vcWidth count))

/-- The bytes VLDC and VSTC touch (09 R200). -/
def vcBytes (count : Word) : Nat := ceilDiv (vcElems count * vcWidth count) 8

/-- An odd number of 4-bit elements leaves a high nibble (09 R200). -/
def vcHalf (count : Word) : Bool := vcWidth count == 4 && vcElems count % 2 == 1

/-- The address of VLDC and VSTC (09 R200). -/
def Core.vcAddr (c : Core) (base : BitVec 5) (imm : BitVec 6) : Nat := (c.rs base + 512 * zext imm).toNat

/-- VLDC (09 R200). -/
def execVldc (d : BitVec 6) (base count : BitVec 5) (imm : BitVec 6) (s : State) : Host.Outcome State Fault Refusal :=
  let n := s.me.rs count
  .next (s.vload d (s.me.vcAddr base imm) (vcBytes n))

/-- VSTC (09 R200). -/
def execVstc (d : BitVec 6) (base count : BitVec 5) (imm : BitVec 6) (s : State) : Host.Outcome State Fault Refusal :=
  let n := s.me.rs count
  .next (s.vstore d (s.me.vcAddr base imm) (vcBytes n) (vcHalf n))

/-- The address of row k from a slot index of a handle (09 R201). -/
def Handle.rowAddr (h : Handle) (index k : Nat) : Nat :=
  h.slotAddr (index + k / (h.slotBytes / 512)) + 512 * (k % (h.slotBytes / 512))

/-- VLDH (09 R201). -/
def execVldh (d : BitVec 6) (h : BitVec 4) (k : BitVec 10) (s : State) : Host.Outcome State Fault Refusal :=
  .next (match s.me.handles[h.toNat] with
    | some x => s.vload d (x.rowAddr x.cons k.toNat) 512
    | none => s.orRaise (pickRaise [s.trapV [d], some (handleTrap h)]) id)

/-- VSTH: HANDLE for h15 (09 R201). -/
def execVsth (d : BitVec 6) (h : BitVec 4) (k : BitVec 10) (s : State) : Host.Outcome State Fault Refusal :=
  .next (match s.me.handles[h.toNat] with
    | some x =>
      if h = 15 then s.orRaise (pickRaise [s.trapV [d], some (handleTrap h)]) id
      else s.vstore d (x.rowAddr x.prod k.toNat) 512 false
    | none => s.orRaise (pickRaise [s.trapV [d], some (handleTrap h)]) id)

/-- The base VWIN computes (09 R202). -/
def Core.winBase (c : Core) (a : BitVec 5) (imm : BitVec 11) : Word := c.rs a + sext imm

/-- VWIN refuses a base that is no multiple of 32 or lies outside 0 to 1,504 (03 R47). -/
def State.trapVwin (s : State) (a : BitVec 5) (imm : BitVec 11) : Option Raise :=
  failIf (!ctlLegal 0x019 (s.me.winBase a imm)) (.trap 0x03 (s.me.winBase a imm) 0)

/-- VWIN: governs names from the next bundle (09 R202). -/
def execVwin (a : BitVec 5) (imm : BitVec 11) (s : State) : Host.Outcome State Fault Refusal :=
  .next (s.orRaise (s.trapVwin a imm) fun s => s.emit 1 (.vwb ((s.me.winBase a imm).setWidth 11)))

end Sys2Proof.Machine
end

