-- ==== Sys2Proof/Machine/Transform.lean ====
section
/-! DEFINITION. The X slot: transposer, converter, b4 packer, table interpolator and XEXP (07 R135, 11 R225-R234, R242). -/

namespace Sys2Proof.Machine

/-- Element width of a width code (11 R225). -/
def xwBits : XW → Nat
  | .w32 => 32
  | .w16 => 16
  | .w8 => 8
  | .w4 => 4

/-! ### Transpose, zip and selection -/

/-- XPOSE's element places: place j·r + i of the transpose holds place i·C + j of the source (11 R226). -/
def xposeVec (w cols : Nat) (a : VecReg) : VecReg :=
  let xs := (elems a w).toArray
  let r := elemCount w / cols
  vecGen w fun p => xs.getD (p % r * cols + p / r) 0

/-- XPOSE (11 R226). -/
def execXpose (d a : BitVec 6) (c : BitVec 3) (w : XW) (t : Bool) (s : State) : Host.Outcome State Fault Refusal :=
  .next (s.orRaise (s.trapV [d, a]) fun s => s.emitVec 8 d (xposeVec (xwBits w) (2 ^ c.toNat) (s.rv a)) t)

/-- The registers of a pair or quad at a name receive consecutive runs of elements. -/
def State.emitRuns (s : State) (lat : Nat) (d : BitVec 6) (w : Nat) (runs : List (List Nat)) : State :=
  ((List.range runs.length).zip runs).foldl (fun s (r, xs) =>
    s.emitV lat (.vec (s.me.phys (d.toNat + r)) (vecOf w xs) false)) s

/-- Two lists, element about. -/
def zipAbout : List Nat → List Nat → List Nat
  | a :: as, b :: bs => a :: b :: zipAbout as bs
  | _, _ => []

/-- XZIP (11 R227). -/
def execXzip (d a b : BitVec 6) (w : XW) (s : State) : Host.Outcome State Fault Refusal :=
  .next (s.orRaise (s.vwinCheck (groupNames d .pair ++ [a.toNat, b.toNat])) fun s =>
    let n := elemCount (xwBits w)
    let out := zipAbout (elems (s.rv a) (xwBits w)) (elems (s.rv b) (xwBits w))
    s.emitRuns 4 d (xwBits w) [out.take n, out.drop n])

/-- XUNZIP (11 R227). -/
def execXunzip (d a : BitVec 6) (w : XW) (s : State) : Host.Outcome State Fault Refusal :=
  .next (s.orRaise (s.vwinCheck (groupNames a .pair ++ groupNames d .pair)) fun s =>
    let xs := elems (s.me.rv a.toNat) (xwBits w) ++ elems (s.me.rv (a.toNat + 1)) (xwBits w)
    s.emitRuns 4 d (xwBits w) [everyKth 2 0 xs, everyKth 2 1 xs])

/-- XCOMPR: the elements whose mask is set, then zeros (11 R228). -/
def comprList : List Nat → List Nat → List Nat
  | a :: as, b :: bs => if b ≠ 0 then a :: comprList as bs else comprList as bs
  | _, _ => []

/-- XEXPAND: the next element of a where the mask is set, else zero (11 R228). -/
def expandList : List Nat → List Nat → List Nat
  | _, [] => []
  | as, b :: bs =>
    if b ≠ 0 then
      match as with
      | a :: as => a :: expandList as bs
      | [] => 0 :: expandList [] bs
    else 0 :: expandList as bs

/-- A selection by a mask register. -/
def State.select (s : State) (f : List Nat → List Nat → List Nat) (d a b : BitVec 6) (w : Nat) (t : Bool) : State :=
  s.orRaise (s.trapV [d, a, b]) fun s => s.emitVec 6 d (vecOf w (f (elems (s.rv a) w) (elems (s.rv b) w))) t

/-- XEXPAND (11 R228). -/
def execXexpand (d a b : BitVec 6) (w : XW) (t : Bool) (s : State) : Host.Outcome State Fault Refusal :=
  .next (s.select expandList d a b (xwBits w) t)

/-- XCOMPR (11 R228). -/
def execXcompr (d a b : BitVec 6) (w : XW) (t : Bool) (s : State) : Host.Outcome State Fault Refusal :=
  .next (s.select comprList d a b (xwBits w) t)

/-! ### Conversion -/

/-- XCVT samples the LFSR (04 R71). -/
def xcvtSamples (fmode : BitVec 12) : XRound → Bool
  | .sr => true
  | .fm => modeSR fmode
  | _ => false

/-- How XCVT rounds element i (04 R71, 11 R229). -/
def xcvtRounding (fmode : BitVec 12) (lfsr : BitVec 32) (r : XRound) (i : Nat) : Rounding :=
  match r with
  | .rne => .mode .rne
  | .rz => .mode .rz
  | .sr => .stochastic (lfsrDraw lfsr i)
  | .fm => fmodeRounding fmode lfsr i

/-- What XCVT converts to (11 R229). -/
def State.xcvtConv (s : State) (a : BitVec 6) (src dst : Elt) (r : XRound) : List Conv :=
  let t := s.me.ctl
  let xs := (elems (s.rv a) src.width).take (elemCount (max src.width dst.width))
  convList src dst t.fmode (xcvtRounding t.fmode t.lfsr r) xs

/-- XCVT; b4 in either format is ILLEGAL (11 R229). -/
def execXcvt (d a : BitVec 6) (fin fout : Fmt) (r : XRound) (s : State) : Host.Outcome State Fault Refusal :=
  .next (match fmtElt fin, fmtElt fout with
    | some src, some dst =>
      s.orRaise (pickRaise [s.trapV [d, a], s.convTrap (convCounts (s.xcvtConv a src dst r))]) fun s =>
        s.emitConv 4 d dst.width (s.xcvtConv a src dst r) false (xcvtSamples s.me.ctl.fmode r)
    | _, _ => s.raise s.illegal)

/-! ### b4 blocks -/

/-- The largest code magnitude M of each block type (11 R230). -/
def b4Max (type : Nat) : Nat := [7, 6, 8, 12].getD type 12

/-- The smallest exponent x whose scale times M reaches m, 62 where none does (11 R230), from x on with fuel. -/
def packExp (type : Nat) (m : Num) : Nat → Nat → Nat
  | 0, x => x
  | fuel + 1, x => if ((b4Scale x).mul (.ofNat (b4Max type))).lt m then packExp type m fuel (x + 1) else x

/-- v divided by 2^(x - 32): the quotient that a block's code stands for (04 R69). -/
def b4Quot (x : Nat) (v : Num) : Num := v.mul (.fin false (2 ^ 32) (2 ^ x))

/-- A packed block: its scale byte, its codes and what it counts (11 R230; 04 R69, R76). -/
def packBlock (type : Nat) (rnd : Nat → Rounding) (flush : Bool) (vs : List Num) : Nat × List Conv × List Conv :=
  if vs.any Num.isNan then (type * 64 + 63, List.replicate 32 ⟨0, false, false, false⟩, [⟨0, false, false, true⟩])
  else
    let m := vs.foldl (fun m v => match v with | .fin _ _ _ => if m.lt v.abs then v.abs else m | _ => m) Num.zero
    let x := packExp type m 62 0
    let cs := (List.range vs.length).zipWith (fun i v => b4Encode type (rnd i) flush (b4Quot x v)) vs
    (type * 64 + x, cs, cs)

/-- Source elements of XPACK and targets of XUNPK (11 R230, R231). -/
def packElt (bf16 : Bool) : FFmt := if bf16 then .bf16 else .f32

/-- The sixteen blocks that XPACK makes (11 R230). -/
def State.xpackBlocks (s : State) (a : BitVec 6) (type : Nat) (bf16 : Bool) : List (Nat × List Conv × List Conv) :=
  let t := s.me.ctl
  let f := packElt bf16
  let xs := interleave ((groupNames a (packGroup bf16)).map fun n => elems (s.me.rv n) f.width) 512
  let vs := xs.map (f.value (flushIn t.fmode (.flt f)))
  (List.range 16).map fun j =>
    packBlock type (fun i => fmodeRounding t.fmode t.lfsr (32 * j + i)) (t.fmode.getLsbD 11) ((vs.drop (32 * j)).take 32)

/-- XPACK's traps: ILLEGAL where b names d, VWIN, CONVTHR (11 R230, 04 R77). -/
def State.trapXpack (s : State) (d a b : BitVec 6) (type : Nat) (bf16 : Bool) : Option Raise :=
  pickRaise [failIf (b == d) s.illegal, s.vwinCheck (d.toNat :: b.toNat :: groupNames a (packGroup bf16)),
    s.convTrap (convCounts ((s.xpackBlocks a type bf16).flatMap (·.2.2)))]

/-- XPACK (11 R230). -/
def execXpack (d a b : BitVec 6) (bty : BitVec 2) (srcBf16 : Bool) (s : State) : Host.Outcome State Fault Refusal :=
  .next (s.orRaise (s.trapXpack d a b bty.toNat srcBf16) fun s =>
    let l := s.xpackBlocks a bty.toNat srcBf16
    ((((s.emitVec 6 d (vecOf 4 (l.flatMap fun x => x.2.1.map (·.bits))) false).emitVec 6 b (vecOf 8 (l.map (·.1))) false).emitCounts
      (convCounts (l.flatMap (·.2.2)))).stepLfsr (modeSR s.me.ctl.fmode)))

/-- XUNPK: every value is exact in its target (11 R231). -/
def execXunpk (d a b : BitVec 6) (dstBf16 : Bool) (s : State) : Host.Outcome State Fault Refusal :=
  .next (s.orRaise (s.vwinCheck (groupNames d (packGroup dstBf16) ++ [a.toNat, b.toNat])) fun s =>
    let f := packElt dstBf16
    let g := packGroup dstBf16
    let codes := (elems (s.rv a) 4).take 512
    let scales := (elems (s.rv b) 8).toArray
    let flush := s.me.ctl.fmode.getLsbD 10
    let xs := (List.range 512).zipWith (fun i c => f.res .rne false (b4Value (scales.getD (i / 32) 0) c flush (.ofNat 1))) codes
    (List.range g.count).foldl (fun s r =>
      s.emitV 6 (.vec (s.me.phys (d.toNat + r)) (vecOf f.width (everyKth g.count r xs)) false)) s)

/-! ### Table interpolation -/

/-- The function that XTLD's registers give, invalid where ety names no type (11 R233). -/
def tableOf (header : VecReg) (quad : List VecReg) : Option TableFn :=
  let words := quad.flatMap fun v => elems v 32
  let ety := elem header 32 2
  if 1 < ety then none
  else some
    { lo := BitVec.ofNat 32 (elem header 32 0), scale := BitVec.ofNat 32 (elem header 32 1), bf16 := ety == 1
      segs := (everyKth 2 0 words).zipWith (fun x y => (BitVec.ofNat 32 x, BitVec.ofNat 32 y)) (everyKth 2 1 words) }

/-- XTLD: part of the shadow bank from issue + 1 (11 R233). -/
def execXtld (d a : BitVec 6) (fn : BitVec 4) (s : State) : Host.Outcome State Fault Refusal :=
  .next (s.orRaise (s.vwinCheck (d.toNat :: groupNames a .quad)) fun s =>
    s.emit 1 (.shadow fn (tableOf (s.rv d) ((groupNames a .quad).map s.me.rv))))

/-- XTSW: the active bank of later bundles is the shadow bank of this sc (11 R233). -/
def execXtsw (s : State) : Host.Outcome State Fault Refusal := .next (s.emit 1 (.tables s.me.xs.shadow))

/-- Rounded to f32 to nearest, not flushed. -/
def rnf32 (x : Num) : Num := FFmt.f32.value false (FFmt.f32.res .rne false x)

/-- The segment and the place t in it of a position u (11 R234). -/
def tableSeg (u : Num) : Nat × Num :=
  match u with
  | .nan => (0, .zero)
  | .inf neg => if neg then (0, .zero) else (255, .ofNat 1)
  | .fin neg n d =>
    if neg then (0, .zero) else if 256 * d ≤ n then (255, .ofNat 1) else (n / d, .fin false (n % d) d)

/-- One element of XTBL (11 R234). -/
def tableElem (fmode : BitVec 12) (f : TableFn) (fmt : FFmt) (x : Nat) : Nat :=
  let v := fmt.value (flushIn fmode (.flt fmt)) x
  if v.isNan then fmt.nanCode
  else
    let u := rnf32 ((rnf32 (v.add false (FFmt.f32.value false f.lo.toNat).neg)).mul (FFmt.f32.value false f.scale.toNat))
    let (k, t) := tableSeg u
    let (c0, c1) := f.segs.getD k (0, 0)
    fltRes fmode fmt ((FFmt.f32.value false c0.toNat).add (modeRM fmode).isRD ((FFmt.f32.value false c1.toNat).mul t))

/-- XTBL: an invalid function is ILLEGAL (11 R234). -/
def execXtbl (d a : BitVec 6) (fn : BitVec 4) (t : Bool) (s : State) : Host.Outcome State Fault Refusal :=
  .next (match s.me.xs.active[fn.toNat] with
    | none => s.raise s.illegal
    | some f => s.orRaise (s.trapV [d, a]) fun s =>
      let fmt := packElt f.bf16
      s.emitVec 6 d (vecOf fmt.width ((elems (s.rv a) fmt.width).map (tableElem s.me.ctl.fmode f fmt))) t)

/-! ### Expanded rows -/

/-- The names of the registers that XEXP fills (11 R242; names past v63 follow R47's formula, log 22). -/
def xexpNames (d : BitVec 6) (n1 : BitVec 3) : List Nat := (List.range (n1.toNat + 1)).map (d.toNat + ·)

/-- XEXP's traps: VWIN, then HANDLE, then the local violation of its rows (11 R242, 05 R101). -/
def State.trapXexp (s : State) (d k : BitVec 6) (n1 : BitVec 3) : Option Raise :=
  let rest := match s.me.handles[15] with
    | none => some (handleTrap 15)
    | some h =>
      if h.filled == 0 || decide (h.slotBytes / 512 < k.toNat + n1.toNat + 1) then some (handleTrap 15)
      else s.localAccess (h.slotAddr h.cons + 512 * k.toNat) (512 * (n1.toNat + 1)) false
  pickRaise [s.vwinCheck (xexpNames d n1), rest]

/-- XEXP (11 R242). -/
def execXexp (d k : BitVec 6) (n1 : BitVec 3) (adv : Bool) (s : State) : Host.Outcome State Fault Refusal :=
  .next (s.orRaise (s.trapXexp d k n1) fun s =>
    match s.me.handles[15] with
    | none => s
    | some h =>
      let at_ := h.slotAddr h.cons + 512 * k.toNat
      let s := (List.range (n1.toNat + 1)).foldl (fun s j =>
        s.emitLoad (6 * s.me.vecScale) (at_ + 512 * j) 512 (.vec (s.me.phys (d.toNat + j)))) s
      if adv then s.emit 1 (.advance 15 false 1) else s)

end Sys2Proof.Machine
end

