-- ==== Sys2Proof/Machine/Copy.lean ====
section
/-! DEFINITION. The C slots at issue: copies, atomics, fences, stash controls, decoder and bank-queue commands and the
collective step record (07 R134; 10 R203-R224; 11 R238, R241; 19 R353). A command that enters a queue is carried out by
the events of Engine.lean. -/

namespace Sys2Proof.Machine

/-! ### Entering a queue -/

/-- A command enters the issuing slot's queue as a member of its open batch (10 R203, R204). A failure found already at
issue is reported when its queue starts it (10 R206). -/
def State.member (s : State) (q : QueueId) (kind : CmdKind) (fail : Option (Nat × Nat × Nat) := none) (hint : Option Hint := none) : State :=
  let id := s.me.q.nextId
  let s := s.enqueue q kind (some s.mySlotCb) (hint.map (·.code.toNat))
  match fail with
  | none => s
  | some _ => s.modMe fun c => c.modCmd id fun k => { k with fail := fail }

/-- The issuing slot's own queue. -/
def State.myQueue (s : State) : QueueId := slotQueue s.curSlot

/-- The copy moves codes unchanged (10 R210). -/
def rawCopy (d s : TdWord) : Bool := tdFmt s == tdFmt d && ((!tdScaled s && !tdScaled d) || tdFmt d == some .b4)

/-- A converting copy samples the LFSR under fmode.sr (04 R71). -/
def copySamples (fmode : BitVec 12) (d s : TdWord) : Bool := modeSR fmode && !rawCopy d s

/-- A b4 destination that no raw copy can fill (10 R210). -/
def badB4 (d s : TdWord) : Bool :=
  tdFmt d == some .b4
    && (tdFmt s != some .b4 || tdScaled s != tdScaled d || (tdScaled s && tdTscale s != tdTscale d))

/-- OMSLOT for a space-2 destination (10 R211). -/
def State.slotTrap (s : State) (i : BitVec 6) : Option Raise :=
  let d := s.me.td[i.toNat]
  if tdSpace d == 2 then s.me.slotCheck (tdSlots d) else none

/-- Spaces of a COPY's source, of its destination and of a table (10 R208). -/
def copySources : List Nat := [0, 1, 3, 4, 7, 8]
/-- Spaces of a COPY's destination (10 R208). -/
def copyDests : List Nat := [0, 1, 2, 3, 4, 7, 8]
/-- Spaces of a GATHER or SCATTER table (10 R208). -/
def tableSpaces : List Nat := [0, 3, 7]

/-! ### Copies -/

/-- What COPY meets at issue (10 R208-R211). -/
def State.trapCopy (s : State) (d src : BitVec 6) (dests sources : List Nat) : Option Raise :=
  let a := s.me.td[src.toNat]
  let b := s.me.td[d.toNat]
  pickRaise [s.tdCheck src sources, s.tdCheck d dests,
    failIf (tdRows a != tdRows b || tdCols a != tdCols b || badB4 b a) (tdescTrap d), s.slotTrap d]

/-- COPY enters its queue (10 R210). -/
def State.issueCopy (s : State) (d src : BitVec 6) (toMedia fromMedia : Bool) (hint : Option Hint) : State :=
  let sampled := copySamples s.me.ctl.fmode s.me.td[d.toNat] s.me.td[src.toNat]
  (s.member s.myQueue (.copy (s.me.opnd d) (s.me.opnd src) toMedia fromMedia) none hint).stepLfsr sampled

/-- COPY (10 R210). -/
def execCopy (d src : BitVec 6) (hint : Hint) (s : State) : Host.Outcome State Fault Refusal :=
  .next (s.orRaise (s.trapCopy d src copyDests copySources) fun s => s.issueCopy d src false false (some hint))

/-- Formats of PERSIST and SCMRD are equal and unscaled (19 R353). -/
def State.trapScm (s : State) (d src : BitVec 6) : Option Raise :=
  let a := s.me.td[src.toNat]
  let b := s.me.td[d.toNat]
  failIf (tdFmt a != tdFmt b || tdScaled a || tdScaled b) (tdescTrap d)

/-- PERSIST: a raw copy onto the SCM media (19 R353). -/
def execPersist (d src : BitVec 6) (s : State) : Host.Outcome State Fault Refusal :=
  .next (s.orRaise (pickRaise [s.privCheck, s.trapCopy d src [8] copySources, s.trapScm d src]) fun s =>
    s.issueCopy d src true false none)

/-- SCMRD: a raw copy from the SCM media (19 R353). -/
def execScmrd (d src : BitVec 6) (s : State) : Host.Outcome State Fault Refusal :=
  .next (s.orRaise (pickRaise [s.privCheck, s.trapCopy d src copyDests [8], s.trapScm d src]) fun s =>
    s.issueCopy d src false true none)

/-- COPYHs on a handle that are not complete (10 R213). -/
def Core.copyhs (c : Core) (h : BitVec 4) : Nat :=
  ((c.q.ca ++ c.q.cb).filter fun k => match k.kind with | .copyh g _ _ => g == h | _ => false).length

/-- Bytes of a COPYH payload (10 R213). -/
def copyhBytes (d : TdWord) : Nat := tdPacked d + tdScales d

/-- HANDLE for COPYH (10 R213). -/
def State.trapCopyh (s : State) (h : BitVec 4) (src : BitVec 6) : Option Raise :=
  if h = 15 then some (handleTrap h)
  else match s.me.handles[h.toNat] with
    | none => some (handleTrap h)
    | some x =>
      failIf (decide (x.free ≤ s.me.copyhs h) || decide (x.slotBytes < copyhBytes s.me.td[src.toNat])) (handleTrap h)

/-- COPYH: the slot is reserved at issue (10 R213). -/
def execCopyh (h : BitVec 4) (src : BitVec 6) (hint : Hint) (s : State) : Host.Outcome State Fault Refusal :=
  .next (s.orRaise (pickRaise [s.tdCheck src copySources, s.trapCopyh h src]) fun s =>
    let slot := match s.me.handles[h.toNat] with
      | some x => (x.prod + s.me.copyhs h) % (2 * x.slotCount)
      | none => 0
    s.member s.myQueue (.copyh h slot (s.me.opnd src)) none (some hint))

/-! ### GATHER and SCATTER -/

/-- The packed codes of a space-0 or space-4 tensor read at issue, or the violation of its span (10 R215; 06 R106). -/
def State.readAtIssue (s : State) (i : BitVec 6) : Except (Nat × Nat) Mem :=
  let o := s.me.opnd i
  let d := o.td
  if tdSpace d == 4 then
    .ok (((List.range o.regs.length).zip o.regs).foldl (fun m (j, r) => m.put (512 * j) (vecBytes (s.me.readPhys r))) [])
  else
    (tdRuns d).foldl (fun acc (off, place, n) =>
      match acc with
      | .error e => .error e
      | .ok m =>
        let a := tdPlaceBits d + off
        match s.me.scratchCheck a n with
        | some cls => .error (cls, a)
        | none => .ok (m.put place (s.me.localView s.me.issue a n))) (.ok [])

/-- Elements of a tensor read at issue, as integers of its format. -/
def State.indicesAtIssue (s : State) (i : BitVec 6) : Except (Nat × Nat) (List Int) :=
  let d := s.me.td[i.toNat]
  (s.readAtIssue i).map fun m =>
    (List.range (tdCount d)).map fun e =>
      let x := packedCode m 32 e
      if tdFmt d == some .i32 then signedOf 32 x else (x : Int)

/-- What GATHER and SCATTER meet at issue; `tab` is the table and `rows` the tensor of the moved rows (10 R208, R215). -/
def State.trapRows (s : State) (d src idx tab rows : BitVec 6) (dests sources : List Nat) : Option Raise :=
  let i := s.me.td[idx.toNat]
  let t := s.me.td[tab.toNat]
  let o := s.me.td[rows.toNat]
  pickRaise [s.tdCheck src sources, s.tdCheck d dests, s.tdCheck idx [0, 4],
    failIf (tdFmt i != some .i32 && tdFmt i != some .n32) (tdescTrap idx),
    failIf (tdRows o != tdCount i || tdCols o != tdCols t) (tdescTrap rows),
    failIf (badB4 s.me.td[d.toNat] s.me.td[src.toNat]) (tdescTrap d), s.slotTrap d]

/-- GATHER or SCATTER enters its queue, its indices read at issue (10 R215). -/
def State.issueRows (s : State) (d src idx : BitVec 6) (kind : Opnd → Opnd → List Int → CmdKind) (hint : Hint) : State :=
  let sampled := copySamples s.me.ctl.fmode s.me.td[d.toNat] s.me.td[src.toNat]
  let s := match s.indicesAtIssue idx with
    | .ok l => s.member s.myQueue (kind (s.me.opnd d) (s.me.opnd src) l) none (some hint)
    | .error (cls, addr) => s.member s.myQueue (kind (s.me.opnd d) (s.me.opnd src) []) (some (1, cls, addr)) (some hint)
  s.stepLfsr sampled

/-- GATHER (10 R215). -/
def execGather (d src idx : BitVec 6) (hint : Hint) (s : State) : Host.Outcome State Fault Refusal :=
  .next (s.orRaise (s.trapRows d src idx src d copyDests tableSpaces) fun s => s.issueRows d src idx .gather hint)

/-- SCATTER (10 R215). -/
def execScatter (d src idx : BitVec 6) (hint : Hint) (s : State) : Host.Outcome State Fault Refusal :=
  .next (s.orRaise (s.trapRows d src idx d src tableSpaces copySources) fun s => s.issueRows d src idx .scatter hint)

/-! ### Batches and fences -/

/-- CBATCH closes the open batch of its queue and opens a new one (10 R204, R205). -/
def execCbatch (addr value : BitVec 5) (counters : Bool) (s : State) : Host.Outcome State Fault Refusal :=
  let cb := s.mySlotCb
  let va := if addr = 0 then none else some (s.me.rs addr)
  let v := (s.me.rs value).setWidth 32
  let s := s.modMe fun c =>
    let q := c.q.withOpen cb
    let num := q.openNum cb
    let q := q.modBatch cb num fun b => { b with closed := true }
    { c with q := if cb then { q with nextBatchB := num + 1 } else { q with nextBatchA := num + 1 } }
  let num := s.me.q.openNum cb - 1
  .next (s.enqueue s.myQueue (.cbatch num va v counters))

/-- QFENCE: one joining entry in each named queue (06 R109, 10 R218). -/
def execQfence (mask : QMask) (s : State) : Host.Outcome State Fault Refusal :=
  let id := s.nextFence
  let s := { s with nextFence := id + 1 }
  .next ((maskList mask).foldl (fun s q => s.enqueue q (.qfence id)) s)

/-! ### Atomics -/

/-- Bits of an atomic's width. -/
def amoBytes : Width → Nat
  | .w4 => 4
  | .w8 => 8

/-- An unassigned operation, or .fadd on 8 bytes, is ILLEGAL (10 R216). -/
def State.trapAmo (s : State) (op : BitVec 4) (w : Width) : Option Raise :=
  failIf (decide (9 < op.toNat) || (op.toNat == 9 && w == .w8)) s.illegal

/-- AMO (10 R216). -/
def execAmo (op : BitVec 4) (addr value result : BitVec 5) (o : Order) (w : Width) (s : State) :
    Host.Outcome State Fault Refusal :=
  .next (s.orRaise (s.trapAmo op w) fun s =>
    let v := BitVec.ofNat 64 ((s.me.rs value).toNat % 2 ^ (8 * amoBytes w))
    s.member s.myQueue (.amo op (s.me.rs addr) v (if result = 0 then none else some (s.me.rs result)) o w))

/-- AMOCAS (10 R217). -/
def execAmocas (addr expected new result : BitVec 5) (o : Order) (s : State) : Host.Outcome State Fault Refusal :=
  .next (s.member s.myQueue
    (.amocas (s.me.rs addr) (s.me.rs expected) (s.me.rs new) (if result = 0 then none else some (s.me.rs result)) o))

/-! ### Stash control -/

/-- Why a granule's dirty bytes cannot reach their home, if they cannot (05 R101, 10 R220, 21 R375). -/
def State.writeBackFail (s : State) (c : CoreId) (g : Granule) : Option (Nat × Nat) :=
  match (s.core c).granuleIa g with
  | none => none
  | some ia =>
    if g.dirty == 0 then none else (s.homeFail (.core c) ia).map fun cls => (cls, ia)

/-- The dirty bytes of a granule reach their home, and the granule stays clean (05 R91). -/
def State.writeBackGranule (s : State) (c : CoreId) (g : Granule) : State :=
  match (s.core c).granuleIa g with
  | some ia => (s.pokeCells (s.homePage ia) ia ((s.core c).dirtyCells g 0 4096)).modCore c fun x => x.cleanGranule g.base 0 4096
  | none => s

/-- Granules of a core that a stash map entry covers. -/
def Core.granulesOf (c : Core) (e : StashEntry) : List Granule :=
  c.loc.granules.filter fun g => decide (e.lbase ≤ g.base) && decide (g.base < e.lbase + e.len)

/-- A store into an entry's range. -/
def LocalStore.inEntry (st : LocalStore) (e : StashEntry) : Bool :=
  decide (e.lbase < st.addr + st.bytes.length) && decide (st.addr < e.lbase + e.len)

/-- The old entry's dirty bytes perform, its granules are discarded (10 R219). A load in flight reads through the old entry; a store of
STMAP's own bundle through the old entry performs at its home. -/
def State.retireEntry (s : State) (cid : CoreId) (e : StashEntry) : State :=
  let s := (s.flushStores cid).modCore cid Core.fixLoads
  let l := (s.core cid).granulesOf e
  let s := l.foldl (fun s g => (s.writeBackGranule cid g).modCore cid fun c => c.dropGranule g.base) s
  let mine := (s.core cid).loc.stores.filter fun st => st.inEntry e
  let s := mine.foldl (fun s st => s.performStore cid st) s
  s.modCore cid fun c => { c with loc := { c.loc with stores := c.loc.stores.filter fun st => !st.inEntry e } }

/-- Two ranges have a byte in common. -/
def rangesMeet (a n b m : Nat) : Bool := decide (a < b + m) && decide (b < a + n)

/-- The fields of a stash map record of 32 bytes (10 R219). -/
structure StashRecord where
  lbase : Nat
  len : Nat
  va : Nat
  write : Bool
  reserved : Bool
deriving DecidableEq, Repr

/-- A record as its bytes give it. -/
def stashRecord (n : Nat) : StashRecord :=
  { lbase := bitsOf n 0 32, len := bitsOf n 32 32, va := bitsOf n 64 64, write := bitsOf n 128 1 == 1, reserved := bitsOf n 129 127 != 0 }

/-- LOCAL for a failing check of STMAP (10 R219, 19 R343). -/
def stmapTrap (check : Nat) : Raise := .trap 0x05 (Config.checkCode check) 0

/-- The whole VA range translates in one window with R: its IA base and whether the window grants W, or the violation
(10 R219). -/
def Core.stashWindow (c : Core) (r : StashRecord) : Except Raise (Nat × Bool) :=
  match findWindow c.sys.wins r.va with
  | none => .error (.violation clsWindow r.va)
  | some w =>
    if !w.covers (r.va + r.len - 1) then .error (.violation clsWindow r.va)
    else if !w.grants { r := true } then .error (.violation clsPerm r.va)
    else .ok (w.map r.va, w.grants { w := true })

/-- The valid entries other than j. -/
def Core.otherEntries (c : Core) (j : BitVec 3) : List StashEntry :=
  ((List.range 8).zip c.loc.map.toList).filterMap fun (i, e) => if i = j.toNat then none else e

/-- The record that STMAP reads, as of its bundle (10 R219). -/
def State.stmapRecord (s : State) (rec : BitVec 5) : StashRecord :=
  stashRecord (natOfBytes (s.me.localView s.me.issue (s.me.rs rec).toNat 32))

/-- STMAP's checks in order: the record's place, its reserved bits, its ranges, overlap; then the window (10 R219). With a
length of 0 the ranges are not looked at (log 26). -/
def State.trapStmap (s : State) (j : BitVec 3) (rec : BitVec 5) : Option Raise :=
  let a := (s.me.rs rec).toNat
  let c := s.me
  if a % 32 != 0 then some (stmapTrap 0)
  else if c.stashBase < a + 32 then some (stmapTrap 1)
  else match s.localAccess a 32 false with
    | some r => some r
    | none =>
      let r := s.stmapRecord rec
      let others := c.otherEntries j
      if r.reserved then some (stmapTrap 2)
      else if r.len = 0 then none
      else if r.lbase % 4096 != 0 || r.len % 4096 != 0 || r.va % 4096 != 0 then some (stmapTrap 3)
      else if decide (r.lbase < c.stashBase) || decide (localEnd < r.lbase + r.len) then some (stmapTrap 4)
      else if others.any fun e => rangesMeet r.lbase r.len e.lbase e.len || rangesMeet r.va r.len e.va e.len then
        some (stmapTrap 5)
      else match c.stashWindow r with
        | .error x => some x
        | .ok (ia, _) => if others.any fun e => rangesMeet ia r.len e.ia e.len then some (stmapTrap 5) else none

/-- What STMAP meets: a failing check, or a write-back of the entry that it replaces, the stores of earlier bundles among it (05 R101;
10 R219). -/
def State.meetsStmap (s : State) (j : BitVec 3) (rec : BitVec 5) : Option Raise :=
  (s.trapStmap j rec).orElse fun _ => do
    let old ← s.me.loc.map[j.toNat]
    let t := s.flushStores s.cur
    let (cls, addr) ← (t.me.granulesOf old).findSome? (t.writeBackFail t.cur)
    return .violation cls addr

/-- STMAP: the new entry governs from the next bundle (10 R219). -/
def execStmap (j : BitVec 3) (rec : BitVec 5) (s : State) : Host.Outcome State Fault Refusal :=
  .next (s.orRaise (s.meetsStmap j rec) fun s =>
    let r := s.stmapRecord rec
    let e := match s.me.stashWindow r with
      | .ok (ia, w) => if r.len = 0 then none else some { lbase := r.lbase, va := r.va, ia := ia, len := r.len, write := r.write && w }
      | .error _ => none
    let s := match s.me.loc.map[j.toNat] with
      | some old => s.retireEntry s.cur old
      | none => s
    s.emit 1 (.stash j e))

/-- The valid entries that a mask names (10 R220). -/
def Core.maskedEntries (c : Core) (mask : BitVec 8) : List StashEntry :=
  ((List.range 8).zip c.loc.map.toList).filterMap fun (i, e) => if mask.getLsbD i then e else none

/-- STFLUSH captures the bytes that are dirty in present granules of the named entries, as every reader at the home sees them
already (05 R90); its queue writes them home (10 R220, log 27). -/
def execStflush (mask : BitVec 8) (s : State) : Host.Outcome State Fault Refusal :=
  let s := s.flushStores s.cur
  let l := ((s.me.maskedEntries mask).flatMap s.me.granulesOf).flatMap fun g =>
    match s.me.granuleIa g with
    | some ia => (s.me.dirtyCells g 0 4096).map fun (o, b) => (ia + o, b)
    | none => []
  .next (s.member s.myQueue (.stflush l))

/-- STINV: the named entries' granules and their dirty bytes are dropped (10 R220). -/
def execStinv (mask : BitVec 8) (s : State) : Host.Outcome State Fault Refusal :=
  .next (s.modMe fun c =>
    let es := c.maskedEntries mask
    let c := c.fixLoads
    let c := { c with loc := { c.loc with stores := c.loc.stores.filter fun st => !(decide (st.issue < c.issue) && es.any st.inEntry) } }
    (es.flatMap c.granulesOf).foldl (fun c g => c.dropGranule g.base) c)

/-! ### PREF -/

/-- Whether a line can be brought in: its violation (10 R221). -/
def State.prefPiece (s : State) (who : Requester) (t : Target) : Option (Nat × Nat) :=
  match t with
  | .bad cls a => some (cls, a)
  | .global ia => (s.homeFail who ia).map fun cls => (cls, ia)
  | _ => none

/-- A piece of a range is brought into the L2 of its home (05 R99, 10 R221). -/
def State.prefetchPiece (s : State) (who : Requester) (hint : Nat) (t : Target) (n : Nat) : State :=
  match t with
  | .global ia =>
    if !s.onModule ia then s
    else match s.page (iaLocal ia) with
      | some p => s.reach who p ia n hint false
      | none => s
  | _ => s

/-- Pieces of a range are brought into L2 with a hint; a violation discards the prefetch, and is answered (05 R99, R101; 10 R221). -/
def State.prefetch (s : State) (who : Requester) (hint : Nat) (l : List (Target × Nat)) : State × Option (Nat × Nat) :=
  match l.findSome? fun (t, _) => s.prefPiece who t with
  | some e => ({ s with choices := s.choices + 1 }, some e)
  | none => (l.foldl (fun s (t, n) => s.prefetchPiece who hint t n) { s with choices := s.choices + 1 }, none)

/-- PREF changes no value; a violation discards it and is logged (10 R221; 05 R101, R102). -/
def execPref (td : BitVec 6) (hint : Hint) (s : State) : Host.Outcome State Fault Refusal :=
  .next (s.orRaise (s.tdCheck td [3, 7]) fun s =>
    let l := (s.pieces s.cur s.me.sys.wins { r := true } (s.me.opnd td)).map fun (t, _, n) => (t, n)
    match s.prefetch (.core s.cur) hint.code.toNat l with
    | (s, some (cls, addr)) => s.logViolation s.cur cls addr
    | (s, none) => s)

/-- What DECOMP meets at issue (11 R238). -/
def State.trapDecomp (s : State) (td ti : BitVec 6) : Option Raise :=
  let d := s.me.td[td.toNat]
  let i := s.me.td[ti.toNat]
  pickRaise [failIf (tdSpace d == 8 || tdSpace i == 8) s.priv, s.tdCheck td [0, 3, 7], s.tdCheck ti [0, 3, 4, 7],
    failIf (tdFmt d != some .n8 || tdLayout d != 0) (tdescTrap td),
    failIf (tdFmt i != some .n32 || decide (tdCount i < 2)) (tdescTrap ti),
    failIf s.me.handles[15].isNone (handleTrap 15)]

/-- DECOMP; entries in space 0 or 4 are read at issue (11 R238). -/
def execDecomp (td ti : BitVec 6) (ratio : BitVec 4) (s : State) : Host.Outcome State Fault Refusal :=
  .next (s.orRaise (s.trapDecomp td ti) fun s =>
    match s.me.handles[15] with
    | none => s
    | some h =>
      let d := s.me.td[td.toNat]
      let i := s.me.td[ti.toNat]
      let kind := fun e => CmdKind.decomp d i e (ratio.toNat + 1) h
      if tdSpace i == 0 || tdSpace i == 4 then
        match s.indicesAtIssue ti with
        | .ok l => s.member .dec (kind (some (l.map Int.toNat)))
        | .error (cls, addr) => s.member .dec (kind none) (some (1, cls, addr))
      else s.member .dec (kind none))

/-- What DDICT meets at issue (11 R241). -/
def State.trapDdict (s : State) (td : BitVec 6) : Option Raise :=
  let d := s.me.td[td.toNat]
  pickRaise [s.tdCheck td [0, 3, 7], failIf (tdFmt d != some .n8 || tdCount d != 4096) (tdescTrap td)]

/-- DDICT (11 R241). -/
def execDdict (td : BitVec 6) (s : State) : Host.Outcome State Fault Refusal :=
  .next (s.orRaise (s.trapDdict td) fun s => s.member .dec (.ddict (s.me.opnd td)))

/-! ### Bank-queue commands -/

/-- First engine and number of engines that an engine set names, if it is good (10 R222). -/
def engineSet (w : Word) : Option (Nat × Nat) :=
  let first := bitsOf w.toNat 0 9
  let count := bitsOf w.toNat 9 10
  if count == 0 || decide (512 < first + count) || decide (2 ^ 19 ≤ w.toNat) then none else some (first, count)

/-- BANK, with the engine set and the program (10 R222, R223). -/
def bankTrap (set prog : Word) : Raise := .trap 0x17 set prog

/-- BKCMD (10 R222). -/
def execBkcmd (prog engines args : BitVec 5) (s : State) : Host.Outcome State Fault Refusal :=
  let p := s.me.rs prog
  let e := s.me.rs engines
  .next (match engineSet e with
    | none => s.raise (bankTrap e p)
    | some (first, count) =>
      s.orRaise (failIf (p.toNat % 4 != 0) (bankTrap e p)) fun s =>
        s.enqueue .bank (.bkcmd p first count (s.me.rs args)))

/-- What BKVEC meets at issue (10 R223). -/
def State.trapBkvec (s : State) (td : BitVec 6) (engines : BitVec 5) : Option Raise :=
  pickRaise [s.tdCheck td [0, 3, 4], failIf (decide (16384 < tdPacked s.me.td[td.toNat])) (tdescTrap td),
    failIf (engineSet (s.me.rs engines)).isNone (bankTrap (s.me.rs engines) 0)]

/-- BKVEC (10 R223). -/
def execBkvec (td : BitVec 6) (engines : BitVec 5) (s : State) : Host.Outcome State Fault Refusal :=
  .next (s.orRaise (s.trapBkvec td engines) fun s =>
    match engineSet (s.me.rs engines) with
    | some (first, count) => s.enqueue .bank (.bkvec (s.me.opnd td) first count)
    | none => s)

/-! ### Collectives -/

/-- COLSTEP (10 R224). -/
def execColstep (group : BitVec 6) (step : BitVec 5) (s : State) : Host.Outcome State Fault Refusal :=
  .next (s.member s.myQueue (.colstep group (s.me.rs step)))

end Sys2Proof.Machine
end

