-- ==== Sys2Proof/Machine/Mover.lean ====
section
/-! DEFINITION. How the copy queues carry out their commands: what a copy reads and writes (10 R210, R213, R215), atomics
(R216, R217), failures (R206), and what holds a command back (06 R107-R110, R114; 10 R224). -/

namespace Sys2Proof.Machine

/-- The owner of a command's accesses. -/
def cmdOwner (c : CoreId) (q : QueueId) (id : Nat) : Owner := .cmd c q id

/-- A command by its place among a core's queues. -/
def State.cmdBy (s : State) (c : CoreId) (id : Nat) : Option Cmd := (s.core c).q.all.find? fun k => k.id == id

/-- One command of a core changed. -/
def State.modCmd (s : State) (c : CoreId) (id : Nat) (f : Cmd → Cmd) : State := s.modCore c fun x => x.modCmd id f

/-- A command has performed all it will perform (10 R203). -/
def State.setPerformed (s : State) (c : CoreId) (id : Nat) : State := s.modCmd c id fun k => { k with phase := .performed }

/-- A command of a batch stops: its remaining accesses are given up, the failure is logged and noted in its batch
(10 R206; 11 R239). A violation of a command that belongs to no batch kills the task (05 R101). -/
def State.failCmd (s : State) (c : CoreId) (q : QueueId) (k : Cmd) (status cls addr : Nat) : State :=
  let s := s.dropOwner (cmdOwner c q k.id)
  match k.batch with
  | none => s.violation c cls addr (s.core c).pc
  | some (cb, num, index) =>
    let s := if status == 1 then s.logViolation c cls addr else s.logCore c addr 4 0
    let s := s.modCmd c k.id fun k => { k with phase := .performed, fail := some (status, cls, addr) }
    s.modCore c fun x => { x with q := x.q.modBatch cb num fun b => b.noteFail index status cls addr }

/-! ### Copies -/

/-- The rows that a copy moves, in the order of its elements: the source row, or none for zeros, and the destination row,
or none for a row skipped (10 R210, R215). -/
def movePlan : CmdKind → Option (Opnd × Opnd × List (Option Nat × Option Nat))
  | .copy d s _ _ => some (d, s, (List.range (tdRows s.td)).map fun r => (some r, some r))
  | .copyh _ _ s => some (s, s, (List.range (tdRows s.td)).map fun r => (some r, some r))
  | .gather d s idx =>
    some (d, s, ((List.range idx.length).zip idx).map fun (k, j) =>
      (if 0 ≤ j ∧ j < tdRows s.td then some j.toNat else none, some k))
  | .scatter d s idx =>
    some (d, s, ((List.range idx.length).zip idx).map fun (k, j) =>
      (some k, if 0 ≤ j ∧ j < tdRows d.td then some j.toNat else none))
  | _ => none

/-- Source rows that are read and destination rows that are written. -/
def planSources (l : List (Option Nat × Option Nat)) : List Nat :=
  (l.filterMap fun (a, b) => if b.isSome then a else none).eraseDups
/-- Destination rows that are written. -/
def planDests (l : List (Option Nat × Option Nat)) : List Nat := (l.filterMap (·.2)).eraseDups

/-- A command names SCM media for its source, for its destination (19 R353). -/
def CmdKind.media : CmdKind → Bool × Bool
  | .copy _ _ toMedia fromMedia => (toMedia, fromMedia)
  | _ => (false, false)

/-- The accesses by which a copy reads. -/
def State.moveReads (s : State) (c : CoreId) (q : QueueId) (k : Cmd) : List Access :=
  match movePlan k.kind with
  | none => []
  | some (_, src, plan) =>
    readAccesses (cmdOwner c q k.id) (.core c) (s.rowPieces c k.wins { r := true } src k.kind.media.2 (planSources plan))

/-- The destination of a COPYH's payload: the packed elements, then the scale bytes (10 R213). -/
def copyhPieces (c : CoreId) (h : Handle) (slot : Nat) (d : TdWord) : List (Target × Nat × Nat) :=
  let a := h.slotAddr slot
  (.scratch c a, 0, tdPacked d) :: (if tdScales d = 0 then [] else [(.scratch c (a + tdPacked d), scalePlace, tdScales d)])

/-- Where a copy writes these rows of its destination. -/
def State.moveTargets (s : State) (c : CoreId) (k : Cmd) (rows : List Nat) : List (Target × Nat × Nat) :=
  match k.kind with
  | .copyh h slot o =>
    match (s.core c).handles[h.toNat] with
    | some x => copyhPieces c x slot o.td
    | none => []
  | _ =>
    match movePlan k.kind with
    | none => []
    | some (d, _, _) => s.rowPieces c k.wins { w := true } d k.kind.media.1 rows

/-- A row to move: its place in the order of the command's elements, the source row and the destination row. -/
abbrev RowMove := Nat × Option Nat × Option Nat

/-- Every place that a copy writes. -/
def State.planTargets (s : State) (c : CoreId) (k : Cmd) : List (Target × Nat × Nat) :=
  s.moveTargets c k (((movePlan k.kind).map fun (_, _, plan) => planDests plan).getD [])

/-- Rows moved without conversion: n bytes for each row, at `base` in both streams. -/
def rawRows (base n : Nat) (got : Mem) (plan : List RowMove) (out : Mem) : Mem :=
  plan.foldl (fun out (_, a, b) =>
    match a, b with
    | some i, some j => out.put (base + j * n) (got.bytes (base + i * n) n)
    | none, some j => out.put (base + j * n) (List.replicate n 0)
    | _, none => out) out

/-- The code of one element converted, with its counts; stochastic only into a narrower format (04 R71, 10 R210). -/
def moveConv (k : Cmd) (d s : TdWord) (e src : Nat) : Conv :=
  let v := tdValue s k.fmode k.got src
  let v := if tdScaled d then v.div (FFmt.f32.value false (tdTscale d)) else v
  let r := if narrows (tdFmt s) (tdFmt d) then fmodeRounding k.fmode k.lfsr e else .mode (modeRM k.fmode)
  match (tdFmt d).bind fmtElt with
  | some t => t.conv r (flushOut k.fmode t) v
  | none => ⟨0, false, false, false⟩

/-- Rows moved with conversion: the destination's stream and what is counted (10 R210; 04 R76). -/
def convRows (k : Cmd) (d s : TdWord) (plan : List RowMove) : Mem × List Conv :=
  let n := tdCols d
  let w := tdBits d / 8
  plan.foldl (fun (out, cs) (i, a, b) =>
    match b with
    | none => (out, cs)
    | some j =>
      match a with
      | none => (out.put (j * n * w) (List.replicate (n * w) 0), cs)
      | some r =>
        let l := (List.range n).map fun col => moveConv k d s (i * n + col) (r * n + col)
        (out.put (j * n * w) (l.flatMap fun x => bytesOfNat w x.bits), cs ++ l)) ([], [])

/-- What a copy writes of these rows, by the places of its destination's stream, and what it counts (10 R210, R213, R215). -/
def moveOut (k : Cmd) (d s : Opnd) (plan : List RowMove) : Mem × List Conv :=
  if rawCopy d.td s.td || (match k.kind with | .copyh _ _ _ => true | _ => false) then
    let out := rawRows 0 (tdCols s.td * tdBits s.td / 8) k.got plan []
    (if tdScales s.td = 0 then out else rawRows scalePlace (tdCols s.td / 32) k.got plan out, [])
  else convRows k d.td s.td plan

/-- The rows of a plan, those that are written one after another apart: a SCATTER that writes a row twice writes its rows in order
(10 R215). -/
def planGroups (l : List (Option Nat × Option Nat)) : List (List RowMove) :=
  let all := (List.range l.length).zip l
  if (planDests l).length == (l.filterMap (·.2)).length then [all] else all.map fun x => [x]

/-- The writes of a copy that has read everything, and its counts. -/
def State.moveWrites (s : State) (c : CoreId) (q : QueueId) (k : Cmd) : List Access × List Conv :=
  match movePlan k.kind with
  | none => ([], [])
  | some (d, src, plan) =>
    (planGroups plan).foldl (fun (l, cs) g =>
      let (out, n) := moveOut k d src g
      (l ++ writeAccesses (cmdOwner c q k.id) (.core c) out (s.moveTargets c k (planDests (g.map (·.2)))), cs ++ n)) ([], [])

/-- A copy has read everything: it writes (10 R210). A destination that overlaps the source gets it as it stood. -/
def State.moveWrite (s : State) (c : CoreId) (q : QueueId) (k : Cmd) : State :=
  let (l, cs) := s.moveWrites c q k
  let n := convCounts cs
  let s := s.modCmd c k.id fun k => { k with phase := .writing, sat := n.1, flz := n.2.1, nan := n.2.2, got := [] }
  if l.isEmpty then s.setPerformed c k.id else s.send l

/-- A copy starts. -/
def State.moveStart (s : State) (c : CoreId) (q : QueueId) (k : Cmd) : State :=
  let l := s.moveReads c q k
  let s := s.modCmd c k.id fun k => { k with phase := .reading, step := 1 }
  if l.isEmpty then s.moveWrite c q k else s.send l

/-- The first out-of-range index of a GATHER or SCATTER (10 R206, R215). -/
def badIndex : CmdKind → Option Int
  | .gather _ s idx => idx.find? fun j => !decide (0 ≤ j ∧ j < tdRows s.td)
  | .scatter d _ idx => idx.find? fun j => !decide (0 ≤ j ∧ j < tdRows d.td)
  | _ => none

/-! ### Atomics -/

/-- The address, width, operation, operand, comparison and result place of an atomic (10 R216, R217). -/
def amoParts : CmdKind → Option (Word × Nat × BitVec 4 × Word × Option Nat × Option Word × Order)
  | .amo op va v res o w => some (va, amoBytes w, op, v, none, res, o)
  | .amocas va e n res o => some (va, 8, 4, n, some e.toNat, res, o)
  | _ => none

/-- An atomic starts: alignment, then R and W (10 R216). -/
def State.amoStart (s : State) (c : CoreId) (q : QueueId) (k : Cmd) : State :=
  match amoParts k.kind with
  | none => s
  | some (va, n, op, v, e, _, _) =>
    if va.toNat % n ≠ 0 then s.failCmd c q k 1 clsAlign va.toNat
    else match translate k.wins { r := true, w := true } va.toNat with
      | .error cls => s.failCmd c q k 1 cls va.toNat
      | .ok ia =>
        (s.modCmd c k.id fun k => { k with phase := .reading }).send
          [{ owner := cmdOwner c q k.id, target := .global ia, op := .amo op n v.toNat e, whole := true
             requester := .core c, va := va.toNat }]

/-- An atomic's result has returned: it is written to the scratchpad, or the command is done (10 R216). -/
def State.amoResult (s : State) (c : CoreId) (q : QueueId) (k : Cmd) : State :=
  match amoParts k.kind with
  | some (_, n, _, _, _, some r, _) =>
    if r.toNat % n ≠ 0 then s.failCmd c q k 1 clsAlign r.toNat
    else if (s.core c).stashBase < r.toNat + n then s.failCmd c q k 1 clsLocal r.toNat
    else
      (s.modCmd c k.id fun k => { k with phase := .writing }).send
        [{ owner := cmdOwner c q k.id, target := .scratch c r.toNat, op := .write (k.got.bytes 0 n), requester := .core c }]
  | _ => s.setPerformed c k.id

/-! ### What holds a command back -/

/-- Commands before one in its queue. -/
def earlier (l : List Cmd) (k : Cmd) : List Cmd := l.takeWhile fun x => x.id != k.id

/-- A joining entry (06 R109). -/
def CmdKind.isFence : CmdKind → Bool
  | .qfence _ => true
  | _ => false

/-- The order of an atomic. -/
def CmdKind.order (k : CmdKind) : Order := ((amoParts k).map fun x => x.2.2.2.2.2.2).getD .rlx

/-- The atomic holds back later commands until its result has returned (06 R114). -/
def orderAcquires : Order → Bool
  | .acq | .acqrel => true
  | _ => false

/-- The atomic waits for earlier writes (06 R114). -/
def orderReleases : Order → Bool
  | .rel | .acqrel => true
  | _ => false

/-- The runs of consecutive bytes within a line among rising cells. -/
def cellRuns : List (Nat × Byte) → List (Nat × Nat)
  | [] => []
  | (a, _) :: t =>
    match cellRuns t with
    | (b, n) :: r => if b = a + 1 ∧ b % 128 ≠ 0 then (a, n + 1) :: r else (a, 1) :: (b, n) :: r
    | [] => [(a, 1)]

/-- A STFLUSH starts: its captured bytes set out for their homes (10 R220). -/
def State.flushStart (s : State) (c : CoreId) (q : QueueId) (k : Cmd) (l : List (Nat × Byte)) : State :=
  if l.isEmpty then s.setPerformed c k.id
  else (s.modCmd c k.id fun k => { k with phase := .writing }).send
    ((cellRuns l).map fun (ia, n) =>
      { owner := cmdOwner c q k.id, target := .global ia, op := .flush n [], requester := .core c, va := ia })

/-- Bytes on this module that a command touches, with the key of their memory and whether it writes them (06 R107). -/
def State.footprint (s : State) (c : CoreId) (k : Cmd) : List (Nat × Nat × Nat × Bool) :=
  let tag := fun (w : Bool) (l : List (Target × Nat × Nat)) => l.filterMap fun (t, _, n) =>
    match t with
    | .global ia => if s.onModule ia then some (0, ia, n, w) else none
    | _ => t.place.map fun (key, a) => (key, a, n, w)
  match k.kind with
  | .copy _ _ _ _ | .copyh _ _ _ | .gather _ _ _ | .scatter _ _ _ =>
    tag false ((s.moveReads c .ca k).map fun a => (a.target, 0, a.op.size)) ++ tag true (s.planTargets c k)
  | _ =>
    match amoParts k.kind with
    | some (va, n, _, _, _, res, _) =>
      tag true (((translate k.wins { r := true, w := true } va.toNat).toOption.map fun ia => (Target.global ia, 0, n)).toList
        ++ (res.map fun r => (Target.scratch c r.toNat, 0, n)).toList)
    | none =>
      match k.kind with
      | .stflush l => tag true ((cellRuns l).map fun (ia, n) => (Target.global ia, 0, n))
      | .cbatch _ (some va) _ counters =>
        let n := if counters then 32 else 8
        tag true ((translate k.wins { w := true } va.toNat).toOption.map fun ia => (Target.global ia, 0, n)).toList
      | _ => []

/-- Two commands touch a byte that one of them writes. -/
def meets (a b : List (Nat × Nat × Nat × Bool)) : Bool :=
  a.any fun (k, x, n, w) => b.any fun (l, y, m, v) => k == l && (w || v) && decide (x < y + m) && decide (y < x + n)

/-- An incomplete earlier command that shares bytes with k (06 R107). -/
def State.sharesBytes (s : State) (c : CoreId) (before : List Cmd) (k : Cmd) : Bool :=
  let mine := s.footprint c k
  before.any fun x => x.phase != .performed && meets (s.footprint c x) mine

/-- A command of a copy queue may start: fences, acquiring and releasing atomics, COLSTEP and shared bytes (06 R107, R109,
R114; 10 R224). -/
def State.mayStart (s : State) (c : CoreId) (before : List Cmd) (k : Cmd) : Bool :=
  let done := before.all fun x => x.phase == .performed
  let stashed := (s.core c).loc.stores.any fun st =>
    decide (st.issue < k.issue) && decide ((s.core c).stashBase < st.addr + st.bytes.length)
  before.all (fun x => !x.kind.isFence && (!orderAcquires x.kind.order || x.phase == .performed))
    && (!orderReleases k.kind.order || (done && !stashed))
    && (match k.kind with | .colstep _ _ => done | _ => true)
    && !s.sharesBytes c before k

/-- Every entry of a fence has every earlier command of its queue complete (06 R109). -/
def Core.fenceMet (c : Core) (id : Nat) : Bool :=
  [QueueId.ca, .cb, .m, .bank, .dec].all fun q =>
    let l := c.q.get q
    match l.find? fun k => k.kind == .qfence id with
    | some k => (earlier l k).isEmpty
    | none => true

/-- COLSTEP performs (10 R224). -/
def State.colstepRun (s : State) (c : CoreId) (q : QueueId) (k : Cmd) (g : BitVec 6) (step : Word) : State :=
  let opened := (((s.region (s.core c).ctl.region.toNat)).map fun r => r.groups.getLsbD g.toNat).getD false
  if !opened then s.failCmd c q k 1 clsPerm g.toNat
  else
    let old := s.hib.step[g.toNat]
    let s := { s with hib := { s.hib with step := s.hib.step.set g.toNat (if old.toNat < step.toNat then step else old) } }
    s.setPerformed c k.id

end Sys2Proof.Machine
end

