-- ==== Sys2Proof/Machine/Matrix.lean ====
section
/-! DEFINITION. The shared matrix array: slot claims, leases, grants and passes, and the matrix commands of the m queue
(07 R133; 12 R243-R268). -/

namespace Sys2Proof.Machine

/-! ### Slots -/

/-- Slots that a command of any queue names (12 R246). A chain command names its links, its input and both its buffers. -/
def opndSlots (o : Opnd) : List Nat := if tdSpace o.td == 2 then tdSlots o.td else []

/-- Slots of a chain buffer (13 R273). -/
def bufferSlots (first len : Nat) : List Nat := (List.range (ceilDiv len 32768)).map (first + ·)

/-- Slots that a command names. -/
def CmdKind.slots : CmdKind → List Nat
  | .copy d _ _ _ | .gather d _ _ | .scatter d _ _ => opndSlots d
  | .mma a b _ _ _ _ _ => opndSlots a ++ opndSlots b
  | .chain _ pk i _ links =>
    opndSlots i ++ bufferSlots pk.slotA pk.buflen ++ bufferSlots pk.slotB pk.buflen ++ links.flatMap fun (l, _, _) => tdSlots l
  | .chend pk _ => bufferSlots pk.slotA pk.buflen ++ bufferSlots pk.slotB pk.buflen
  | .chgrad l r _ _ _ => opndSlots l ++ opndSlots r
  | _ => []

/-- A slot is claimed by the core, in this bundle or before (12 R245). -/
def Core.claims (c : Core) (slot : Nat) : Bool :=
  c.mx.names.getLsbD slot
    || c.pend.any fun p => match p.res with | .names first n true => decide (first ≤ slot ∧ slot < first + n) | _ => false

/-- An owner keeps a slot from others: it claims the slot, or a command of it that names the slot is not complete (12 R246). -/
def State.holds (s : State) (c : CoreId) (slot : Nat) : Bool :=
  (s.core c).claims slot || (s.core c).q.all.any fun k => k.kind.slots.contains slot

/-- The core that holds a slot of a cluster. -/
def State.slotOwner (s : State) (cl : ClusterId) (slot : Nat) : Option CoreId :=
  match (s.cluster cl).owner[slot]?.getD none with
  | some c => if s.holds c slot then some c else none
  | none => none

/-- OMCLM and OMREL: n from 1 to 63 within the slots, else OMSLOT (12 R245, R246). -/
def trapRange (first n : BitVec 6) : Option Raise :=
  failIf (n == 0 || decide (64 < first.toNat + n.toNat)) (omslotTrap first.toNat)

/-- The slots of a range. -/
def slotRange (first n : BitVec 6) : List Nat := (List.range n.toNat).map (first.toNat + ·)

/-- Slots of a cluster read zero, elements and side-area (12 R245). -/
def Cluster.zeroSlot (cl : Cluster) (slot : Nat) : Cluster :=
  { cl with omem := cl.omem.clear (slot * 32768) 32768, side := cl.side.clear (slot * 2048) 2048 }

/-- A slot that the core may claim: free, or claimed by it; not one that it has released and its commands still name (12 R245,
R246). -/
def State.mayClaim (s : State) (slot : Nat) : Bool :=
  match s.slotOwner (clusterOf s.cur) slot with
  | none => true
  | some c => c == s.cur && s.me.claims slot

/-- OMCLM: all of the range or nothing; slots newly claimed read zero (12 R245). -/
def execOmclm (first n : BitVec 6) (pd : BitVec 4) (s : State) : Host.Outcome State Fault Refusal :=
  .next (s.orRaise (trapRange first n) fun s =>
    let cl := clusterOf s.cur
    let l := slotRange first n
    let free := l.all s.mayClaim
    let s := if !free then s
      else
        let fresh := l.filter fun i => (s.slotOwner cl i).isNone
        (s.modCluster cl fun x =>
          { fresh.foldl Cluster.zeroSlot x with
            owner := Vector.ofFn fun i : Fin 64 => if l.contains i.val then some s.cur else x.owner[i] }).emit 1
          (.names first.toNat n.toNat true)
    s.emit 2 (.p pd free))

/-- OMREL: the right to name the slots ends for later bundles (12 R246). -/
def execOmrel (first n : BitVec 6) (s : State) : Host.Outcome State Fault Refusal :=
  .next (s.orRaise (trapRange first n) fun s => s.emit 1 (.names first.toNat n.toNat false))

/-! ### The arbiter -/

/-- An array command (12 R248, 13 R276, R284). -/
def CmdKind.isArray : CmdKind → Bool
  | .mma _ _ _ _ _ _ _ | .chain _ _ _ _ _ | .chgrad _ _ _ _ _ => true
  | _ => false

/-- A started command that completes before the save: an atomic that has left, a record on its way, and a matrix command
but for an MMAR and a chain command, which stop at a segment or a pass: a gradient whose passes are done has only its writes to end
(10 R212, 12 R267, 13 R285). -/
def Cmd.mustEnd (k : Cmd) : Bool :=
  (k.phase == .reading || k.phase == .writing) &&
    match k.kind with
    | .amo _ _ _ _ _ _ | .amocas _ _ _ _ _ | .cbatch _ _ _ _ | .macc _ | .mdrain _ | .chend _ _
    | .mma _ _ _ _ _ _ false => true
    | .chgrad _ _ _ _ _ => k.phase == .writing
    | _ => false

/-- The head of a core's m queue: its first entry that has not performed. -/
def Core.mHead (c : Core) : Option Cmd := c.q.m.find? fun k => k.phase != .performed

/-- The slots of an m-queue command are not being filled by copies of earlier bundles (06 R108). -/
def Core.slotsFilled (c : Core) (k : Cmd) : Bool :=
  (c.q.ca ++ c.q.cb).all fun x =>
    !decide (x.issue < k.issue) || x.phase == .performed || x.kind.slots.all fun i => !k.kind.slots.contains i

/-- The fetch of an MMAR's current segment has returned (12 R263). -/
def State.fetched (s : State) (c : CoreId) (k : Cmd) : Bool :=
  match k.kind with
  | .mma _ _ _ _ _ _ true => k.phase == .reading && !s.outstanding (cmdOwner c .m k.id)
  | _ => true

/-- A chain gradient whose passes are done but whose writes are on their way has no pass to start. -/
def Cmd.passLeft (k : Cmd) : Bool := k.kind.isArray && k.phase != .writing && k.phase != .suspended

/-- The core's queue head holds a pass ready to start (12 R249, R250). -/
def State.readyPass (s : State) (c : CoreId) : Bool :=
  match (s.core c).mHead with
  | some k => k.passLeft && (s.core c).slotsFilled k && s.fetched c k
  | none => false

/-- The core holds its cluster's grant. -/
def State.granted (s : State) (c : CoreId) : Bool :=
  match (s.cluster (clusterOf c)).grant with
  | some g => g.holder == c
  | none => false

/-- A pass runs on the core's behalf: under a grant, passes follow one another (12 R249). -/
def State.passRunning (s : State) (c : CoreId) : Bool :=
  s.granted c && ((s.core c).mHead.map fun k => k.phase == .reading).getD false && s.readyPass c

/-- A pre-emption has been asked for that no system handler holds back: it ends the core's grant at the pass boundary, and the core is
granted no more (12 R249, R267; 19 R347). -/
def State.preemptReached (s : State) (c : CoreId) : Bool :=
  match s.taskOf c with
  | some t => t.preempt.isSome && t.cores.all fun d => !(s.core d).sys.sh
  | none => false

/-- The core may be granted the array, and may keep it. -/
def State.mayHold (s : State) (c : CoreId) : Bool := !s.asleep c && !s.preemptReached c

/-- The core as the arbiter sees it: a contender until an MREL marker has reached the head (12 R247). -/
def Core.contends (c : Core) : Bool :=
  c.mx.contender.isSome || c.q.m.any fun k => k.kind == .mrel && k.phase != .performed

/-- Other contenders of a core's cluster that have a ready pass. -/
def State.rivals (s : State) (c : CoreId) : List CoreId :=
  (clusterCores (clusterOf c)).filter fun d => d != c && (s.core d).contends && s.readyPass d

/-- A core joins: P_c := max(P_c, the smallest P among the other contenders with a ready pass) (12 R250). -/
def State.joinArbiter (s : State) (c : CoreId) : State :=
  match (s.rivals c).map fun d => (s.core d).mx.passVal with
  | [] => s
  | p :: ps =>
    let low := ps.foldl min p
    s.modCore c fun x => { x with mx := { x.mx with passVal := max x.mx.passVal low } }

/-- A grant ends: P_c grows by the cycles used times the stride (12 R250). -/
def State.endGrant (s : State) (cl : ClusterId) : State :=
  match (s.cluster cl).grant with
  | none => s
  | some g =>
    let s := s.modCore g.holder fun x =>
      { x with mx := { x.mx with passVal := x.mx.passVal + g.cycles * (2 ^ 20 / x.mx.tickets) } }
    s.modCluster cl fun x => { x with grant := none }

/-- What the arbiter notices: a queue head that has become ready joins; a holder without a ready pass loses its grant, and so does one
that a warning or a pre-emption has reached, once it stands between passes (12 R249, R250). -/
def State.refreshArray (s : State) (cl : ClusterId) : State :=
  let s := match (s.cluster cl).grant with
    | some g =>
      if s.passRunning g.holder || (s.readyPass g.holder && !g.ending && s.mayHold g.holder) then s else s.endGrant cl
    | none => s
  (clusterCores cl).foldl (fun s c =>
    let ready := s.readyPass c
    let joins := ready && !(s.core c).mx.hadReady && (s.core c).contends
    let s := if joins then s.joinArbiter c else s
    s.modCore c fun x => { x with mx := { x.mx with hadReady := ready } }) s

/-- The contender with a ready pass and the smallest P, the lower plane first (12 R250). -/
def State.nextHolder (s : State) (cl : ClusterId) : Option CoreId :=
  ((clusterCores cl).filter fun c => (s.core c).contends && s.readyPass c && s.mayHold c).foldl (fun best c =>
    match best with
    | none => some c
    | some b => if (s.core c).mx.passVal < (s.core b).mx.passVal then some c else some b) none

/-- MLEASE: LEASEDENY where the region's ticket budget is 0 (12 R247). -/
def execMlease (s : State) : Host.Outcome State Fault Refusal :=
  let t := ((s.regionOf s.cur).map (·.mtickets)).getD 0
  .next (s.orRaise (failIf (t == 0) (.trap 0x09 0 0)) fun s =>
    if s.me.mx.contender.isSome then s else (s.joinArbiter s.cur).emit 1 (.contender (some t)))

/-- The head of the core's m queue is a suspended MMAR (12 R264). -/
def Core.suspendedMmar (c : Core) : Option Cmd := c.mHead.filter fun k => k.phase == .suspended

/-- MREL: the flag clears for later bundles, a marker enters the queue, and a suspended MMAR at the head is abandoned
(12 R247, R265). -/
def execMrel (s : State) : Host.Outcome State Fault Refusal :=
  let s := match s.me.suspendedMmar with
    | some k =>
      -- a head that this makes ready joins the arbiter (12 R250)
      ((s.modMe fun c => { c with mx := { c.mx with chk := false } }).setPerformed s.cur k.id).refreshArray (clusterOf s.cur)
    | none => s
  .next ((s.emit 1 (.contender none)).enqueue .m .mrel)

/-- LEASEDENY for a core that is no contender (12 R248). -/
def State.leaseCheck (s : State) : Option Raise := failIf s.me.mx.contender.isNone (.trap 0x09 0 0)

/-! ### MMA and MMAR -/

/-- The class of a format among the pairs of R254. -/
def mmaClass : Fmt → Option Nat
  | .bf16 => some 0
  | .f16 => some 1
  | .e4m3 => some 2
  | .e5m2 => some 3
  | .b4 => some 4
  | .i8 | .n8 => some 5
  | _ => none

/-- K of a format pair, if the array implements it (12 R254). -/
def mmaK (a b : Fmt) : Option Nat :=
  match mmaClass a, mmaClass b with
  | some x, some y =>
    let p := (min x y, max x y)
    if p = (0, 0) ∨ p = (1, 1) ∨ p = (0, 4) then some 128
    else if p = (2, 2) ∨ p = (2, 3) ∨ p = (3, 3) ∨ p = (2, 4) ∨ p = (5, 5) then some 256
    else if p = (4, 4) then some 512
    else none
  | _, _ => none

/-- An integer format. -/
def fmtIsInt : Fmt → Bool
  | .i8 | .n8 | .i16 | .i32 | .n32 => true
  | _ => false

/-- MCOMBO names the formats (19 R343). -/
def mcomboTrap (a b : TdWord) : Raise := .trap 0x08 (BitVec.ofNat 64 (tdBytes a 8 1 * 256 + tdBytes b 8 1)) 0

/-- The descriptor has these rows and columns. -/
def hasShape (d : TdWord) (rows cols : Nat) : Bool := tdRows d == rows && tdCols d == cols

/-- A space-2 span that passes slot 63 (12 R244). -/
def spanCheck (d : TdWord) : Option Raise :=
  ((opndSlots { td := d }).find? fun i => decide (63 < i)).map omslotTrap

/-- What MMA and MMAR meet, in the order of R255. -/
def State.trapMma (s : State) (tdA tdB : BitVec 6) (tb ta : Bool) (spaces : List Nat) : Option Raise :=
  let a := s.me.td[tdA.toNat]
  let b := s.me.td[tdB.toNat]
  let alone := pickRaise [s.tdCheck tdA spaces, spanCheck a, s.tdCheck tdB spaces, spanCheck b]
  if alone.isSome then alone
  else match tdFmt a, tdFmt b with
    | some fa, some fb =>
      match mmaK fa fb with
      | none => some (mcomboTrap a b)
      | some k =>
        let shapeA := if ta then hasShape a k 128 else hasShape a 128 k
        let shapeB := if tb then hasShape b 128 k else hasShape b k 128
        if !shapeA || (fmtIsInt fa && tdScaled a) then some (tdescTrap tdA)
        else if !shapeB || (fmtIsInt fb && tdScaled b) then some (tdescTrap tdB)
        else
          match s.me.slotCheck (opndSlots { td := a } ++ opndSlots { td := b }) with
          | some r => some r
          | none => s.leaseCheck
    | _, _ => some (tdescTrap tdA)

/-- The redundant mode of a task (02 R28, 12 R257). -/
def State.rdDefault (s : State) : Bool := ((s.taskOf s.cur).map (·.rdDefault)).getD false

/-- MMA (12 R253). -/
def execMma (tdA tdB : BitVec 6) (z rd tb ta : Bool) (s : State) : Host.Outcome State Fault Refusal :=
  .next (s.orRaise (s.trapMma tdA tdB tb ta [2]) fun s =>
    (s.enqueue .m (.mma (s.me.opnd tdA) (s.me.opnd tdB) z (rd || s.rdDefault) tb ta false)).refreshArray (clusterOf s.cur))

/-- MMAR (12 R262). -/
def execMmar (tdA tdB : BitVec 6) (z rd tb ta : Bool) (s : State) : Host.Outcome State Fault Refusal :=
  .next (s.orRaise (s.trapMma tdA tdB tb ta [2, 3, 7]) fun s =>
    (s.enqueue .m (.mma (s.me.opnd tdA) (s.me.opnd tdB) z (rd || s.rdDefault) tb ta true)).refreshArray (clusterOf s.cur))

/-- MRESUME: a suspended MMAR fetches its segment afresh (12 R265). -/
def execMresume (s : State) : Host.Outcome State Fault Refusal :=
  .next (match s.me.suspendedMmar with
    | some k => s.modCmd s.cur k.id fun k => { k with phase := .queued, got := [] }
    | none => s)

/-- The element bytes and scale bytes of an operand of a pass: from operand memory, or as fetched (12 R244, R262). -/
def State.operandBytes (s : State) (c : CoreId) (k : Cmd) (o : Opnd) (base : Nat) : List Byte × List Byte :=
  let d := o.td
  if tdSpace d == 2 then
    let cl := s.cluster (clusterOf c)
    (cl.omem.span (tdPlaceBits d * 32768) (tdPacked d), cl.side.span (tdPlaceBits d * 2048) (tdScales d))
  else (k.got.span base (tdPacked d), k.got.span (base + scalePlace) (tdScales d))

/-- Segments of a command: one pass for MMA, sixteen for MMAR (12 R249, R263). -/
def mmaSegments (remote : Bool) : Nat := if remote then 16 else 1

/-- The exact integer of a value whose denominator is 1. -/
def Num.toInt : Num → Int
  | .fin neg n d => let m : Int := (n / d : Nat); if neg then -m else m
  | _ => 0

/-- One element of the plane after k values of A's row and B's column are added (04 R79, R80). -/
def mmaCell (isInt : Bool) (acc : Nat) (row col : List Num) : Nat :=
  let p := row.zip col
  if isInt then patternOf 32 (p.foldl (fun x (a, b) => x + a.toInt * b.toInt) (acc : Int))
  else accGroups p.length acc p

/-- An f32 code flushed where asked: a subnormal becomes the zero of its sign (04 R74). -/
def flushF32 (flush : Bool) (x : Nat) : Nat := if flush && decide (x % 2 ^ 31 < 2 ^ 23) then x / 2 ^ 31 * 2 ^ 31 else x

/-- One pass: the segment's values of k added to a plane (12 R256, R263). -/
def mmaPlane (isInt first flush : Bool) (av bv : Array Num) (ta tb : Bool) (kTotal k0 kn : Nat)
    (plane : Vector (BitVec 32) 16384) : Vector (BitVec 32) 16384 :=
  let ks := (List.range kn).map (k0 + ·)
  let rows := (List.range 128).toArray.map fun i => ks.map fun k => av.getD (if ta then k * 128 + i else i * kTotal + k) .nan
  let cols := (List.range 128).toArray.map fun j => ks.map fun k => bv.getD (if tb then j * kTotal + k else k * 128 + j) .nan
  Vector.ofFn fun e : Fin 16384 =>
    let acc := if first then 0 else plane[e].toNat
    let x : Nat := mmaCell isInt acc (rows.getD (e.val / 128) []) (cols.getD (e.val % 128) [])
    BitVec.ofNat 32 (flushF32 (!isInt && flush) x)

/-- The array cycles of a pass (12 R254, R263). -/
def mmaCycles (rd remote : Bool) : Nat := (if remote then 4 else 64) * (if rd then 2 else 1)

/-- The pass of an MMA or of an MMAR's segment k.step performs, on both planes in redundant mode (12 R256, R257). -/
def State.mmaPass (s : State) (c : CoreId) (k : Cmd) (a b : Opnd) (z rd tb ta remote : Bool) : State :=
  match tdFmt a.td, tdFmt b.td with
  | some fa, some fb =>
    let total := (mmaK fa fb).getD 128
    let n := mmaSegments remote
    let seg := total / n
    let (ab, asc) := s.operandBytes c k a 0
    let (bb, bsc) := s.operandBytes c k b operandB
    let last := k.step + 1 == n
    let f := mmaPlane (fmtIsInt fa) (z && k.step == 0) (last && k.fmode.getLsbD 5) (tdValues a.td k.fmode ab asc)
      (tdValues b.td k.fmode bb bsc) ta tb total (k.step * seg) seg
    let s := s.modCore c fun x =>
      { x with mx := { x.mx with
          plane := f x.mx.plane
          check := if rd then f x.mx.check else x.mx.check
          chk := if !rd then false else if z && last then true else x.mx.chk } }
    s.modCmd c k.id fun k =>
      { k with step := k.step + 1, got := [], phase := if last then .performed else if remote then .queued else .reading }
  | _, _ => s.setPerformed c k.id

/-- The (drow, dcol) field of tinfo0 for an operand: the offsets of a space-7 descriptor, or those that lead to the module
of an address (12 R264). -/
def State.peerOffsets (s : State) (d : TdWord) (ia : Nat) : Nat :=
  if tdSpace d == 7 then bitsOf (tdPlaceBits d) 52 4 * 16 + bitsOf (tdPlaceBits d) 48 4
  else
    let m := iaModule ia
    (m / 16 + 16 - s.modid.toNat / 16) % 16 * 16 + (m % 16 + 16 - s.modid.toNat % 16) % 16

/-- The reads of an operand's part of an MMAR segment, rows or columns [k0, k0 + kn), with the VA of each; an operand in
operand memory is read by the pass (12 R262, R263). -/
def State.mmarReads (s : State) (c : CoreId) (k : Cmd) (o : Opnd) (base : Nat) (byRows : Bool) (k0 kn : Nat) : List Access :=
  let d := o.td
  if tdSpace d == 2 then []
  else
    let l := if byRows then s.windowPieces c k.wins { r := true } o k0 kn 0 128 else s.windowPieces c k.wins { r := true } o 0 128 k0 kn
    let runs := if byRows then tdWindow d k0 kn 0 128 else tdWindow d 0 128 k0 kn
    let va := fun (place : Nat) =>
      tdPlaceBits d % 2 ^ 48 + (if scalePlace ≤ place then tdScaleOff d + (place - scalePlace)
        else (runs.findSome? fun (off, p, n) => if p ≤ place ∧ place < p + n then some (off + (place - p)) else none).getD 0)
    l.map fun (t, place, n) =>
      { owner := cmdOwner c .m k.id, target := t, op := .read n (base + place), requester := .core c, va := va place }

/-- An MMAR's fetch of its current segment sets out: the tick stands in `sub` (12 R263, R264). -/
def State.mmarFetch (s : State) (c : CoreId) (k : Cmd) (a b : Opnd) (tb ta : Bool) : State :=
  let total := match tdFmt a.td, tdFmt b.td with
    | some fa, some fb => (mmaK fa fb).getD 128
    | _, _ => 128
  let seg := total / 16
  let k0 := k.step * seg
  (s.modCmd c k.id fun k => { k with phase := .reading, sub := s.now, got := [] }).send
    (s.mmarReads c k a 0 ta k0 seg ++ s.mmarReads c k b operandB (!tb) k0 seg)

/-- An MMAR is suspended: RMOPND with the class, the peer and the VA (12 R264). -/
def State.suspendMmar (s : State) (c : CoreId) (k : Cmd) (cls : Nat) (x : Access) : State :=
  match k.kind with
  | .mma a b _ _ _ _ true =>
    let o := match x.op with | .read _ put => if put < operandB then a else b | _ => a
    let ia := match x.target with | .global ia => ia | _ => 0
    let s := s.dropOwner (cmdOwner c .m k.id)
    let s := s.modCmd c k.id fun k => { k with phase := .suspended, got := [] }
    s.pendAsync c 0x0F (BitVec.ofNat 64 (cls + s.peerOffsets o.td ia * 16)) (BitVec.ofNat 64 x.va)
  | _ => s

/-! ### Planes -/

/-- MZERO (12 R258). -/
def execMzero (s : State) : Host.Outcome State Fault Refusal := .next (s.enqueue .m .mzero)

/-- MZERO performs. -/
def State.mzeroRun (s : State) (c : CoreId) (k : Cmd) : State :=
  (s.modCore c fun x => { x with mx := { x.mx with
    plane := Vector.replicate 16384 0, check := Vector.replicate 16384 0, chk := true } }).setPerformed c k.id

/-- Spaces of MACC, MDRAIN, CHEND and CHGRAD tensors (12 R259, R260). -/
def drainSpaces : List Nat := [0, 1, 3, 4, 7]

/-- Formats that MACC reads (12 R259). -/
def maccFmt : Fmt → Bool
  | .e4m3 | .e5m2 | .b4 => false
  | _ => true

/-- TDESC of MACC (12 R259). -/
def State.trapMacc (s : State) (td : BitVec 6) : Option Raise :=
  let d := s.me.td[td.toNat]
  pickRaise [s.tdCheck td drainSpaces,
    failIf (tdScaled d || !hasShape d 128 128 || !((tdFmt d).map maccFmt).getD false) (tdescTrap td)]

/-- MACC (12 R259). -/
def execMacc (td : BitVec 6) (s : State) : Host.Outcome State Fault Refusal :=
  .next (s.orRaise (s.trapMacc td) fun s => s.enqueue .m (.macc (s.me.opnd td)))

/-- The word that MACC writes for an element's code (12 R259). -/
def maccWord (f : Fmt) (fmode : BitVec 12) (x : Nat) : Nat :=
  match f with
  | .bf16 => FFmt.f32.res .rne false (FFmt.bf16.value (flushIn fmode (.flt .bf16)) x)
  | .f16 => FFmt.f32.res .rne false (FFmt.f16.value (flushIn fmode (.flt .f16)) x)
  | .i16 => patternOf 32 (signedOf 16 x)
  | .i8 => patternOf 32 (signedOf 8 x)
  | _ => x

/-- MACC has read its tensor: both planes are loaded (12 R259). -/
def State.maccLoad (s : State) (c : CoreId) (k : Cmd) (o : Opnd) : State :=
  match tdFmt o.td with
  | none => s.setPerformed c k.id
  | some f =>
    let codes := (elemsOfNat (fmtBits f) 16384 (natOfBytes (k.got.span 0 (tdPacked o.td)))).toArray
    let p : Vector (BitVec 32) 16384 := Vector.ofFn fun e => BitVec.ofNat 32 (maccWord f k.fmode (codes.getD e.val 0))
    (s.modCore c fun x => { x with mx := { x.mx with plane := p, check := p, chk := true } }).setPerformed c k.id

/-- TDESC of MDRAIN (12 R260). -/
def State.trapMdrain (s : State) (td : BitVec 6) : Option Raise :=
  let d := s.me.td[td.toNat]
  pickRaise [s.tdCheck td drainSpaces,
    failIf (!hasShape d 128 128 || tdFmt d == some .b4 || (tdScaled d && ((tdFmt d).map fmtIsInt).getD false)) (tdescTrap td)]

/-- MDRAIN (12 R260). -/
def execMdrain (td : BitVec 6) (s : State) : Host.Outcome State Fault Refusal :=
  .next (s.orRaise (s.trapMdrain td) fun s => s.enqueue .m (.mdrain (s.me.opnd td)))

/-- One word drained into a target format: RNE, divided by the tensor scale where the target is scaled (12 R260). -/
def drainConv (d : TdWord) (fmode : BitVec 12) (src : Elt) (x : Nat) : Conv :=
  match (tdFmt d).bind fmtElt with
  | none => ⟨0, false, false, false⟩
  | some t =>
    let v := src.value false x
    t.conv (.mode .rne) (flushOut fmode t) (if tdScaled d then v.div (FFmt.f32.value false (tdTscale d)) else v)

/-- The words of a plane are read as i32 for integer targets, as f32 for the others (12 R260). -/
def drainSource (d : TdWord) : Elt := if ((tdFmt d).map fmtIsInt).getD false then .int 32 true else .flt .f32

/-- The stream of a tensor of these element codes. -/
def codesStream (d : TdWord) (codes : List Nat) : Mem :=
  Mem.put [] 0 (bytesOfNat (tdPacked d) (natOfElems (tdBits d) codes))

/-- An m-queue command writes a whole tensor, with the counts of a counted conversion. -/
def State.drainWrite (s : State) (c : CoreId) (k : Cmd) (o : Opnd) (codes : List Nat) (n : Nat × Nat × Nat) : State :=
  let l := writeAccesses (cmdOwner c .m k.id) (.core c) (codesStream o.td codes) (s.pieces c k.wins { w := true } o)
  (s.modCmd c k.id fun k => { k with phase := .writing, sat := n.1, flz := n.2.1, nan := n.2.2 }).send l

/-- Places where the planes differ (12 R261). -/
def Mx.differing (m : Mx) : List Nat := (List.range 16384).filter fun e => m.plane[e]?.getD 0 != m.check[e]?.getD 0

/-- MDRAIN performs: with chk set the planes are compared first, and REDUND replaces the writes where they differ
(12 R260, R261). -/
def State.mdrainRun (s : State) (c : CoreId) (k : Cmd) (o : Opnd) : State :=
  let m := (s.core c).mx
  let bad := if m.chk then m.differing else []
  match bad with
  | e :: _ =>
    (s.pendAsync c 0x0C (tdBase o.td) (BitVec.ofNat 64 (bad.length + e / 128 * 2 ^ 16 + e % 128 * 2 ^ 23))).setPerformed c k.id
  | [] =>
    let l := m.plane.toList.map fun w => drainConv o.td k.fmode (drainSource o.td) w.toNat
    let n := if tdFmt o.td == some .f32 then (0, 0, 0) else convCounts l
    s.drainWrite c k o (l.map (·.bits)) n

/-! ### Status -/

/-- The matrix status word (12 R266). -/
def State.mstat (s : State) : Nat :=
  let c := s.me
  let g := (s.cluster (clusterOf s.cur)).grant.filter fun g => g.holder == s.cur
  let seg := match c.mHead with
    | some k => (match k.kind with | .mma _ _ _ _ _ _ true => k.step | _ => 0)
    | none => 0
  b2n c.mx.contender.isSome + b2n g.isSome * 2 + b2n c.mx.chk * 4 + b2n c.suspendedMmar.isSome * 8
    + b2n c.mx.chain.isOpen * 16 + c.q.m.length * 2 ^ 5 + (g.map (·.cmdsLeft)).getD 0 * 2 ^ 11
    + (g.map fun g => 8192 - g.cycles).getD 0 * 2 ^ 16 + seg % 16 * 2 ^ 31
    + ((List.range 64).filter fun i => c.mx.names.getLsbD i).length * 2 ^ 35

/-- MSTAT (12 R266). -/
def execMstat (d : BitVec 5) (s : State) : Host.Outcome State Fault Refusal :=
  .next (s.emit 2 (.s d (BitVec.ofNat 64 s.mstat)))

end Sys2Proof.Machine
end

