-- ==== Sys2Proof/Machine/Chains.lean ====
section
/-! DEFINITION. Weight chains: prickings, opening and closing a chain, steps as array passes, link gradients (07 R133;
13 R269-R286). -/

namespace Sys2Proof.Machine

/-! ### The pricking -/

/-- Input and output factors of a step (13 R270). -/
def StepEntry.inF (e : StepEntry) : Nat := if e.transpose then e.m else e.n
/-- Output factor of a step (13 R270). -/
def StepEntry.outF (e : StepEntry) : Nat := if e.transpose then e.n else e.m

/-- A product of factors. -/
def prod (l : List Nat) : Nat := l.foldl (· * ·) 1

/-- Product of the output factors of the first k steps. -/
def Pricking.done (p : Pricking) (k : Nat) : Nat := prod ((p.steps.take k).map (·.outF))
/-- Product of the input factors of the steps from k on. -/
def Pricking.rest (p : Pricking) (k : Nat) : Nat := prod ((p.steps.drop k).map (·.inF))

/-- Bytes of a boundary element (13 R271). -/
def Pricking.width (p : Pricking) : Nat := if p.bf16 then 2 else 4

/-- The boundary format. -/
def Pricking.fmt (p : Pricking) : FFmt := if p.bf16 then .bf16 else .f32

/-- The step entry in 16 bytes (13 R273). -/
def stepEntry (n : Nat) : StepEntry :=
  { td := bitsOf n 0 8, bdIn := bitsOf n 8 8, bdOut := bitsOf n 16 8, m := bitsOf n 24 8, n := bitsOf n 32 8
    transpose := bitsOf n 40 1 == 1, scale := bitsOf n 41 1 == 1, final := bitsOf n 42 1 == 1 }

/-- The bytes of step entry e as a number. -/
def entryBits (n e : Nat) : Nat := bitsOf n (8 * (32 + 16 * e)) 128

/-- The pricking in the bytes of a header and its entries (13 R273). -/
def prickingOf (n : Nat) : Pricking :=
  { steps := (List.range (bitsOf n 0 8)).map fun e => stepEntry (entryBits n e)
    dir := bitsOf n 8 8 == 1, bf16 := bitsOf n 16 8 == 1, batch := bitsOf n 24 8, slotA := bitsOf n 32 8, slotB := bitsOf n 40 8
    buflen := bitsOf n 64 32 }

/-- The byte offset of the first failing field of a header (13 R273, R274). -/
def headerFault (n : Nat) : Option Nat :=
  let steps := bitsOf n 0 8
  ([ (0, steps == 0 || decide (8 < steps)), (1, decide (1 < bitsOf n 8 8)), (2, decide (1 < bitsOf n 16 8))
   , (3, bitsOf n 24 8 == 0 || decide (128 < bitsOf n 24 8)), (4, decide (63 < bitsOf n 32 8)), (5, decide (63 < bitsOf n 40 8))
   , (6, bitsOf n 48 16 != 0), (8, bitsOf n 64 32 == 0 || decide (32768 * 64 < bitsOf n 64 32)), (12, bitsOf n 96 160 != 0)
   ] : List (Nat × Bool)).find? (·.2) |>.map (·.1)

/-- The byte offset of the first failing field of entry e of so many (13 R273, R274). -/
def entryFault (n steps e : Nat) : Option Nat :=
  let x := entryBits n e
  let flags := bitsOf x 40 8
  ([ (0, decide (63 < bitsOf x 0 8))
   , (1, decide (15 < bitsOf x 8 8) || (e != 0 && bitsOf x 8 8 != bitsOf (entryBits n (e - 1)) 16 8))
   , (2, decide (15 < bitsOf x 16 8)), (3, bitsOf x 24 8 == 0 || decide (64 < bitsOf x 24 8))
   , (4, bitsOf x 32 8 == 0 || decide (64 < bitsOf x 32 8))
   , (5, decide (7 < flags) || (bitsOf flags 2 1 == 1) != (e + 1 == steps)), (6, bitsOf x 48 80 != 0)
   ] : List (Nat × Bool)).find? (·.2) |>.map fun p => 32 + 16 * e + p.1

/-- The byte offset of the first failing field of a pricking (13 R274). -/
def prickingFault (n : Nat) : Option Nat :=
  match headerFault n with
  | some o => some o
  | none => (List.range (bitsOf n 0 8)).findSome? (entryFault n (bitsOf n 0 8))

/-- TDESC with an information of its own (13 R274). -/
def chainTrap (info : Nat) : Raise := .trap 0x07 (BitVec.ofNat 64 info) 0

/-- The pricking at an address as of the issuing bundle, or what reading it meets (13 R274). -/
def State.readPricking (s : State) (a : Nat) : Except Raise Pricking :=
  let c := s.me
  if a % 32 ≠ 0 then .error (chainTrap a)
  else match c.scratchCheck a 32 with
    | some e => .error (.violation e a)
    | none =>
      let steps := natOfBytes (c.localView c.issue a 1)
      let n := if 1 ≤ steps ∧ steps ≤ 8 then 32 + 16 * steps else 32
      match c.scratchCheck a n with
      | some e => .error (.violation e a)
      | none =>
        let x := natOfBytes (c.localView c.issue a n)
        match prickingFault x with
        | some o => .error (chainTrap (0x100 + o))
        | none => .ok (prickingOf x)

/-- Slots of buffer A, of buffer B. -/
def Pricking.slotsA (p : Pricking) : List Nat := bufferSlots p.slotA p.buflen
/-- Slots of buffer B. -/
def Pricking.slotsB (p : Pricking) : List Nat := bufferSlots p.slotB p.buflen

/-- The first slot of the buffer that step k, counted from 1, writes (13 R273). -/
def Pricking.buffer (p : Pricking) (k : Nat) : Nat := if k % 2 = 1 then p.slotA else p.slotB

/-- Slots in both lists. -/
def bothSlots (a b : List Nat) : List Nat := a.filter b.contains

/-- Check 3 of CHBEG: the buffers (13 R274). -/
def State.trapBuffers (s : State) (p : Pricking) : Option Raise :=
  let all := p.slotsA ++ p.slotsB
  match all.find? fun i => decide (63 < i) with
  | some i => some (omslotTrap i)
  | none =>
    match bothSlots p.slotsA p.slotsB with
    | i :: _ => some (omslotTrap i)
    | [] => s.me.slotCheck all

/-- Check 4 of CHBEG: the input tensor (13 R274). -/
def State.trapChainIn (s : State) (p : Pricking) (td : BitVec 6) : Option Raise :=
  let d := s.me.td[td.toNat]
  match s.tdCheck td [2] with
  | some r => some r
  | none =>
    if tdFmt d != some (if p.bf16 then .bf16 else .f32) || tdScaled d || !hasShape d p.batch (p.rest 0)
        || !(bothSlots (tdSlots d) p.slotsA).isEmpty then some (tdescTrap td)
    else s.me.slotCheck (tdSlots d)

/-- A format that CHEND writes (13 R274). -/
def chendFmt : Fmt → Bool
  | .f32 | .bf16 | .f16 | .e4m3 | .e5m2 => true
  | _ => false

/-- Check 5 of CHBEG: the output tensor (13 R274). -/
def State.trapChainOut (s : State) (p : Pricking) (td : BitVec 6) : Option Raise :=
  let d := s.me.td[td.toNat]
  match s.tdCheck td drainSpaces with
  | some r => some r
  | none => failIf (!((tdFmt d).map chendFmt).getD false || !hasShape d p.batch (p.done p.steps.length)) (tdescTrap td)

/-- CHBEG's checks in order (13 R274). -/
def State.trapChbeg (s : State) (pricking : BitVec 5) (tdIn tdOut : BitVec 6) : Option Raise :=
  match s.readPricking (s.me.rs pricking).toNat with
  | .error r => some r
  | .ok p =>
    match s.trapBuffers p with
    | some r => some r
    | none =>
      match s.trapChainIn p tdIn with
      | some r => some r
      | none => s.trapChainOut p tdOut

/-- The open chain keeps its progress under a new pricking (13 R275). -/
def Chain.keeps (h : Chain) (p : Pricking) : Bool :=
  h.isOpen && h.pk.steps == p.steps && h.pk.dir == p.dir && h.pk.bf16 == p.bf16 && h.pk.batch == p.batch
    && (h.issued == 0 || h.pk.buffer h.issued == p.buffer h.issued)

/-- The issuing core's chain changed. -/
def Core.modChain (c : Core) (f : Chain → Chain) : Core := { c with mx := { c.mx with chain := f c.mx.chain } }

/-- A step command of a chain. -/
def CmdKind.isStep : CmdKind → Bool
  | .chain _ _ _ _ _ => true
  | _ => false

/-- The chain closes: step commands that have not started leave the queue, and one in progress stops at its next pass boundary, which
is where it stands if no pass runs (13 R282). -/
def Core.abortChain (c : Core) (running : Bool) : Core :=
  if !c.mx.chain.isOpen then c
  else
    let keep := c.q.m.filter fun k => !(k.kind.isStep && k.phase == .queued)
    { c.modChain (fun h => { h with isOpen := false }) with
      q := { c.q with m := keep.map fun k =>
        if !k.kind.isStep then k else if running then { k with abort := true } else { k with phase := .performed } } }

/-- CHABORT on the issuing core; its cluster's arbiter looks again (13 R282, R286). -/
def State.abortChain (s : State) : State :=
  (s.modMe fun c => c.abortChain (s.passRunning s.cur)).refreshArray (clusterOf s.cur)

/-- CHBEG (13 R274, R275). -/
def execChbeg (pricking : BitVec 5) (tdIn tdOut : BitVec 6) (s : State) : Host.Outcome State Fault Refusal :=
  .next (s.orRaise (s.trapChbeg pricking tdIn tdOut) fun s =>
    match s.readPricking (s.me.rs pricking).toNat with
    | .error _ => s
    | .ok p =>
      let i := s.me.opnd tdIn
      let o := s.me.opnd tdOut
      if s.me.mx.chain.keeps p then s.modMe fun c => c.modChain fun h => { h with pk := p, tdIn := i, tdOut := o }
      else s.abortChain.modMe fun c => c.modChain fun h => { isOpen := true, gen := h.gen + 1, pk := p, tdIn := i, tdOut := o })

/-! ### Steps -/

/-- A bond register's value. -/
def Core.bond (c : Core) (i : Nat) : Nat := (c.bd[i]?.getD 1).toNat

/-- The trap of a step names the step (13 R277). -/
def stepTrap (k : Nat) : Raise → Raise
  | .trap 0x02 a b => .trap 0x02 a b
  | .trap cause _ _ => .trap cause (BitVec.ofNat 64 k) 0
  | r => r

/-- The bytes of the boundary that step k, counted from 0, writes with produced bond r (13 R272). -/
def Pricking.bytes (p : Pricking) (k r : Nat) : Nat := p.batch * p.done (k + 1) * r * p.rest (k + 1) * p.width

/-- The checks of one covered step (13 R277): what it meets, given the bond value the step before left. -/
def State.trapStep (s : State) (p : Pricking) (k : Nat) (e : StepEntry) (rPrev : Nat) : Option Raise :=
  let c := s.me
  let i : BitVec 6 := BitVec.ofNat 6 e.td
  let d := c.td[i.toNat]
  let rIn := c.bond e.bdIn
  let rOut := c.bond e.bdOut
  let rows := if p.dir then rOut * e.m * e.n else rIn * e.m * e.n
  let cols := if p.dir then rIn else rOut
  match s.tdCheck i [2] true with
  | some r => some (stepTrap k r)
  | none =>
    if tdM d != e.m || tdN d != e.n then some (chainTrap k)
    else if tdFmt d != some .bf16 && tdFmt d != some .b4 then some (.trap 0x08 (BitVec.ofNat 64 k) 0)
    else if rIn != rPrev || (e.final && rOut != 1) || decide (tdRows d < rows) || decide (tdCols d < cols)
        || !(bothSlots (tdSlots d) (p.slotsA ++ p.slotsB)).isEmpty then some (chainTrap k)
    else
      match c.slotCheck (tdSlots d ++ bufferSlots (p.buffer (k + 1)) p.buflen) with
      | some _ => some (omslotTrap k)
      | none =>
        if p.buflen < p.bytes k rOut then some (.trap 0x0B (BitVec.ofNat 64 k) (BitVec.ofNat 64 (p.bytes k rOut))) else none

/-- The checks of every covered step in order (13 R277). -/
def State.trapSteps (s : State) (p : Pricking) : Nat → Nat → List StepEntry → Option Raise
  | _, _, [] => none
  | k, rPrev, e :: l =>
    match s.trapStep p k e rPrev with
    | some r => some r
    | none => State.trapSteps s p (k + 1) (s.me.bond e.bdOut) l

/-- The steps that a command covers. -/
def Chain.covered (h : Chain) (n : Nat) : List StepEntry := (h.pk.steps.drop h.issued).take n

/-- CHSTEP and CHRUN over the next n steps: ILLEGAL, then the steps' checks, then the lease (13 R276, R277). -/
def State.trapChain (s : State) (n : Nat) : Option Raise :=
  let h := s.me.mx.chain
  if !h.isOpen || h.issued == h.pk.steps.length then some s.illegal
  else match s.trapSteps h.pk h.issued h.rPrev (h.covered n) with
    | some r => some r
    | none => s.leaseCheck

/-- A step command enters the m queue (13 R276, R277). -/
def State.issueChain (s : State) (n : Nat) : State :=
  let h := s.me.mx.chain
  let l := h.covered n
  let links := l.map fun e => (s.me.td[(BitVec.ofNat 6 e.td).toNat], s.me.bond e.bdIn, s.me.bond e.bdOut)
  let last := (l.getLast?.map fun e => s.me.bond e.bdOut).getD h.rPrev
  let s := s.enqueue .m (.chain h.gen h.pk h.tdIn h.issued links)
  (s.modMe fun c => c.modChain fun h => { h with issued := h.issued + l.length, rPrev := last }).refreshArray (clusterOf s.cur)

/-- CHSTEP (13 R276). -/
def execChstep (n : BitVec 4) (s : State) : Host.Outcome State Fault Refusal :=
  .next (s.orRaise (if n.toNat = 0 ∨ 8 < n.toNat then some s.illegal else s.trapChain n.toNat) fun s => s.issueChain n.toNat)

/-- CHRUN (13 R276). -/
def execChrun (s : State) : Host.Outcome State Fault Refusal :=
  .next (s.orRaise (s.trapChain 8) fun s => s.issueChain 8)

/-- The sizes of a step (13 R278, R279). -/
structure StepShape where
  k : Nat
  e : StepEntry
  pd : Nat
  pr : Nat
  rIn : Nat
  rOut : Nat
  rows : Nat
  cols : Nat
  depth : Nat
deriving DecidableEq, Repr

/-- The shape of step k of a pricking with its bonds. -/
def stepShape (p : Pricking) (k : Nat) (e : StepEntry) (rIn rOut : Nat) : StepShape :=
  { k := k, e := e, pd := p.done k, pr := p.rest (k + 1), rIn := rIn, rOut := rOut
    rows := p.batch * p.done k * p.rest (k + 1), cols := e.outF * rOut, depth := rIn * e.inF }

/-- Passes of one tile, and of the step (13 R279). -/
def tilePasses (depth : Nat) : Nat := ceilDiv depth 128
/-- Passes of a product of these sizes (13 R279). -/
def allPasses (rows cols depth : Nat) : Nat := ceilDiv rows 128 * ceilDiv cols 128 * tilePasses depth

/-- The contracted index q as bond a and digit y (13 R278). -/
def stepQ (dir : Bool) (h : StepShape) (q : Nat) : Nat × Nat :=
  if dir then (q % h.rIn, q / h.rIn) else (q / h.e.inF, q % h.e.inF)

/-- Row t as sample b and digit strings I and J (13 R279). -/
def stepT (dir : Bool) (h : StepShape) (t : Nat) : Nat × Nat × Nat :=
  let b := t / (h.pd * h.pr)
  let r := t % (h.pd * h.pr)
  if dir then (b, r % h.pd, r / h.pd) else (b, r / h.pr, r % h.pr)

/-- Where a step reads its source boundary (13 R278). -/
def stepFrom (dir : Bool) (h : StepShape) (t q : Nat) : Nat :=
  let (b, i, j) := stepT dir h t
  let (a, y) := stepQ dir h q
  if dir then ((b * h.pr * h.e.inF + j * h.e.inF + y) * h.rIn + a) * h.pd + i
  else ((b * h.pd + i) * h.rIn + a) * (h.e.inF * h.pr) + y * h.pr + j

/-- Where a step writes row t, column x·rOut + c (13 R278). -/
def stepTo (dir : Bool) (h : StepShape) (t col : Nat) : Nat :=
  let (b, i, j) := stepT dir h t
  let x := col / h.rOut
  let c := col % h.rOut
  if dir then ((b * h.pr + j) * h.rOut + c) * (h.e.outF * h.pd) + x * h.pd + i
  else ((b * h.pd * h.e.outF + i * h.e.outF + x) * h.rOut + c) * h.pr + j

/-- The link element, in descriptor order, that meets column col at contracted index q (13 R269, R278). -/
def stepLink (dir : Bool) (h : StepShape) (cols q col : Nat) : Nat :=
  let (a, y) := stepQ dir h q
  let x := col / h.rOut
  let c := col % h.rOut
  let p := if h.e.transpose then y * h.e.n + x else x * h.e.n + y
  let mn := h.e.m * h.e.n
  if dir then (c * mn + p) * cols + a else (a * mn + p) * cols + c

/-- A link's descriptor as a step uses it: the tensor scale only where the step's flag asks (13 R269). -/
def linkScaled (d : TdWord) (scale : Bool) : TdWord := BitVec.ofNat 256 (withBits d.toNat 73 1 (b2n scale))

/-- A tile's accumulators after one pass over q in [q0, q0 + n): the check plane's cells of the tile (13 R279). -/
def tilePass (plane : Vector (BitVec 32) 16384) (rows cols t0 c0 q0 n : Nat) (left : Nat → Nat → Num) (right : Nat → Nat → Num) :
    Vector (BitVec 32) 16384 :=
  let qs := (List.range n).map (q0 + ·)
  let ls := (List.range 128).toArray.map fun i => if t0 + i < rows then qs.map (left (t0 + i)) else []
  let rs := (List.range 128).toArray.map fun j => if c0 + j < cols then qs.map fun q => right q (c0 + j) else []
  Vector.ofFn fun e : Fin 16384 =>
    let i := e.val / 128
    let j := e.val % 128
    if t0 + i < rows ∧ c0 + j < cols then
      BitVec.ofNat 32 (accGroups n (if q0 = 0 then 0 else plane[e].toNat) ((ls.getD i []).zip (rs.getD j [])))
    else plane[e]

/-- A finished tile: rows, columns and the accumulators' codes (13 R279). -/
def tileCells (plane : Vector (BitVec 32) 16384) (rows cols t0 c0 : Nat) : List (Nat × Nat × Nat) :=
  (List.range 128).flatMap fun i => (List.range 128).filterMap fun j =>
    if t0 + i < rows ∧ c0 + j < cols then some (t0 + i, c0 + j, (plane[128 * i + j]?.getD 0).toNat) else none

/-- A tile's result in a boundary or gradient format: fo32, then one rounding (13 R278, R284). -/
def tileRound (fmode : BitVec 12) (f : FFmt) (flush : Bool) (x : Nat) : Nat :=
  f.res .rne flush (FFmt.f32.value false (flushF32 (fmode.getLsbD 5) x))

/-- The place of a pass in its product: the tile's first row and column, and the pass's first q. -/
def passPlace (cols depth pass : Nat) : Nat × Nat × Nat :=
  let per := tilePasses depth
  let tile := pass / per
  let across := ceilDiv cols 128
  (tile / across * 128, tile % across * 128, pass % per * 128)

/-- What a step's progress does to chprog (13 R283): only a step of the last chain opened changes it, one that CHABORT stops does
not, and those queued behind a CHEND do, so that `done` ends at the steps run (18 R340). -/
def Core.stepProgress (c : Core) (k : Cmd) (gen : Nat) (f : Chain → Chain) : Core :=
  if !k.abort && c.mx.chain.gen == gen then c.modChain f else c

/-- The passes of a chain command's step k.step (13 R279). -/
def chainPasses (p : Pricking) (start : Nat) (links : List (TdWord × Nat × Nat)) (step : Nat) : Nat :=
  match links[step]?, p.steps[start + step]? with
  | some (_, rIn, rOut), some e =>
    let h := stepShape p (start + step) e rIn rOut
    allPasses h.rows h.cols h.depth
  | _, _ => 0

/-- A pass of the head chain command begins under a grant: its step is in progress (13 R283). -/
def State.stepStarts (s : State) (c : CoreId) : State :=
  match (s.core c).mHead with
  | some k =>
    match k.kind with
    | .chain gen p _ start links =>
      if k.phase == .reading then
        s.modCore c fun x => x.stepProgress k gen fun h => { h with pass := k.sub, npass := chainPasses p start links k.step }
      else s
    | _ => s
  | none => s

/-- A pass of a chain command (13 R278-R280). -/
def State.chainPass (s : State) (c : CoreId) (k : Cmd) (gen : Nat) (p : Pricking) (input : Opnd) (start : Nat)
    (links : List (TdWord × Nat × Nat)) : State :=
  let n := start + k.step
  match links[k.step]?, p.steps[n]? with
  | some (d, rIn, rOut), some e =>
    let h := stepShape p n e rIn rOut
    let total := allPasses h.rows h.cols h.depth
    let (t0, c0, q0) := passPlace h.cols h.depth k.sub
    let cl := s.cluster (clusterOf c)
    let src := if n = 0 then tdPlaceBits input.td else p.buffer n
    let cells := p.batch * h.pd * rIn * (e.inF * h.pr)
    let w := p.width
    let f := p.fmt
    let prev := ((elemsOfNat (8 * w) cells (natOfBytes (cl.omem.span (src * 32768) (cells * w)))).map
      (f.value (flushIn k.fmode (.flt f)))).toArray
    let ld := linkScaled d e.scale
    let lv := tdValues ld k.fmode (cl.omem.span (tdPlaceBits d * 32768) (tdPacked d)) (cl.side.span (tdPlaceBits d * 2048) (tdScales d))
    let plane := tilePass (s.core c).mx.check h.rows h.cols t0 c0 q0 (min 128 (h.depth - q0))
      (fun t q => prev.getD (stepFrom p.dir h t q) .nan) (fun q col => lv.getD (stepLink p.dir h (tdCols d) q col) .nan)
    let s := s.modCore c fun x => { x with mx := { x.mx with check := plane, chk := false } }
    let tileEnds := decide (h.depth ≤ q0 + 128)
    let s := if !tileEnds then s
      else s.modCluster (clusterOf c) fun x =>
        { x with omem := (tileCells plane h.rows h.cols t0 c0).foldl (fun m (t, col, acc) =>
            m.put (p.buffer (n + 1) * 32768 + stepTo p.dir h t col * w)
              (bytesOfNat w (tileRound k.fmode f (p.bf16 && k.fmode.getLsbD 7) acc))) x.omem }
    let ended := k.sub + 1 == total
    let s := s.modCore c fun x => x.stepProgress k gen fun h =>
      if ended then { h with done := h.done + 1, pass := 0, npass := 0 } else { h with pass := k.sub + 1 }
    s.modCmd c k.id fun k =>
      let k := if ended then { k with step := k.step + 1, sub := 0 } else { k with sub := k.sub + 1 }
      { k with phase := if k.step == links.length || k.abort then .performed else k.phase }
  | _, _ => s.setPerformed c k.id

/-! ### Closing a chain -/

/-- What CHEND meets (13 R281). -/
def State.trapChend (s : State) : Option Raise :=
  let h := s.me.mx.chain
  if !h.isOpen then some s.illegal
  else failIf (decide (h.issued < h.pk.steps.length)) (chainTrap h.issued)

/-- CHEND (13 R281). -/
def execChend (s : State) : Host.Outcome State Fault Refusal :=
  .next (s.orRaise s.trapChend fun s =>
    let h := s.me.mx.chain
    (s.enqueue .m (.chend h.pk h.tdOut)).modMe fun c => c.modChain fun h => { h with isOpen := false })

/-- CHEND performs: the final boundary is converted into tdOut (13 R281). -/
def State.chendRun (s : State) (c : CoreId) (k : Cmd) (p : Pricking) (o : Opnd) : State :=
  let d := o.td
  let f := p.fmt
  let w := p.width
  let bytes := (s.cluster (clusterOf c)).omem.span (p.buffer p.steps.length * 32768) (tdCount d * w)
  let vals := (elemsOfNat (8 * w) (tdCount d) (natOfBytes bytes)).map (f.value (flushIn k.fmode (.flt f)))
  let l := vals.map fun v =>
    match (tdFmt d).bind fmtElt with
    | some t => t.conv (.mode .rne) (flushOut k.fmode t) (if tdScaled d then v.div (FFmt.f32.value false (tdTscale d)) else v)
    | none => ⟨0, false, false, false⟩
  let same := tdFmt d == some (if p.bf16 then .bf16 else .f32)
  s.drainWrite c k o (l.map (·.bits)) (if same then (0, 0, 0) else convCounts l)

/-- CHABORT (13 R282). -/
def execChabort (s : State) : Host.Outcome State Fault Refusal :=
  .next s.abortChain

/-! ### Link gradients -/

/-- An operand of CHGRAD: space 2, row-major, unscaled (13 R284). -/
def State.trapEnv (s : State) (td : BitVec 6) : Option Raise :=
  match s.tdCheck td [2] with
  | some r => some r
  | none => failIf (tdScaled s.me.td[td.toNat]) (tdescTrap td)

/-- The formats of CHGRAD's operands (13 R284). -/
def gradPair (a b : TdWord) : Bool :=
  (tdFmt a == some .bf16 && (tdFmt b == some .bf16 || tdFmt b == some .f32)) || (tdFmt a == some .f32 && tdFmt b == some .bf16)

/-- The rank of CHGRAD's gradient tensor: its stored rows and columns suffice (13 R284). -/
def State.trapGrad (s : State) (g : BitVec 6) (rL rR : Nat) : Option Raise :=
  let d := s.me.td[g.toNat]
  match s.tdCheck g drainSpaces true with
  | some r => some r
  | none =>
    failIf ((tdFmt d != some .f32 && tdFmt d != some .bf16) || decide (tdRows d < rL * tdM d * tdN d) || decide (tdCols d < rR)) (tdescTrap g)

/-- CHGRAD's checks (13 R284). -/
def State.trapChgrad (s : State) (l r g : BitVec 6) : Option Raise :=
  let c := s.me
  let a := c.td[l.toNat]
  let b := c.td[r.toNat]
  let d := c.td[g.toNat]
  let rL := c.bond (tdBdIn d)
  let rR := c.bond (tdBdOut d)
  match pickRaise [s.trapEnv l, s.trapEnv r, s.trapGrad g rL rR] with
  | some x => some x
  | none =>
    if tdRows a != tdRows b || tdCols a != rL * tdN d then some (tdescTrap l)
    else if tdCols b != tdM d * rR then some (tdescTrap r)
    else if !gradPair a b then some (mcomboTrap a b)
    else
      match c.slotCheck (tdSlots a ++ tdSlots b) with
      | some x => some x
      | none => s.leaseCheck

/-- CHGRAD (13 R284). -/
def execChgrad (tdLeft tdRight tdGrad : BitVec 6) (s : State) : Host.Outcome State Fault Refusal :=
  .next (s.orRaise (s.trapChgrad tdLeft tdRight tdGrad) fun s =>
    let d := s.me.td[tdGrad.toNat]
    (s.enqueue .m (.chgrad (s.me.opnd tdLeft) (s.me.opnd tdRight) (s.me.opnd tdGrad) (s.me.bond (tdBdIn d))
      (s.me.bond (tdBdOut d)))).refreshArray (clusterOf s.cur))

/-- A pass of CHGRAD: rows (a, j), columns (i, c), contracted index t (13 R284). -/
def State.chgradPass (s : State) (c : CoreId) (k : Cmd) (l r g : Opnd) (rL rR : Nat) : State :=
  let m := tdM g.td
  let n := tdN g.td
  let rows := rL * n
  let cols := m * rR
  let depth := tdRows l.td
  let total := allPasses rows cols depth
  let (t0, c0, q0) := passPlace cols depth k.sub
  let (lb, _) := s.operandBytes c k l 0
  let (rb, _) := s.operandBytes c k r 0
  let lv := tdValues l.td k.fmode lb []
  let rv := tdValues r.td k.fmode rb []
  let plane := tilePass (s.core c).mx.check rows cols t0 c0 q0 (min 128 (depth - q0))
    (fun row q => lv.getD (q * rows + row) .nan) (fun q col => rv.getD (q * cols + col) .nan)
  let s := s.modCore c fun x => { x with mx := { x.mx with check := plane, chk := false } }
  let f : FFmt := if tdFmt g.td == some .bf16 then .bf16 else .f32
  let w := f.width / 8
  let writes := if q0 + 128 < depth then []
    else (tileCells plane rows cols t0 c0).flatMap fun (row, col, acc) =>
      let gr := row / n * m * n + col / rR * n + row % n
      writeAccesses (cmdOwner c .m k.id) (.core c)
        (Mem.put [] ((gr * tdCols g.td + col % rR) * w) (bytesOfNat w (tileRound k.fmode f false acc)))
        (s.windowPieces c k.wins { w := true } g gr 1 (col % rR) 1)
  let ended := k.sub + 1 == total
  (s.modCmd c k.id fun k => { k with sub := k.sub + 1, phase := if ended then .writing else k.phase }).send writes

end Sys2Proof.Machine
end

