-- ==== Sys2Proof/Machine/Bank.lean ====
section
/-! DEFINITION. The bank engines: the module bank sequencer, program start and completion, and the Crisum command set
(14 R287-R303; 10 R222, R223; 06 R110, R116). -/

namespace Sys2Proof.Machine

/-! ### Jobs -/

/-- An accepted job. -/
def State.job (s : State) (id : Nat) : Option BankJob := s.jobs.find? fun j => j.id == id

/-- One accepted job changed. -/
def State.modJob (s : State) (id : Nat) (f : BankJob → BankJob) : State :=
  { s with jobs := s.jobs.map fun j => if j.id == id then f j else j }

/-- Engine e belongs to the job's set. -/
def BankJob.has (j : BankJob) (e : Nat) : Bool := decide (j.first ≤ e) && decide (e < j.first + j.count)

/-- The engines of a job's set. -/
def BankJob.engines (j : BankJob) : List Nat := (List.range j.count).map (j.first + ·)

/-- Engine e of the set has ended the job. -/
def BankJob.endedOn (j : BankJob) (e : Nat) : Bool := j.ended.any fun p => p.1 == e

/-- An earlier command of the same core's bank queue (06 R107). -/
def BankJob.before (i j : BankJob) : Bool :=
  decide (i.id < j.id) && i.core.isSome && j.core.isSome && i.task == j.task && i.orphan == j.orphan && i.hx == j.hx && i.hy == j.hy

/-- Whose partition a job's accesses count for (21 R375). -/
def BankJob.who (j : BankJob) : Requester := .engine j.part j.region j.task

/-- The core of a running task at a place of its hoop. -/
def State.hoopCore (s : State) (t : Task) (hx hy : BitVec 4) : Option CoreId :=
  t.cores.find? fun c => (s.core c).ctl.hx == hx && (s.core c).ctl.hy == hy

/-- The core that hosts the issuer of a job now, where it runs. -/
def State.jobCore (s : State) (j : BankJob) : Option CoreId :=
  match (if j.orphan.isSome then none else j.core), s.task j.task with
  | none, _ => none
  | some _, some t => s.hoopCore t j.hx j.hy
  | some c, none => if (s.core c).ctl.taskid == j.task then some c else none

/-- An entry of the error log about a job (19 R355). -/
def State.logJob (s : State) (j : BankJob) (addr kind code : Nat) : State :=
  match j.core with
  | some c => s.logEntry addr j.task (s.core ((s.jobCore j).getD c)).cyc kind code c.val
  | none => s.logModule addr j.task kind code

/-- The entry of a violation that a job meets (05 R102, 19 R355). -/
def State.logJobViolation (s : State) (j : BankJob) (cls addr : Nat) : State :=
  (s.missed cls addr).logJob j addr (violationKind cls) cls

/-- The issuer's core changed, where it runs or in its saved context. -/
def State.modIssuer (s : State) (j : BankJob) (f : Core → Core) : State :=
  match s.jobCore j with
  | some c => s.modCore c f
  | none => if j.orphan.isSome then s else s.modTask j.task fun t => { t with saved := t.saved.map fun k =>
      if k.core.ctl.hx == j.hx && k.core.ctl.hy == j.hy then { k with core := f k.core } else k }

/-- An asynchronous trap joins those of a saved core, after all that it held (14 R302). -/
def Core.savedAsync (c : Core) (cause : Nat) (t0 t1 : Word) : Core :=
  { c with sys := { c.sys with asyncs := c.sys.asyncs ++ [{ cause := cause, tinfo0 := t0, tinfo1 := t1, since := -1 }] } }

/-- An asynchronous trap becomes pending on the core that issued a job, or in its saved context (14 R302). -/
def State.trapJob (s : State) (j : BankJob) (t0 t1 : Word) : State :=
  match j.core with
  | none =>
    -- a bank task's region takes the event (R290, R300)
    s.postEvent j.region { kind := 4, info := j.prog.toNat, task := j.task } (.bankFault j.prog j.task)
  | some _ =>
    match s.jobCore j with
    | some c => s.pendAsync c 0x17 t0 t1
    | none => s.modIssuer j fun c => c.savedAsync 0x17 t0 t1

/-- A job leaves the sequencer: its queue entry frees, its cycles are charged, and a bank task may retire
(14 R300; 20 R368). -/
def State.endJob (s : State) (j : BankJob) : State :=
  let s := { s with jobs := s.jobs.filter fun x => x.id != j.id }
  let s := s.charge j.region 0xB8 j.cycles
  match j.core with
  | some _ => s.modIssuer j fun x => x.dropCmd j.cmd
  | none => if j.orphan.isSome then s else s.modTask j.task fun t => { t with state := .retiring }

/-! ### Acceptance -/

/-- An address on this module lies on a BANK page. -/
def State.isBank (s : State) (ia : Nat) : Bool :=
  s.onModule ia && ((s.freshPage (iaLocal ia)).map (·.bank)).getD false

/-- Some byte of these targets lies on a BANK page. -/
def State.anyBank (s : State) (l : List (Target × Nat × Nat)) : Bool :=
  l.any fun (t, _, _) => match t with | .global ia => s.isBank ia | _ => false

/-- Some VA of a list lies on a BANK page. -/
def State.anyBankVa (s : State) (wins : Vector Window 8) (l : List Nat) : Bool :=
  l.any fun va => match translate wins {} va with | .ok ia => s.isBank ia | .error _ => false

/-- The command writes, or may yet write, a BANK page (06 R116). -/
def State.writesBank (s : State) (c : CoreId) (k : Cmd) : Bool :=
  match k.kind with
  | .copy _ _ _ _ | .gather _ _ _ | .scatter _ _ _ => s.anyBank (s.planTargets c k)
  | .mdrain d | .chend _ d => s.anyBank (s.pieces c k.wins { w := true } d)
  | .chgrad _ _ g _ _ => s.anyBank (s.pieces c k.wins { w := true } g)
  | .cbatch _ (some va) _ _ => s.anyBankVa k.wins [va.toNat]
  | _ => match amoParts k.kind with | some (va, _) => s.anyBankVa k.wins [va.toNat] | none => false

/-- An accepted job that has not started, or that writes a BANK page. -/
def State.jobWritesBank (s : State) (j : BankJob) : Bool :=
  j.vec.isNone && (!j.started || s.anyBankVa j.wins ([j.args.toNat + 0x34] ++ if j.cva = 0 then [] else [j.cva])
    || (!j.ospace && (List.range j.count).any fun e => s.anyBankVa j.wins (probePieces (j.oaddr + e * j.ostride) j.olen)))

/-- R116: every write to a BANK page of the core's earlier bundles has performed. -/
def State.bankReady (s : State) (c : CoreId) (k : Cmd) : Bool :=
  ((s.core c).q.ca ++ (s.core c).q.cb ++ (s.core c).q.m).all (fun x =>
    !decide (x.issue < k.issue) || x.phase == .performed || !s.writesBank c x)
    && (s.jobs.filter fun j => s.jobCore j == some c && decide (j.cmd < k.id)).all fun j => !s.jobWritesBank j

/-- The job of a bank-queue command. -/
def State.jobOf (s : State) (c : CoreId) (k : Cmd) : Option BankJob :=
  let x := s.core c
  let j : BankJob :=
    { id := s.nextJob, core := some c, hx := x.ctl.hx, hy := x.ctl.hy, cmd := k.id, task := x.ctl.taskid
      region := x.ctl.region.toNat, part := s.partOfRegion x.ctl.region.toNat, prog := 0, first := 0, count := 0, args := 0, wins := k.wins }
  match k.kind with
  | .bkcmd prog first count args => some { j with prog := prog, first := first, count := count, args := args }
  | .bkvec o first count => some { j with prog := tdBase o.td, first := first, count := count, vec := some o }
  | _ => none

/-- The bytes of a range of VAs on this module, as `footprint` gives them. -/
def State.vaBytes (s : State) (wins : Vector Window 8) (w : Bool) (va n : Nat) : List (Nat × Nat × Nat × Bool) :=
  (cutAt 65536 va n).filterMap fun (o, k) =>
    match translate wins {} (va + o) with
    | .ok ia => if s.onModule ia then some (0, ia, k, w) else none
    | .error _ => none

/-- The bytes of local and on-module global memory that a job touches; a program that has not started may be as long as any
(06 R107; 14 R289-R291). -/
def State.jobBytes (s : State) (j : BankJob) : List (Nat × Nat × Nat × Bool) :=
  let read := s.vaBytes j.wins false
  let write := s.vaBytes j.wins true
  match j.vec, j.core with
  | some o, some c => (s.pieces c j.wins { r := true } o).filterMap fun (t, _, n) => t.place.map fun (k, a) => (k, a, n, false)
  | _, _ =>
    read j.args.toNat 64 ++ read j.prog.toNat 4096 ++ write (j.args.toNat + 0x34) 4
      ++ (if j.cva = 0 then [] else write j.cva 8)
      ++ (List.range j.count).flatMap fun e =>
        let out := j.oaddr + e * j.ostride
        read (j.iva + e * j.istride) j.ilen
          ++ match j.ospace, j.core with
            | true, some c => ((Target.scratch c out).place.map fun (k, a) => (k, a, j.olen, true)).toList
            | _, _ => write out j.olen

/-- A job waits for an earlier one of its queue: one whose argument block is still to be read, or one that shares bytes with it
(06 R107). -/
def State.jobHeld (s : State) (j : BankJob) : Bool :=
  let mine := s.jobBytes j
  s.jobs.any fun i => i.before j && ((i.vec.isNone && !i.started) || meets (s.jobBytes i) mine)

/-- BKVEC reads a piece of its tensor: of the core's own memory at once, as it stood at issue, of global memory by an
access (06 R106, 10 R223). -/
def State.vecRead (s : State) (c : CoreId) (k : Cmd) (id : Nat) (p : Target × Nat × Nat) : State :=
  let (t, place, n) := p
  match t with
  | .global _ | .bad _ _ => s.send [{ owner := .job id, target := t, op := .read n place, requester := .core c }]
  | .scratch d a =>
    match (s.core d).scratchCheck a n with
    | some cls => s.modJob id fun j => { j with fail := j.fail.or (some (cls, a)) }
    | none => s.modJob id fun j => { j with got := j.got.put place ((s.core d).cmdView k a n) }
  | .vreg d phys off => s.modJob id fun j => { j with got := j.got.put place (((vecBytes ((s.core d).fileV phys)).drop off).take n) }
  | _ => s

/-- BANK_COMMAND_ACCEPT: the current core's next bank-queue command is accepted, once it may start (14 R301, 06 R107,
R109, R116). -/
def execBankCommandAccept (s : State) : Host.Outcome State Fault Refusal :=
  let c := s.cur
  match (s.core c).q.bank.find? fun k => k.phase == .queued with
  | none => .next s
  | some k =>
    let before := earlier (s.core c).q.bank k
    match s.jobOf c k with
    | none => .next s
    | some j =>
      if s.asleep c || before.any (·.kind.isFence) || !s.bankReady c k || (j.vec.isSome && s.jobHeld j) then .next s
      else
        let s := { s with jobs := s.jobs ++ [j], nextJob := s.nextJob + 1 }
        let s := match j.vec with
          | some o => (s.pieces c k.wins { r := true } o).foldl (fun (s : State) p => s.vecRead c k j.id p) s
          | none => s
        .next (s.modCmd c k.id fun k => { k with phase := .reading })

/-! ### Program start -/

/-- One word of a program, from a BANK page with R permission (14 R290). -/
def State.fetchWord (s : State) (j : BankJob) (va : Nat) : Except (Option (Nat × Nat)) (BitVec 32) :=
  match translate j.wins { r := true } va with
  | .error e => .error (some (e, va))
  | .ok ia =>
    if !s.onModule ia then .error none
    else match s.checkPage j.who (s.page (iaLocal ia)) with
      | .error e => .error (some (e, ia))
      | .ok p => if p.bank then .ok (BitVec.ofNat 32 (s.hbm.nat (p.key + iaLocal ia % p.size) 4)) else .error none

/-- The opcode field of a Crisum word (14 R292). -/
def crisumOp (w : BitVec 32) : Nat := w.toNat / 2 ^ 27

/-- The program's words up to its first BHALT, with fuel for 1,024 (14 R290). -/
def State.fetchProgram (s : State) (j : BankJob) : Nat → Nat → Except (Option (Nat × Nat)) (List (BitVec 32))
  | 0, _ => .error none
  | fuel + 1, n =>
    match s.fetchWord j (j.prog.toNat + 4 * n) with
    | .error e => .error e
    | .ok w => if crisumOp w == 0x0D then .ok [w] else (State.fetchProgram s j fuel (n + 1)).map (w :: ·)

/-- Every BLOOP pairs with a later BEND, at most two deep (14 R290). A BEND without a BLOOP pairs with none. -/
def loopsOk : Nat → List (BitVec 32) → Bool
  | depth, [] => depth == 0
  | depth, w :: l =>
    if crisumOp w == 0x0A then decide (depth < 2) && loopsOk (depth + 1) l
    else if crisumOp w == 0x0B then loopsOk (depth - 1) l
    else loopsOk depth l

/-- The fields of an argument block (14 R289). -/
def BankJob.withBlock (j : BankJob) (b : Nat) : BankJob :=
  { j with cva := bitsOf b 0 64, cval := BitVec.ofNat 32 (bitsOf b 64 32), ilen := bitsOf b 96 32, iva := bitsOf b 128 64
           istride := bitsOf b 192 64, oaddr := bitsOf b 256 64, ostride := bitsOf b 320 32, olen := bitsOf b 352 32
           ospace := bitsOf b 384 1 == 1, user := BitVec.ofNat 64 (bitsOf b 448 64) }

/-- Reserved bits, ospace and the alignments of an argument block (14 R289, R290). -/
def blockOk (j : BankJob) (b : Nat) : Bool :=
  bitsOf b 385 31 == 0 && (!j.ospace || j.core.isSome) && j.cva % 8 == 0 && j.ilen % 128 == 0 && j.istride % 0x10000 == 0

/-- The ranges that must translate, with what each needs (14 R290). -/
def BankJob.ranges (j : BankJob) : List (Need × Nat × Nat) :=
  (if j.cva = 0 then [] else [({ w := true }, j.cva, 8)]) ++ [({ w := true }, j.args.toNat + 0x34, 4)]
    ++ ((List.range j.count).map fun e => ({ r := true }, j.iva + e * j.istride, j.ilen))
    ++ (if j.ospace then [] else (List.range j.count).map fun e => ({ w := true }, j.oaddr + e * j.ostride, j.olen))

/-- The first failure to translate among some ranges. -/
def rangesFail (wins : Vector Window 8) (l : List (Need × Nat × Nat)) : Option (Nat × Nat) :=
  l.findSome? fun (need, va, n) => (probePieces va n).findSome? fun x =>
    match translate wins need x with
    | .error e => some (e, x)
    | .ok _ => none

/-- The command's checks: the job with its program and argument block, or why it runs on no engine (14 R290). -/
def State.checkJob (s : State) (j : BankJob) : State × Except (Option (Nat × Nat)) BankJob :=
  match s.fetchProgram j 1024 0 with
  | .error e => (s, .error e)
  | .ok ws =>
    if !loopsOk 0 ws || j.args.toNat % 64 != 0 then (s, .error none)
    else match s.readVa j.who j.wins { r := true } j.args.toNat 64 with
      | .error e => (s, .error (some e))
      | .ok (s, bs) =>
        let b := natOfBytes bs
        let j := j.withBlock b
        if !blockOk j b then (s, .error none)
        else match rangesFail j.wins j.ranges with
          | some e => (s, .error (some e))
          | none => (s, .ok { j with words := ws, started := true })

/-- Command memory that holds a program. -/
def commandMemory (ws : List (BitVec 32)) : Vector (BitVec 32) 1024 :=
  let a := ws.toArray
  Vector.ofFn fun i => a.getD i.val 0

/-- The engine at the start of a program: only its vector buffer is kept (14 R287, R291). -/
def Engine.load (x : Engine) (j : BankJob) (e : Nat) : Engine :=
  let mb := fun i => j.mb4.getD i 0
  { cmds := commandMemory j.words, running := true, vbuf := x.vbuf, job := some j.id
    g := #v[0, 0, 0, 0, 0, 0, 0, 0, mb 0, mb 1, mb 2, mb 3, j.user.setWidth 32, (j.user >>> 32).setWidth 32,
      BitVec.ofNat 32 e, BitVec.ofNat 32 (e - j.first)] }

/-- Fault codes (14 R299). -/
def bill : Nat := 1
/-- Segment not aligned or outside ilen. -/
def bsegr : Nat := 2
/-- Beat or scale byte beyond its segment. -/
def bspan : Nat := 3
/-- Vector buffer index outside 16 KiB, or BLDV misaligned. -/
def bvbuf : Nat := 4
/-- BOUT misaligned or beyond olen. -/
def boutr : Nat := 5
/-- An input piece that is not on a BANK page of the engine's own channel. -/
def bpage : Nat := 6
/-- Output or sigctr write violation. -/
def bviol : Nat := 7

/-- An engine that is free takes up the first accepted job that names it, once that has started: a program is loaded, a
broadcast fills the vector buffer at once (14 R301, 10 R223), with fuel for the jobs. The engine of
an excluded pseudo-channel faults BPAGE (25 R413). -/
def State.engineNext (s : State) (e : EngineId) : Nat → State
  | 0 => s
  | fuel + 1 =>
    if (s.engine e).job.isSome || (s.engine e).running then s
    else match s.jobs.find? fun j => j.has e.val && !j.endedOn e.val with
      | none => s
      | some j =>
        if !j.started then s
        else match j.vec with
          | none =>
            if Config.excluded e then
              State.engineNext ((s.logJob j j.prog.toNat 3 bpage).modJob j.id fun j => { j with ended := j.ended ++ [(e.val, bpage)] }) e fuel
            else s.modEngine e fun x => x.load j e.val
          | some o =>
            if Config.excluded e then
              State.engineNext ((s.logJob j j.prog.toNat 3 bpage).modJob j.id fun j => { j with ended := j.ended ++ [(e.val, bpage)] }) e fuel
            else
            let s := s.modEngine e fun x => { x with vbuf := x.vbuf.put 0 (j.got.span 0 (tdPacked o.td)) }
            State.engineNext (s.modJob j.id fun j => { j with ended := j.ended ++ [(e.val, 0)] }) e fuel

/-- Every engine of a list takes up what it may. -/
def State.enginesNext (s : State) (l : List Nat) : State :=
  l.foldl (fun s e => s.engineNext (Fin.ofNat 512 e) (s.jobs.length + 1)) s

/-- A job that runs on no engine: BANK, and it leaves the sequencer (10 R222, R223; 14 R290). -/
def State.refuseJob (s : State) (j : BankJob) (fail : Option (Nat × Nat)) : State :=
  let s := match fail with
    | some (cls, addr) => s.logJobViolation j cls addr
    | none => s
  let info := match j.vec with
    | some _ => 0x11 + (fail.map (·.1)).getD 0 * 256
    | none => 0x10
  let s := (s.trapJob j j.prog (BitVec.ofNat 64 info)).endJob j
  s.enginesNext j.engines

/-- BANK_PROGRAM_START of the subject's job: its program and argument block are read and checked and the program is loaded
into the set's engines, or the broadcast is made (14 R290, 10 R223). -/
def execBankProgramStart (s : State) : Host.Outcome State Fault Refusal :=
  .next (match s.job s.subj with
    | none => s
    | some j =>
      -- a migration holds the programs of its channels (21 R379)
      if j.started || s.outstanding (.job j.id) || j.engines.any (s.migChannels.contains ·) then s
      else match j.vec with
        | some _ =>
          match j.fail with
          | some f => s.refuseJob j (some f)
          | none => (s.modJob j.id fun j => { j with started := true }).enginesNext j.engines
        | none =>
          if s.jobHeld j then s
          else match s.checkJob j with
          | (s, .error f) => s.refuseJob j f
          | (t, .ok k) => if s.jobHeld k then s else (t.modJob j.id fun _ => k).enginesNext j.engines)

/-! ### Program completion -/

/-- The fault of the lowest-numbered faulting engine: its index in the set and its code (14 R300). -/
def BankJob.fault (j : BankJob) : Option (Nat × Nat) :=
  j.engines.findSome? fun e => (lookupKey e j.ended).bind fun c => if c = 0 then none else some (e - j.first, c)

/-- Accesses of a job's engines are on their way. -/
def State.jobBusy (s : State) (id : Nat) : Bool :=
  s.accesses.any fun a => match a.owner with | .engine _ j => j == id | _ => false

/-- The record of 8 bytes (10 R205, 14 R300). -/
def bankRecord (j : BankJob) : List Byte :=
  let (status, cls, first) := match j.fault with
    | some (e, c) => (4, c, e)
    | none => (0, 0, 0xFFFF)
  bytesOfNat 4 j.cval.toNat ++ bytesOfNat 1 status ++ bytesOfNat 1 cls ++ bytesOfNat 2 first

/-- A violation of the record's own write: the task ends (05 R101). -/
def State.jobFatal (s : State) (j : BankJob) (cls addr : Nat) : State :=
  let s := s.logJobViolation j cls addr
  match (if j.orphan.isSome then none else s.task j.task) with
  | none => s
  | some t =>
    match s.jobCore j with
    | some c => s.violationKill c cls addr (s.core c).pc
    | none => s.killTask t (.taskKilled t.va (BitVec.ofNat 64 causeFatal) 0 (BitVec.ofNat 64 cls) (BitVec.ofNat 64 addr) 0xFFFF)

/-- Every engine of a job has ended, its writes have performed, and earlier programs of its queue are complete (14 R300,
06 R110). -/
def State.jobDone (s : State) (j : BankJob) : Bool :=
  j.started && j.engines.all j.endedOn && !s.jobBusy j.id
    && !(s.jobs.any fun i => i.before j && i.vec.isNone)

/-- BANK_PROGRAM_COMPLETE of the subject's job (14 R300). -/
def execBankProgramComplete (s : State) : Host.Outcome State Fault Refusal :=
  .next (match s.job s.subj with
    | none => s
    | some j =>
      if !s.jobDone j then s
      else if j.cva = 0 then
        match j.fault with
        | some (e, code) => (s.trapJob j j.prog (BitVec.ofNat 64 (e * 256 + code))).endJob j
        | none => s.endJob j
      else match translate j.wins { w := true } j.cva with
        | .error cls => (s.jobFatal j cls j.cva).endJob j
        | .ok ia =>
          match s.performGlobal j.who 0 ia (.write (bankRecord j)) (.ok []) with
          | none => s
          | some (.error (cls, addr)) => (s.jobFatal j cls addr).endJob j
          | some (.ok (s, _)) => s.endJob j)

/-! ### The engine -/

/-- The current engine. -/
def State.eng (s : State) : Engine := s.engine s.curEng

/-- The current engine changed. -/
def State.modEng (s : State) (f : Engine → Engine) : State := s.modEngine s.curEng f

/-- The job that the current engine runs. -/
def State.engJob (s : State) : Option BankJob := s.eng.job.bind s.job

/-- An engine's program ends, with a fault code or 0; the engine takes up its next job (14 R298, R299, R301; 19 R355). -/
def State.engineEnd (s : State) (e : EngineId) (code : Nat) : State :=
  let x := s.engine e
  let s := s.modEngine e fun x => { x with running := false, job := none, cycles := 0 }
  match x.job.bind s.job with
  | none => s
  | some j =>
    let s := if code = 0 then s else s.logJob j j.prog.toNat 3 code
    let s := s.modJob j.id fun j => { j with ended := j.ended ++ [(e.val, code)], cycles := j.cycles + x.cycles }
    s.engineNext e (s.jobs.length + 1)

/-- A write of an engine has met a violation: BVIOL, even where the engine has halted since (14 R297, R299). -/
def State.engineViolation (s : State) (e id cls addr : Nat) : State :=
  match s.job id with
  | none => s
  | some j =>
    let s := s.logJobViolation j cls addr
    let x : EngineId := Fin.ofNat 512 e
    if (s.engine x).job == some id then s.engineEnd x bviol
    else if lookupKey e j.ended == some 0 then
      (s.logJob j j.prog.toNat 3 bviol).modJob id fun j => { j with ended := putKey e bviol j.ended }
    else s

/-- The current engine stops with a fault (14 R299). -/
def State.engFault (s : State) (code : Nat) : State := s.engineEnd s.curEng code

/-- The current engine goes on to its next command word after so many cycles; past the last word of command memory there
is none to go on to. -/
def State.engStep (s : State) (cycles : Nat) (f : Engine → Engine) : State :=
  s.modEng fun x => let y := f x; { y with ptr := x.ptr + 1, cycles := y.cycles + cycles }

/-- An engine register. -/
def Engine.reg (x : Engine) (g : BitVec 4) : BitVec 32 := x.g[g.toNat]

/-- An engine register written. -/
def Engine.setReg (x : Engine) (g : BitVec 4) (v : BitVec 32) : Engine := { x with g := x.g.set g.toNat v }

/-- One segment written. -/
def Engine.setSeg (x : Engine) (i : BitVec 2) (v : Seg) : Engine := { x with sg := x.sg.set i.toNat v }

/-- One accumulator set written. -/
def Engine.setAcc (x : Engine) (i : BitVec 2) (v : AccSet) : Engine := { x with acc := x.acc.set i.toNat v }

/-- BNOP (14 R292). -/
def execBnop (s : State) : Host.Outcome State Fault Refusal := .next (s.engStep 1 id)

/-- BSETR mode 0 (14 R293). -/
def execBsetrLo (g : BitVec 4) (imm : BitVec 16) (s : State) : Host.Outcome State Fault Refusal :=
  .next (s.engStep 1 fun x => x.setReg g (imm.setWidth 32))

/-- BSETR mode 1 (14 R293). -/
def execBsetrHi (g : BitVec 4) (imm : BitVec 16) (s : State) : Host.Outcome State Fault Refusal :=
  .next (s.engStep 1 fun x => x.setReg g (imm ++ (x.reg g).setWidth 16))

/-- BSETR mode 2 (14 R293). -/
def execBsetrAdd (g : BitVec 4) (imm : BitVec 16) (s : State) : Host.Outcome State Fault Refusal :=
  .next (s.engStep 1 fun x => x.setReg g (x.reg g + imm.signExtend 32))

/-- Input bytes of the current engine's program. -/
def State.inputLen (s : State) : Nat := (s.engJob.map (·.ilen)).getD 0

/-- BSEG (14 R293). -/
def execBseg (sg : BitVec 2) (gb gl : BitVec 4) (s : State) : Host.Outcome State Fault Refusal :=
  let b := (s.eng.reg gb).toNat
  let n := (s.eng.reg gl).toNat
  .next (if b % 128 ≠ 0 ∨ n % 128 ≠ 0 ∨ s.inputLen < b + n then s.engFault bsegr
    else s.engStep 1 fun x => x.setSeg sg { base := b, len := n, pos := 0 })

/-- n input bytes of the current engine from an offset on: every piece on a resident BANK page of its own channel and
partition, or BPAGE (14 R288, R291, R299). -/
def State.engInput (s : State) (off n : Nat) : Except Nat (List Byte) :=
  match s.engJob with
  | none => .error bpage
  | some j =>
    let va := j.iva + (s.curEng.val - j.first) * j.istride + off
    (cutAt 128 va n).foldl (fun acc (o, k) =>
      match acc with
      | .error e => .error e
      | .ok bs =>
        match translate j.wins { r := true } (va + o) with
        | .error _ => .error bpage
        | .ok ia =>
          if !s.onModule ia then .error bpage
          else match s.checkPage j.who (s.page (iaLocal ia)) with
            | .error _ => .error bpage
            | .ok p =>
              if !p.bank || p.channel != s.curEng.val then .error bpage
              else .ok (bs ++ s.hbm.bytes (p.key + iaLocal ia % p.size) k)) (.ok [])

/-- Columns of a beat (14 R295). -/
def beatCols : BTy → Nat
  | .bf16 => 1
  | .e4m3 | .e5m2 => 2
  | .b4 => 4

/-- Width in bits of a beat's elements. -/
def beatBits : BTy → Nat
  | .bf16 => 16
  | .e4m3 | .e5m2 => 8
  | .b4 => 4

/-- The value of a beat's element, with its block's scale byte for b4 (14 R295, R296). -/
def beatValue (ty : BTy) (scale code : Nat) : Num :=
  match ty with
  | .bf16 => FFmt.bf16.value false code
  | .e4m3 => FFmt.e4m3.value false code
  | .e5m2 => FFmt.e5m2.value false code
  | .b4 => b4Value scale code false (.ofNat 1)

/-- A lane after a beat: the exact group sum rounded once, then added with one rounding (14 R295). -/
def beatLane (ty : BTy) (xs : Array Num) (vs : List Num) (acc : BitVec 32) (l : Nat) : BitVec 32 :=
  let k := beatCols ty
  BitVec.ofNat 32 (accGroup acc.toNat (((List.range k).map fun q => xs.getD (l * k + q) .nan).zip vs))

/-- Scale bytes of a b4 beat from segment sg + 1, with the segment moved on; none for the other types (14 R295). -/
def State.beatScales (s : State) (ty : BTy) (sg : BitVec 2) (x : Engine) : Except Nat (Engine × List Byte) :=
  match ty with
  | .b4 =>
    let t := x.sg[(sg + 1).toNat]
    if t.len < t.pos + 8 then .error bspan
    else (s.engInput (t.base + t.pos) 8).map fun bs => (x.setSeg (sg + 1) { t with pos := t.pos + 8 }, bs)
  | _ => .ok (x, [])

/-- One beat: the engine after it, or its fault (14 R295). -/
def State.beat (s : State) (a sg : BitVec 2) (gv : BitVec 4) (ty : BTy) (x : Engine) : Except Nat Engine :=
  let t := x.sg[sg.toNat]
  let v := (x.reg gv).toNat
  let k := beatCols ty
  if t.len < t.pos + 128 then .error bspan
  else if 8192 < v + k then .error bvbuf
  else match s.engInput (t.base + t.pos) 128 with
    | .error e => .error e
    | .ok bs =>
      match s.beatScales ty sg (x.setSeg sg { t with pos := t.pos + 128 }) with
      | .error e => .error e
      | .ok (x, sc) =>
        let codes := elemsOfNat (beatBits ty) (1024 / beatBits ty) (natOfBytes bs)
        let scales := (sc.map (·.toNat)).toArray
        let xs := ((List.range codes.length).zipWith (fun i c => beatValue ty (scales.getD (i / 32) 0) c) codes).toArray
        let vs := (List.range k).map fun q => FFmt.bf16.value false (x.vbuf.nat (2 * (v + q)) 2)
        let old := x.acc[a.toNat]
        .ok ((x.setAcc a { old with lanes := Vector.ofFn fun l : Fin 64 => beatLane ty xs vs old.lanes[l] l.val }).setReg gv
          (x.reg gv + BitVec.ofNat 32 k))

/-- n beats; a fault stops at its beat. -/
def State.beats (s : State) (a sg : BitVec 2) (gv : BitVec 4) (ty : BTy) : Nat → Engine → Except Nat Engine
  | 0, x => .ok x
  | n + 1, x =>
    match s.beat a sg gv ty x with
    | .error e => .error e
    | .ok x => State.beats s a sg gv ty n x

/-- An accumulator set of zeros, tag f32. -/
def AccSet.zero : AccSet := {}

/-- n beats on the current engine, then the tag is f32 (14 R295). -/
def State.mac (s : State) (a sg : BitVec 2) (gv : BitVec 4) (ty : BTy) (n : Nat) (x : Engine) : State :=
  match s.beats a sg gv ty n x with
  | .error e => s.engFault e
  | .ok y => s.engStep n fun _ => y.setAcc a { y.acc[a.toNat] with tag := .f32 }

/-- BMAC (14 R295). -/
def execBmac (acc sg : BitVec 2) (gv : BitVec 4) (ty : BTy) (n1 : BitVec 10) (s : State) : Host.Outcome State Fault Refusal :=
  .next (s.mac acc sg gv ty (n1.toNat + 1) s.eng)

/-- BMACN: every lane is +0 first (14 R295). -/
def execBmacn (acc sg : BitVec 2) (gv : BitVec 4) (ty : BTy) (n1 : BitVec 10) (s : State) : Host.Outcome State Fault Refusal :=
  .next (s.mac acc sg gv ty (n1.toNat + 1) (s.eng.setAcc acc AccSet.zero))

/-- The sum of two lanes, one rounding (14 R296). -/
def laneAdd (x y : Nat) : Nat := FFmt.f32.res .rne false ((FFmt.f32.value false x).add false (FFmt.f32.value false y))

/-- BRED (14 R296). -/
def execBred (d t : BitVec 2) (s : State) : Host.Outcome State Fault Refusal :=
  .next (s.engStep 1 fun x => x.setAcc d
    { lanes := Vector.ofFn fun l : Fin 64 =>
        BitVec.ofNat 32 (laneAdd (x.acc[d.toNat].lanes[l]).toNat (x.acc[t.toNat].lanes[l]).toNat) })

/-- BRED.tree (14 R296, 04 R81). -/
def execBredTree (d : BitVec 2) (s : State) : Host.Outcome State Fault Refusal :=
  .next (s.engStep 1 fun x =>
    let r := (pairTree laneAdd 6 (x.acc[d.toNat].lanes.toList.map (·.toNat))).headD 0
    x.setAcc d { lanes := Vector.ofFn fun l : Fin 64 => if l.val = 0 then BitVec.ofNat 32 r else 0 })

/-- BSCL (14 R296). -/
def execBscl (acc : BitVec 2) (g : BitVec 4) (s : State) : Host.Outcome State Fault Refusal :=
  .next (s.engStep 1 fun x =>
    let f := FFmt.f32.value false (x.reg g).toNat
    let scale := fun (w : BitVec 32) => BitVec.ofNat 32 (FFmt.f32.res .rne false ((FFmt.f32.value false w.toNat).mul f))
    x.setAcc acc { lanes := x.acc[acc.toNat].lanes.map scale })

/-- The number format of a tag. -/
def tagFmt : BFmt → FFmt
  | .f32 => .f32
  | .bf16 => .bf16
  | .f16 => .f16

/-- BCVT (14 R296). -/
def execBcvt (acc : BitVec 2) (fmt : BFmt) (s : State) : Host.Outcome State Fault Refusal :=
  .next (s.engStep 1 fun x =>
    let f := tagFmt fmt
    let conv := fun (w : BitVec 32) =>
      BitVec.ofNat 32 (FFmt.f32.res .rne false (f.value false (f.res .rne false (FFmt.f32.value false w.toNat))))
    x.setAcc acc { lanes := x.acc[acc.toNat].lanes.map conv, tag := fmt })

/-- Bytes of a lane in a tag's format. -/
def tagBytes (t : BFmt) : Nat := (tagFmt t).width / 8

/-- The bytes of the first n lanes of a set (14 R297). -/
def AccSet.out (a : AccSet) (n : Nat) : List Byte :=
  (a.lanes.toList.take n).flatMap fun w =>
    bytesOfNat (tagBytes a.tag) ((tagFmt a.tag).res .rne false (FFmt.f32.value false w.toNat))

/-- Where output bytes stand: pieces of the engine's output, in the issuing core's scratchpad or in global memory
(14 R291, R297). -/
def BankJob.outPieces (j : BankJob) (core : Option CoreId) (e off n : Nat) : List (Target × Nat × Nat) :=
  let a := j.oaddr + (e - j.first) * j.ostride + off
  match j.ospace, core with
  | true, some c => [(.scratch c a, 0, n)]
  | _, _ => (cutAt 128 a n).map fun (o, k) =>
      (match translate j.wins { w := true } (a + o) with
        | .ok ia => .global ia
        | .error e => .bad e (a + o), o, k)

/-- The owner of an engine's accesses. -/
def engOwner (e : EngineId) (j : BankJob) : Owner := .engine e.val j.id

/-- BOUT into the scratchpad of a core whose die is shed holds (14 R303). -/
def State.outHeld (s : State) (j : BankJob) : Bool :=
  match j.ospace, j.core with
  | true, some c => (s.core c).shed
  | _, _ => false

/-- BOUT writes of an engine, of any of its programs, are on their way (14 R298). -/
def State.outputs (s : State) (e : EngineId) : Bool :=
  s.accesses.any fun a => match a.owner, a.op with
    | .engine x _, .write _ => x == e.val
    | _, _ => false

/-- BOUT (14 R297). -/
def execBout (acc : BitVec 2) (go : BitVec 4) (n1 : BitVec 6) (s : State) : Host.Outcome State Fault Refusal :=
  let a := s.eng.acc[acc.toNat]
  let n := (n1.toNat + 1) * tagBytes a.tag
  let off := (s.eng.reg go).toNat
  .next (match s.engJob with
    | none => s.engFault boutr
    | some j =>
      if off % tagBytes a.tag ≠ 0 ∨ j.olen < off + n then s.engFault boutr
      else if s.outHeld j then s
      else (s.send (writeAccesses (engOwner s.curEng j) j.who (Mem.put [] 0 (a.out (n1.toNat + 1)))
          (j.outPieces j.core s.curEng.val off n))).engStep 1 fun x => x.setReg go (x.reg go + BitVec.ofNat 32 n))

/-- BCLR (14 R296). -/
def execBclr (mask : BitVec 4) (s : State) : Host.Outcome State Fault Refusal :=
  .next (s.engStep 1 fun x => { x with acc := Vector.ofFn fun i : Fin 4 => if mask.getLsbD i.val then AccSet.zero else x.acc[i] })

/-- The word after the BEND that matches the BLOOP before word n, with fuel (14 R294). -/
def matchingEnd (ws : Vector (BitVec 32) 1024) : Nat → Nat → Nat → Nat
  | 0, n, _ => n
  | fuel + 1, n, depth =>
    let op := crisumOp (ws[n]?.getD 0)
    if op == 0x0A then matchingEnd ws fuel (n + 1) (depth + 1)
    else if op == 0x0B then (if depth = 0 then n + 1 else matchingEnd ws fuel (n + 1) (depth - 1))
    else matchingEnd ws fuel (n + 1) depth

/-- BLOOP (14 R294). -/
def execBloop (g : BitVec 4) (s : State) : Host.Outcome State Fault Refusal :=
  .next (s.modEng fun x =>
    let n := (x.reg g).toNat
    if n = 0 then { x with ptr := matchingEnd x.cmds 1024 (x.ptr + 1) 0 }
    else { x with ptr := x.ptr + 1, loops := (x.ptr + 1, n) :: x.loops })

/-- BEND (14 R294); where no loop runs it goes on to the next word. -/
def execBend (s : State) : Host.Outcome State Fault Refusal :=
  .next (s.modEng fun x =>
    match x.loops with
    | (start, n) :: rest => if n ≤ 1 then { x with ptr := x.ptr + 1, loops := rest } else { x with ptr := start, loops := (start, n - 1) :: rest }
    | [] => { x with ptr := x.ptr + 1 })

/-- BSIG: waits for the engine's output, then adds to sigctr with release order (14 R298). -/
def execBsig (g : BitVec 4) (s : State) : Host.Outcome State Fault Refusal :=
  .next (match s.engJob with
    | none => s.engFault bviol
    | some j =>
      if s.outputs s.curEng then s
      else
        let va := j.args.toNat + 0x34
        match translate j.wins { w := true } va with
        | .error e => (s.logJobViolation j e va).engFault bviol
        | .ok ia =>
          let a : Access :=
            { owner := engOwner s.curEng j, target := .global ia, op := .amo 0 4 (s.eng.reg g).toNat none, whole := true
              requester := j.who, va := va }
          (s.send [a]).engStep 1 id)

/-- BHALT ends the program on the engine (14 R298). -/
def execBhalt (s : State) : Host.Outcome State Fault Refusal :=
  .next ((s.engStep 1 id).engFault 0)

/-- BLDV (14 R298). -/
def execBldv (gv : BitVec 4) (sg : BitVec 2) (n1 : BitVec 10) (s : State) : Host.Outcome State Fault Refusal :=
  let n := n1.toNat + 1
  let v := (s.eng.reg gv).toNat
  let t := s.eng.sg[sg.toNat]
  .next (if v % 128 ≠ 0 ∨ 16384 < v + 128 * n then s.engFault bvbuf
    else if t.len < t.pos + 128 * n then s.engFault bspan
    else match s.engInput (t.base + t.pos) (128 * n) with
      | .error e => s.engFault e
      | .ok bs =>
        s.engStep n fun x =>
          let y := (x.setSeg sg { t with pos := t.pos + 128 * n }).setReg gv (x.reg gv + BitVec.ofNat 32 (128 * n))
          { y with vbuf := x.vbuf.put v bs })

/-- A word that is no command: BILL (14 R292, R299). -/
def execCrisumUnassigned (_w : BitVec 32) (s : State) : Host.Outcome State Fault Refusal := .next (s.engFault bill)

/-- The command word that an engine reaches (14 R291). -/
def Engine.word (x : Engine) : BitVec 32 := x.cmds[x.ptr]?.getD 0

/-- An engine has a command to run. -/
def Engine.runs (x : Engine) : Bool := x.running && decide (x.ptr < 1024)

end Sys2Proof.Machine
end

