-- ==== Sys2Proof/Machine/Decoder.lean ====
section
/-! DEFINITION. The decoder: weight streams, dictionaries and the slots of h15 (11 R235-R241). The dec queue carries out
one command after the other (log 33). -/

namespace Sys2Proof.Machine

/-! ### Tokens -/

/-- What ends the decoding of a chunk: the end token, a decode failure (false) or RATIO (true). -/
abbrev Verdict := Except Bool Unit

/-- Bytes join a chunk's output, held newest first, one at a time, up to a limit (11 R239, R240). -/
def pushBytes (limit : Nat) : List Byte → List Byte → List Byte × Bool
  | out, [] => (out, true)
  | out, b :: bs => if limit ≤ out.length then (out, false) else pushBytes limit (b :: out) bs

/-- A back-reference copies bytes one at a time from d back (11 R236). -/
def copyBack (limit d : Nat) : Nat → List Byte → List Byte × Bool
  | 0, out => (out, true)
  | n + 1, out => if limit ≤ out.length then (out, false) else copyBack limit d n (out.getD (d - 1) 0 :: out)

/-- The tokens of a chunk, with fuel for them: the output, newest byte first, and how it ended (11 R236, R239, R240). -/
def decodeTokens (dict : List (List Byte)) (limit : Nat) (ratio : Bool) : Nat → List Byte → List Byte → List Byte × Verdict
  | 0, _, out => (out, .error false)
  | _ + 1, [], out => (out, .error false)
  | fuel + 1, b :: l, out =>
    let n := b.toNat % 64
    match b.toNat / 64 with
    | 0 =>
      if l.length < n + 1 then (out, .error false)
      else match pushBytes limit out (l.take (n + 1)) with
        | (out, true) => decodeTokens dict limit ratio fuel (l.drop (n + 1)) out
        | (out, false) => (out, .error ratio)
    | 1 =>
      match l with
      | x :: y :: l =>
        let w := x.toNat + 256 * y.toNat
        if w / 4096 ≠ 0 ∨ out.length < w % 4096 + 1 then (out, .error false)
        else match copyBack limit (w % 4096 + 1) (n + 3) out with
          | (out, true) => decodeTokens dict limit ratio fuel l out
          | (out, false) => (out, .error ratio)
      | _ => (out, .error false)
    | 2 =>
      match l with
      | x :: l =>
        match dict.getD x.toNat [] with
        | [] => (out, .error false)
        | e =>
          match pushBytes limit out (List.replicate (n + 1) e).flatten with
          | (out, true) => decodeTokens dict limit ratio fuel l out
          | (out, false) => (out, .error ratio)
      | [] => (out, .error false)
    | _ => (out, if n = 0 then .ok () else .error false)

/-- A chunk's raw bytes and how it ended: at most q times its length and at most 4,096 of them (11 R238-R240). -/
def decodeChunk (dict : List (List Byte)) (q : Nat) (l : List Byte) : List Byte × Verdict :=
  let most := q * l.length
  let (out, v) := decodeTokens dict (min most 4096) (decide (most ≤ 4096)) (l.length + 1) l []
  (out.reverse, v)

/-! ### Dictionaries -/

/-- A dictionary entry: its data, empty where absent (11 R237). A length byte above 15 names a free length (log 6). -/
def dictEntry (bs : List Byte) : List Byte :=
  let n := (bs.headD 0).toNat
  (bs.drop 1).take (if n ≤ 15 then n else Config.freeNat n % 16)

/-- The dictionary in 4,096 bytes (11 R237). -/
def dictOf (bs : List Byte) : List (List Byte) := (List.range 256).map fun i => dictEntry ((bs.drop (16 * i)).take 16)

/-- The active dictionary (11 R237). -/
def Xs.dict (x : Xs) : List (List Byte) := if x.gen then x.dict1 else x.dict0

/-- DDICT loads the inactive dictionary; every earlier DECOMP being complete, the generation bit flips (11 R241). -/
def Xs.load (x : Xs) (d : List (List Byte)) : Xs :=
  if x.gen then { x with dict0 := d, gen := false } else { x with dict1 := d, gen := true }

/-- DDICT starts: it reads its tensor. -/
def State.ddictStart (s : State) (c : CoreId) (k : Cmd) (o : Opnd) : State :=
  (s.modCmd c k.id fun k => { k with phase := .reading }).send
    (readAccesses (cmdOwner c .dec k.id) (.core c) (s.pieces c k.wins { r := true } o))

/-- DDICT has read its tensor. -/
def State.ddictLoad (s : State) (c : CoreId) (k : Cmd) : State :=
  (s.modCore c fun x => { x with xs := x.xs.load (dictOf (k.got.span 0 4096)) }).setPerformed c k.id

/-! ### Streams -/

/-- The place of a stream byte from the tensor's base: element o is (o div cols, o mod cols) (11 R238). -/
def streamOff (d : TdWord) (o : Nat) : Nat := o / tdCols d * tdStride d + o % tdCols d

/-- The VA or local address of a stream byte (11 R239). -/
def streamAddr (d : TdWord) (o : Nat) : Nat := tdPlaceBits d % 2 ^ 48 + streamOff d o

/-- Where stream bytes [o, o + n) stand. -/
def State.streamPieces (s : State) (c : CoreId) (k : Cmd) (d : TdWord) (o n : Nat) : List (Target × Nat × Nat) :=
  (cutAt (tdCols d) o n).flatMap fun (i, m) => s.runPieces c k.wins { r := true } { td := d } false (streamOff d (o + i)) (o + i) m

/-- The decoder stops the command: a decode failure, or RATIO (11 R239, R240). -/
def State.decodeFail (s : State) (c : CoreId) (k : Cmd) (ratio : Bool) (addr : Nat) : State :=
  let s := s.failCmd c .dec k 3 0 addr
  match ratio, k.batch with
  | true, some (cb, num, index) =>
    (s.modCore c fun x => { x with q := x.q.modBatch cb num fun b => { b with ratio := true } }).pendAsync c 0x12
      (Config.commandName cb num index) (BitVec.ofNat 64 addr)
  | _, _ => s

/-- Offsets of a chunk that R235 allows. -/
def chunkOk (d : TdWord) (lo hi : Nat) : Bool := decide (lo < hi) && decide (hi ≤ tdCount d)

/-- The bounds of chunk j. -/
def chunkAt (l : List Nat) (j : Nat) : Nat × Nat := (l.getD j 0, l.getD (j + 1) 0)

/-- Two handles stand for the same slots. -/
def Handle.sameSlots (x h : Handle) : Bool := x.base == h.base && x.slotBytes == h.slotBytes && x.slotCount == h.slotCount

/-- The FIFO that a DECOMP fills: the slots that h15 held at its issue (03 R55), with h15's indices as they stand while it still holds
these. -/
def Core.fifo (c : Core) (k : Cmd) : Option Handle :=
  match k.kind with
  | .decomp _ _ _ _ h => some (match c.handles[15] with | some x => if x.sameSlots h then x else h | none => h)
  | _ => none

/-- The producer index of a DECOMP's FIFO moves over a slot (11 R238). -/
def Core.fillSlot (c : Core) (k : Cmd) : Core :=
  match k.kind with
  | .decomp d i e q h =>
    match c.handles[15] with
    | some x =>
      if x.sameSlots h then { c with handles := c.handles.set 15 (some (x.advance true 1)) }
      else c.modCmd k.id fun y => { y with kind := .decomp d i e q (h.advance true 1) }
    | none => c.modCmd k.id fun y => { y with kind := .decomp d i e q (h.advance true 1) }
  | _ => c

/-- The decoder takes up the command's next chunk, or a chunk that a pre-emption left half written, or the command ends: a partly filled slot is advanced over
(11 R238). -/
def State.chunkStart (s : State) (c : CoreId) (k : Cmd) (d : TdWord) (l : List Nat) : State :=
  if k.step + 1 < l.length then
    let (lo, hi) := chunkAt l k.step
    if !chunkOk d lo hi then s.decodeFail c k false (streamAddr d lo)
    else
      (s.modCmd c k.id fun k => { k with phase := .reading, got := [] }).send
        (readAccesses (cmdOwner c .dec k.id) (.core c) (s.streamPieces c k d lo (hi - lo)))
  else
    let s := match (s.core c).fifo k with
      | some h => if k.bytes % h.slotBytes = 0 then s else s.modCore c (·.fillSlot k)
      | none => s
    s.setPerformed c k.id

/-- Decoded bytes go to h15's slots as far as slots are free; true where all of them did (11 R238), with fuel for the
slots. A slot that the core may not be written to is the command's violation. -/
def State.fillSlots (s : State) (c : CoreId) (id : Nat) : Nat → List Byte → State × Bool
  | 0, bs => (s, bs.isEmpty)
  | fuel + 1, bs =>
    match bs, s.cmdBy c id, (s.cmdBy c id).bind (s.core c).fifo with
    | [], _, _ => (s, true)
    | _, some k, some h =>
      let at0 := k.bytes % h.slotBytes
      if at0 = 0 ∧ h.free = 0 then (s, false)
      else
        let n := min bs.length (h.slotBytes - at0)
        let a := h.slotAddr h.prod + at0
        match (s.core c).scratchCheck a n with
        | some cls => (s.failCmd c .dec k 1 cls a, false)
        | none =>
          let s := s.modCore c fun x => x.engineWrite (some (.dec, id)) a (bs.take n)
          let s := s.modCmd c id fun k => { k with bytes := k.bytes + n, sub := k.sub + n }
          let s := if at0 + n < h.slotBytes then s else s.modCore c (·.fillSlot k)
          State.fillSlots s c id fuel (bs.drop n)
    | _, _, _ => (s, true)

/-- The chunk that has been read is decoded into the slots (11 R238-R240). -/
def State.chunkFill (s : State) (c : CoreId) (k : Cmd) (d : TdWord) (l : List Nat) (q : Nat) : State :=
  let (lo, hi) := chunkAt l k.step
  let (out, v) := decodeChunk (s.core c).xs.dict q (k.got.span lo (hi - lo))
  let (s, all) := s.fillSlots c k.id 10 (out.drop k.sub)
  match s.cmdBy c k.id with
  | none => s
  | some k =>
    if k.phase == .performed then s
    else if !all then s.modCmd c k.id fun k => { k with phase := .suspended }
    else match v with
      | .error ratio => s.decodeFail c k ratio (streamAddr d lo)
      | .ok () =>
        if out.length < 4096 ∧ k.step + 2 < l.length then s.decodeFail c k false (streamAddr d lo)
        else
          let s := s.modCmd c k.id fun k => { k with step := k.step + 1, got := [], sub := 0 }
          match s.cmdBy c k.id with
          | some k => s.chunkStart c k d l
          | none => s

/-- DECOMP starts: the index entries are read first where they were not read at issue (11 R238). -/
def State.decompStart (s : State) (c : CoreId) (k : Cmd) (d i : TdWord) (entries : Option (List Nat)) : State :=
  match entries with
  | some l => s.chunkStart c k d l
  | none =>
    (s.modCmd c k.id fun k => { k with phase := .reading }).send
      (readAccesses (cmdOwner c .dec k.id) (.core c) (s.pieces c k.wins { r := true } { td := i }))

/-- What DECOMP read has arrived: index entries, or a chunk. -/
def State.decompRead (s : State) (c : CoreId) (k : Cmd) (d i : TdWord) (entries : Option (List Nat)) (q : Nat) (h : Handle) : State :=
  match entries with
  | some l => s.chunkFill c k d l q
  | none =>
    let l := elemsOfNat 32 (tdCount i) (natOfBytes (k.got.span 0 (tdPacked i)))
    let s := s.modCmd c k.id fun k => { k with kind := .decomp d i (some l) q h, got := [] }
    s.chunkStart c k d l

/-- DECODER_RESUME on the current core: a paused decoder goes on when h15 has a free slot (11 R238). -/
def execDecoderResume (s : State) : Host.Outcome State Fault Refusal :=
  let c := s.cur
  .next (if s.asleep c then s else match (s.core c).q.dec.find? fun k => k.phase == .suspended with
    | none => s
    | some k =>
      match k.kind, (s.core c).fifo k with
      | .decomp d _ (some l) q _, some h => if h.free = 0 then s else s.chunkFill c k d l q
      | _, _ => s)

end Sys2Proof.Machine
end

