-- ==== Sys2Proof/Machine/Engine.lean ====
section
/-! DEFINITION. The events of the queues, of memory and of the arrays: commands start, accesses perform, commands and
batches complete (06 R103-R116; 10 R203-R217; 12 R248-R264; 05 R89). -/

namespace Sys2Proof.Machine

/-! ### Starting commands -/

/-- A command that ends without running because its batch stopped, or that reports what it met at issue (10 R206). True
where that settles it. -/
def State.settleEarly (s : State) (c : CoreId) (q : QueueId) (k : Cmd) : State × Bool :=
  if (s.core c).stopped k then (s.setPerformed c k.id, true)
  else match k.fail with
    | some (st, cls, addr) => (s.failCmd c q k st cls addr, true)
    | none => (s, false)

/-- A joining entry performs when every command before it in every named queue is complete (06 R109). -/
def State.fenceStart (s : State) (c : CoreId) (k : Cmd) (id : Nat) : State :=
  if (s.core c).fenceMet id then s.setPerformed c k.id else s

/-- The status, class, first command of a batch's record (10 R205). -/
def Batch.status (b : Batch) : Nat × Nat × Nat :=
  match b.fail with
  | none => (0, 0, 0xFFFF)
  | some (st, cls, first, _) => (st, if st == 1 then cls else 0, first)

/-- Bytes 0x00-0x07 of a completion record (10 R205). -/
def Batch.record (b : Batch) (value : BitVec 32) : List Byte :=
  let (st, cls, first) := b.status
  bytesOfNat 4 value.toNat ++ bytesOfNat 1 st ++ bytesOfNat 1 cls ++ bytesOfNat 2 first

/-- Bytes 0x08-0x1F of a completion record (10 R205). -/
def Batch.counters (b : Batch) : List Byte :=
  bytesOfNat 8 b.bytes ++ bytesOfNat 4 b.sat ++ bytesOfNat 4 b.flz ++ bytesOfNat 4 b.nan ++ bytesOfNat 4 b.count

/-- A completion record sets out: the counters first, the value word after them (10 R205). -/
def State.recordStart (s : State) (c : CoreId) (q : QueueId) (k : Cmd) (b : Batch) (va : Nat) (value : BitVec 32) (counters : Bool) :
    State :=
  if va % (if counters then 32 else 8) ≠ 0 then s.failCmd c q k 1 clsAlign va
  else match translate k.wins { w := true } va with
    | .error cls => s.failCmd c q k 1 cls va
    | .ok ia =>
      let a : Access :=
        { owner := cmdOwner c q k.id, target := .global ia, op := .write (b.record value), whole := true, requester := .core c, va := va }
      let l := if counters then
          [{ a with target := .global (ia + 8), op := .write b.counters }, { a with after := true }]
        else [a]
      (s.modCmd c k.id fun k => { k with phase := .writing }).send l

/-- CBATCH at the head of its queue: once its batch's commands are complete, its record is written (10 R205, 06 R110). -/
def State.cbatchStart (s : State) (c : CoreId) (q : QueueId) (k : Cmd) (num : Nat) (va : Option Word) (value : BitVec 32)
    (counters : Bool) : State :=
  match (s.core c).q.batch (q == .cb) num with
  | none => s.setPerformed c k.id
  | some b =>
    if b.complete ≠ b.count then s
    else match va with
      | none => s.setPerformed c k.id
      | some a => s.recordStart c q k b a.toNat value counters

/-- A copy queue starts its next command (06 R107, R109, R110, R114; 10 R203-R224). -/
def State.startCopy (s : State) (c : CoreId) (q : QueueId) (k : Cmd) : State :=
  let before := earlier ((s.core c).q.get q) k
  match k.kind with
  | .qfence id => s.fenceStart c k id
  | .cbatch num va value counters => if before.isEmpty then s.cbatchStart c q k num va value counters else s
  | kind =>
    if !s.mayStart c before k then s
    else match s.settleEarly c q k with
      | (s, true) => s
      | (s, false) =>
        match kind with
        | .copy _ _ _ _ | .copyh _ _ _ | .gather _ _ _ | .scatter _ _ _ => s.moveStart c q k
        | .amo _ _ _ _ _ _ | .amocas _ _ _ _ _ => s.amoStart c q k
        | .stflush l => s.flushStart c q k l
        | .colstep g step => s.colstepRun c q k g step
        | _ => s.setPerformed c k.id

/-- An array command starts under its core's grant, and its first pass with it: that of a chain command takes the check plane (12 R248,
R249; 13 R279, R284). -/
def State.arrayStart (s : State) (c : CoreId) (k : Cmd) : State :=
  if !s.granted c then s
  else
    let s := s.modCluster (clusterOf c) fun x => { x with grant := x.grant.map fun g => { g with cmdsLeft := g.cmdsLeft - 1 } }
    let s := s.modCmd c k.id fun k => { k with phase := .reading }
    let s := match k.kind with
      | .chain _ _ _ _ _ | .chgrad _ _ _ _ _ => s.modCore c fun x => { x with mx := { x.mx with chk := false } }
      | _ => s
    s.stepStarts c

/-- The m queue starts its head, each command once the one before it is complete (12 R252; 13 R276). -/
def State.startMatrix (s : State) (c : CoreId) (k : Cmd) : State :=
  match k.kind with
  | .qfence id => s.fenceStart c k id
  | kind =>
    if !(s.core c).slotsFilled k then s
    else match kind with
      | .mma a b _ _ tb ta true => s.mmarFetch c k a b tb ta
      | .mma _ _ _ _ _ _ false | .chain _ _ _ _ _ | .chgrad _ _ _ _ _ => s.arrayStart c k
      | .mzero => s.mzeroRun c k
      | .macc o =>
        (s.modCmd c k.id fun k => { k with phase := .reading }).send
          (readAccesses (cmdOwner c .m k.id) (.core c) (s.pieces c k.wins { r := true } o))
      | .mdrain o => s.mdrainRun c k o
      | .chend p o => s.chendRun c k p o
      | _ => s.setPerformed c k.id

/-- The decoder starts the dec queue's next command, each once the one before it is complete (11 R238, R241; log 33). -/
def State.startDecoder (s : State) (c : CoreId) (k : Cmd) : State :=
  match k.kind with
  | .qfence id => s.fenceStart c k id
  | kind =>
    match s.settleEarly c .dec k with
    | (s, true) => s
    | (s, false) =>
      match kind with
      | .decomp d i entries _ _ => s.decompStart c k d i entries
      | .ddict o => s.ddictStart c k o
      | _ => s.setPerformed c k.id

/-- The next command of a queue that has not started, where its queue lets it start now: the m and dec queues hold it until
those before it have performed. -/
def Core.nextCmd (c : Core) (q : QueueId) : Option Cmd :=
  match q with
  | .ca | .cb | .bank => (c.q.get q).find? fun k => k.phase == .queued
  | .m | .dec => ((c.q.get q).find? fun k => k.phase != .performed).filter fun k => k.phase == .queued

/-- QUEUE_COMMAND_START on the current core (06 R107). A bank-queue command is started by its acceptance; here only a
joining entry of that queue is. While the queues start nothing an MREL marker that has come to the head still performs (28 R436). -/
def execQueueCommandStart (q : QueueId) (s : State) : Host.Outcome State Fault Refusal :=
  let c := s.cur
  .next (match (s.core c).nextCmd q with
    | none => s
    | some k =>
      if s.asleep c && k.kind != .mrel then s
      else match q with
      | .ca | .cb => (s.startCopy c q k).refreshArray (clusterOf c)
      | .m => (s.startMatrix c k).refreshArray (clusterOf c)
      | .dec => s.startDecoder c k
      | .bank => match k.kind with | .qfence id => s.fenceStart c k id | _ => s)

/-! ### Accesses perform -/

/-- A command that writes bytes of a copy's destination. -/
def CmdKind.isMove : CmdKind → Bool
  | .copy _ _ _ _ | .copyh _ _ _ | .gather _ _ _ | .scatter _ _ _ => true
  | _ => false

/-- Every access of a command's current phase has performed: what follows. -/
def State.phaseDone (s : State) (c : CoreId) (q : QueueId) (k : Cmd) : State :=
  match k.phase, k.kind with
  | .reading, .copy _ _ _ _ | .reading, .copyh _ _ _ | .reading, .gather _ _ _ | .reading, .scatter _ _ _ => s.moveWrite c q k
  | .reading, .amo _ _ _ _ _ _ | .reading, .amocas _ _ _ _ _ => s.amoResult c q k
  | .reading, .macc o => s.maccLoad c k o
  | .reading, .decomp d i entries n h => s.decompRead c k d i entries n h
  | .reading, .ddict _ => s.ddictLoad c k
  | .writing, _ => s.setPerformed c k.id
  | _, _ => s

/-- The destination bytes that a copy command writes are charged as it writes them (20 R368). -/
def State.chargeCopy (s : State) (c : CoreId) (id : Nat) (op : AccessOp) : State :=
  match op, s.cmdBy c id with
  | .write w, some k => if k.kind.isMove then s.charge (s.core c).ctl.region.toNat 0xB0 w.length else s
  | _, _ => s

/-- What an access returned reaches its owner. -/
def State.deliver (s : State) (o : Owner) (op : AccessOp) (bs : List Byte) : State :=
  match o with
  | .cmd c q id =>
    let s := (s.chargeCopy c id op).modCmd c id fun k =>
      match op with
      | .read _ put => { k with got := k.got.put put bs }
      | .amo _ _ _ _ => { k with got := k.got.put 0 bs }
      | .write w => { k with bytes := if k.kind.isMove then k.bytes + w.length else k.bytes }
      | .flush _ _ => k
    if s.outstanding o then s
    else match s.cmdBy c id with
      | some k => s.phaseDone c q k
      | none => s
  | .job id =>
    match op with
    | .read _ put => s.modJob id fun j => { j with got := j.got.put put bs }
    | _ => s
  | _ => s

/-- An access met a violation (05 R101; 10 R206; 12 R264; 14 R297; 10 R223). -/
def State.accessFail (s : State) (a : Access) (cls addr : Nat) : State :=
  match a.owner with
  | .cmd c q id =>
    match s.cmdBy c id with
    | none => s
    | some k =>
      match k.kind with
      | .mma _ _ _ _ _ _ true =>
        if cls == clsHibernating then (s.logViolation c cls addr).suspendMmar c k cls a else s.failCmd c q k 1 cls addr
      | _ => s.failCmd c q k 1 cls addr
  | .engine e id => s.engineViolation e id cls addr
  | .job id => (s.dropOwner a.owner).modJob id fun j => { j with fail := j.fail.or (some (cls, addr)) }
  | .lease _ core task _ => (s.undoEvent a).logDropped core task cls addr
  | _ => s

/-- R108: a copy into a slot does not write while an earlier m-queue command of its core has still to read the slot. -/
def State.slotHeld (s : State) (a : Access) : Bool :=
  match a.owner, a.target, a.op with
  | .cmd c _ id, .operand _ side addr, .write _ =>
    match s.cmdBy c id with
    | some k =>
      let slot := addr / (if side then 2048 else 32768)
      (s.core c).q.m.any fun x => decide (x.issue < k.issue) && x.phase != .performed && x.kind.slots.contains slot
    | none => false
  | _, _, _ => false

/-- Bytes [off, off + len) of the access at place k perform, all of it where it is one piece. -/
def State.performPending (s : State) (k off len : Nat) (ans : PeerAnswer) : State :=
  match s.accesses[k]? with
  | none => s
  | some a =>
    let (off, len) := if a.whole then (0, a.op.size) else (off, len)
    if len = 0 ∨ a.op.size < off + len ∨ !s.mayPerform k a ∨ s.slotHeld a then s
    else
      let p := a.part off len
      match s.performAccess p ans with
      | none => s
      | some (.error (cls, addr)) => ({ s with accesses := s.accesses.eraseIdx k }).accessFail a cls addr
      | some (.ok (t, bs)) =>
        ({ t with accesses := t.accesses.take k ++ a.rest off len ++ t.accesses.drop (k + 1) }).deliver a.owner p.op bs

/-- The cluster whose arbiter an owner's progress concerns. -/
def ownerCluster (o : Owner) : Option ClusterId :=
  match o with
  | .cmd c _ _ => some (clusterOf c)
  | _ => none

/-- A request from outside the module performs within one line, where its page admits it; one of the supervisor complex that fails is
logged, one of a peer is answered with the error (21 R375; 05 R101, R102; 06 R104). -/
def State.performIncoming (s : State) (who : Requester) (ia : Nat) (req : Incoming) : State :=
  let op : AccessOp := match req with
    | .read n => .read n 0
    | .write bs => .write bs
    | .amo o w v => .amo o (amoBytes w) (v.toNat % 2 ^ (8 * amoBytes w)) none
  let aligned := match op with | .amo _ w _ _ => ia % w == 0 | _ => decide (ia % 128 + op.size ≤ 128)
  if !aligned || !s.onModule ia then s
  else match s.performGlobal who 0 ia op (.ok []) with
    | some (.ok (s, _)) => s
    | some (.error (cls, addr)) => if who == .module then s.logModuleViolation cls addr 0 else s.missed cls addr
    | none => s

/-- The module answers requests of its peers: from QUIESCE until REJOIN is over it answers HIBERNATING (23 R401), and without power it
answers nothing. -/
def State.answersPeers (s : State) : Bool :=
  s.powered && match s.hib.state with
  | .run | .warn => true
  | _ => false

/-- A peer's home recalls the granules that this module's stashes hold of one of its lines: their dirty bytes leave for it, and a write
there discards them and overtakes what STFLUSHes captured (05 R90). -/
def State.peerRecall (s : State) (ia : Nat) (write : Bool) : State :=
  let line := ia / 128 * 128
  let s := s.recall none line write
  if write then s.overtake none line 128 else s

/-- HOME_ACCESS (06 R104). -/
def execHomeAccess (a : HomeAccess) (s : State) : Host.Outcome State Fault Refusal :=
  .next (match a with
    | .pending k off len ans =>
      let o := (s.accesses[k]?).map (·.owner)
      let s := s.performPending k off len ans
      match o.bind ownerCluster with
      | some cl => s.refreshArray cl
      | none => s
    | .fromPeer ia req => if s.answersPeers then s.performIncoming .peer ia.toNat req else s
    | .fromSupervisor ia req => s.supervise fun s => s.performIncoming .module ia.toNat req
    | .peerRecall ia write => if s.onModule ia.toNat || !s.answersPeers then s else s.peerRecall ia.toNat write)

/-! ### Completion -/

/-- What a command reports to its batch (10 R204-R206). -/
def State.joinBatch (s : State) (c : CoreId) (k : Cmd) : State :=
  match k.batch with
  | none => s
  | some (cb, num, index) =>
    let s := s.modCore c fun x => { x with q := x.q.modBatch cb num fun b => b.add k }
    match badIndex k.kind with
    | some j =>
      if k.step = 0 ∨ k.fail.isSome then s
      else
        let addr := (BitVec.ofInt 64 j).toNat
        (s.logCore c addr 8 0).modCore c fun x => { x with q := x.q.modBatch cb num fun b => b.noteFail index 2 0 addr }
    | none => s

/-- An earlier reservation on the same handle has not advanced prod (10 R213, R214). -/
def Core.reservedBefore (c : Core) (k : Cmd) : Bool :=
  match k.kind with
  | .copyh h _ _ => (c.q.ca ++ c.q.cb).any fun x => decide (x.id < k.id) && (match x.kind with | .copyh g _ _ => g == h | _ => false)
  | _ => false

/-- A complete COPYH's turn: prod advances over its slot (10 R213, R214). -/
def Core.takeSlot (c : Core) (k : Cmd) : Core :=
  match k.kind with
  | .copyh h _ _ => { c with handles := c.handles.set h.toNat (c.handles[h.toNat].map fun x => x.advance true 1) }
  | _ => c

/-- A command that has performed leaves its queue (10 R203, R205, R213; 04 R77). -/
def State.retireCmd (s : State) (c : CoreId) (q : QueueId) (k : Cmd) : State :=
  let s := s.joinBatch c k
  let s := s.modCore c fun x => (x.takeSlot k).dropCmd k.id
  match k.kind with
  | .mdrain _ | .chend _ _ => (s.applyCounts c (k.sat, k.flz, k.nan) 2 k.num).refreshArray (clusterOf c)
  | _ => if q == .m then s.refreshArray (clusterOf c) else s

/-- QUEUE_COMMAND_COMPLETE of the current core's k-th command of a queue (10 R203). A CBATCH leaves by BATCH_COMPLETE, a
bank-queue command by its program's completion. -/
def execQueueCommandComplete (q : QueueId) (k : Nat) (s : State) : Host.Outcome State Fault Refusal :=
  let c := s.cur
  .next (match ((s.core c).q.get q)[k]? with
    | none => s
    | some x =>
      match x.kind with
      | .cbatch _ _ _ _ | .bkcmd _ _ _ _ | .bkvec _ _ _ => s
      | _ => if x.phase != .performed || (s.core c).reservedBefore x then s else s.retireCmd c q x)

/-- A batch leaves its core. -/
def Core.dropBatch (c : Core) (cb : Bool) (num : Nat) : Core :=
  { c with q := { c.q with batches := c.q.batches.filter fun b => !(b.cb == cb && b.num == num) } }

/-- BATCH_COMPLETE of the batch whose CBATCH heads a copy queue of the current core: its increments are applied, and a
failure that no record reports takes effect (10 R205, R206; 04 R77; 11 R239). -/
def execBatchComplete (q : QueueId) (s : State) : Host.Outcome State Fault Refusal :=
  let c := s.cur
  .next (match (s.core c).q.get q with
    | k :: _ =>
      match k.kind with
      | .cbatch num va _ _ =>
        if k.phase != .performed then s
        else
          let s := s.modCore c fun x => x.dropCmd k.id
          match (s.core c).q.batch (q == .cb) num with
          | none => s
          | some b =>
            let s := (s.applyBatch c b).modCore c fun x => x.dropBatch b.cb b.num
            if va.isSome then s else s.resolveBatch c b
      | _ => s
    | [] => s)

/-! ### MMAR's fetches -/

/-- The head MMAR of a core whose fetch is on its way, with the place of its first access. -/
def State.mmarPending (s : State) (c : CoreId) : Option (Cmd × Nat) :=
  match (s.core c).mHead with
  | some k =>
    match k.kind with
    | .mma _ _ _ _ _ _ true => ((s.accesses.findIdx? fun a => a.owner == cmdOwner c .m k.id)).map fun i => (k, i)
    | _ => none
  | none => none

/-- MMAR_FETCH_RETURN on the current core: the oldest read of the segment performs, with the peer's answer where its home
is one (12 R263, R264). -/
def execMmarFetchReturn (ans : PeerAnswer) (s : State) : Host.Outcome State Fault Refusal :=
  let c := s.cur
  .next (match s.mmarPending c with
    | none => s
    | some (_, i) => (s.performPending i 0 ((s.accesses[i]?.map fun a => a.op.size).getD 0) ans).refreshArray (clusterOf c))

/-- MMAR_FETCH_TIMEOUT on the current core: 100 µs without an answer (12 R264). -/
def execMmarFetchTimeout (s : State) : Host.Outcome State Fault Refusal :=
  let c := s.cur
  .next (match s.mmarPending c with
    | none => s
    | some (k, i) =>
      match s.accesses[i]? with
      | some a => if k.sub + 100 * usTicks ≤ s.now then (s.suspendMmar c k 0 a).refreshArray (clusterOf c) else s
      | none => s)

/-! ### The array -/

/-- The head of the m queue is a chain command in progress: it counts toward every grant it runs under (13 R280). -/
def Core.carries (c : Core) : Bool :=
  match c.mHead with
  | some k => (match k.kind with | .chain _ _ _ _ _ | .chgrad _ _ _ _ _ => k.phase == .reading | _ => false)
  | none => false

/-- ARRAY_GRANT on the current core's cluster (12 R249, R250). -/
def execArrayGrant (s : State) : Host.Outcome State Fault Refusal :=
  let cl := clusterOf s.cur
  .next (match (s.cluster cl).grant, s.nextHolder cl with
    | none, some c =>
      (s.modCluster cl fun x =>
        { x with grant := some { holder := c, cmdsLeft := if (s.core c).carries then 15 else 16, cycles := 0 } }).stepStarts c
    | _, _ => s)

/-- The array cycles of a command's pass (12 R254, R263; 13 R279). -/
def passCycles (k : Cmd) : Nat :=
  match k.kind with
  | .mma _ _ _ rd _ _ remote => mmaCycles rd remote
  | .chain _ p _ _ _ => if p.bf16 then 64 else 128
  | .chgrad l r _ _ _ => if tdFmt l.td == some .bf16 && tdFmt r.td == some .bf16 then 64 else 128
  | _ => 0

/-- A command's pass performs. -/
def State.runPass (s : State) (c : CoreId) (k : Cmd) : State :=
  match k.kind with
  | .mma a b z rd tb ta remote => s.mmaPass c k a b z rd tb ta remote
  | .chain gen p i start links => s.chainPass c k gen p i start links
  | .chgrad l r g rL rR => s.chgradPass c k l r g rL rR
  | _ => s

/-- The grant after a pass: an MMAR counts as started by its first, and the grant ends after its 16th command, its 8,192nd cycle, a
power-fail warning or a pre-emption that has reached the holder (12 R249, R263, R267). -/
def State.afterPass (s : State) (cl : ClusterId) (c : CoreId) (k : Cmd) : State :=
  let first := match k.kind with | .mma _ _ _ _ _ _ true => k.step == 0 | _ => false
  let s := s.modCluster cl fun x =>
    { x with grant := x.grant.map fun g =>
        { g with cycles := g.cycles + passCycles k, cmdsLeft := if first then g.cmdsLeft - 1 else g.cmdsLeft } }
  let s := s.charge (s.core c).ctl.region.toNat 0x88 (passCycles k)
  let complete := ((s.cmdBy c k.id).map fun x => x.phase == Phase.performed || x.phase == Phase.writing).getD true
  match (s.cluster cl).grant with
  | some g => if 8192 ≤ g.cycles ∨ (g.cmdsLeft = 0 ∧ complete) ∨ g.ending ∨ !s.mayHold c then s.endGrant cl else s
  | none => s

/-- ARRAY_PASS_COMPLETE on the current core's cluster: a pass of the grant's holder performs (12 R249). -/
def execArrayPassComplete (s : State) : Host.Outcome State Fault Refusal :=
  let cl := clusterOf s.cur
  .next (match (s.cluster cl).grant with
    | none => s
    | some g =>
      let c := g.holder
      match (s.core c).mHead with
      | some k =>
        if k.phase != .reading || !s.readyPass c then s
        else
          let s := (s.runPass c k).afterPass cl c k
          let s := match s.cmdBy c k.id with
            | some y => if y.phase == Phase.writing && !s.outstanding (cmdOwner c .m k.id) then s.setPerformed c k.id else s
            | none => s
          (if s.granted c then s.stepStarts c else s).refreshArray cl
      | none => s)

/-! ### Stash fills -/

/-- The granule at a local address is present with these bytes, and the stalled bundle may issue (05 R89). -/
def Core.fillGranule (c : Core) (g : Nat) (bs : List Byte) : Core :=
  { c with status := .running
           loc := { c.loc with lmem := (c.loc.lmem.clear g 4096).put g bs, granules := c.loc.granules ++ [{ base := g, dirty := 0 }] } }

/-- The bytes of a granule as its home holds them, each line recalled from other granules (05 R90). -/
def State.readGranule (s : State) (p : Page) (ia : Nat) : State × List Byte :=
  let s := (List.range 32).foldl (fun s i => s.recall (some p) (ia + 128 * i) false) s
  (s, s.hbm.span (p.key + iaLocal ia % p.size) 4096)

/-- STASH_FILL_COMPLETE on the current core (05 R89). A core's own loads and stores in flight come first. -/
def execStashFillComplete (ans : PeerAnswer) (s : State) : Host.Outcome State Fault Refusal :=
  let c := s.cur
  let x := s.core c
  .next (match x.status with
    | .filling g =>
      if !x.loc.loads.isEmpty || !x.loc.stores.isEmpty then s
      else match x.stashEntry g with
        | none => s.modCore c fun x => { x with status := .running }
        | some e =>
          let ia := e.ia + (g - e.lbase)
          if !s.onModule ia then
            if !s.isTrained (iaModule ia) then s.violation c clsNoModule ia x.pc
            else match peerResult ia 4096 true ans with
              | none => s
              | some (.error (cls, addr)) => s.violation c cls addr x.pc
              | some (.ok bs) => s.modCore c fun x => x.fillGranule g bs
          else if s.isHeld (iaLocal ia) then s
          else match s.checkPage (.core c) (s.page (iaLocal ia)) with
            | .error cls => s.violation c cls ia x.pc
            | .ok p =>
              if p.bank then s.violation c clsStashBank ia x.pc
              else
                let (s, bs) := (s.reach (.core c) p ia 4096 0 false).readGranule p ia
                s.modCore c fun x => x.fillGranule g bs
    | _ => s)

end Sys2Proof.Machine
end

