-- ==== Sys2Proof/Machine/Preempt.lean ====
section
/-! DEFINITION. Saving the context of a task and restoring it (03 R62; 05 R87; 08 R157; 10 R212; 12 R267; 13 R285;
14 R302, R303; 19 R347; 20 R366). -/

namespace Sys2Proof.Machine

/-! ### What a save waits for -/

/-- An accepted bank program writes its issuer's scratchpad, as far as its argument block has been read (14 R303). -/
def BankJob.mayScratch (j : BankJob) : Bool := j.core.isSome && j.vec.isNone && (j.ospace || !j.started)

/-- The task has an accepted bank command that writes its scratchpad (14 R303). -/
def State.holdsScratch (s : State) (task : Word) : Bool := s.jobs.any fun j => j.task == task && j.orphan.isNone && j.mayScratch

/-- The m queue of a core writes: tiles of a gradient are on their way (13 R285). -/
def State.matrixWrites (s : State) (c : CoreId) : Bool :=
  s.accesses.any fun a => match a.owner, a.op with
    | .cmd d .m _, .write _ => d == c
    | _, _ => false

/-- The cores have reached a boundary at which the task may be saved: no system handler runs, the die is not shed, no
power-fail warning is pending, no pass runs, every command that must end has ended, every SPAWN has its result (19 R344, R347; 08 R162;
12 R267; 14 R303; 22 R388). -/
def State.maySave (s : State) (t : Task) : Bool :=
  !s.holdsScratch t.va && t.cores.all fun c =>
    let x := s.core c
    !x.sys.sh && !x.shed && !x.sys.inPfw && !(x.sys.asyncs.any fun a => a.cause == 0x14) && !x.q.all.any Cmd.mustEnd
      && !s.passRunning c && !s.matrixWrites c && x.spawns.isEmpty

/-- A transient result of the core is on its way or can still be read (03 R50). -/
def Core.transient (c : Core) : Bool :=
  !c.bypass.isEmpty || c.pend.any fun p => match p.res with
    | .vec _ _ t => t
    | _ => false

/-- The task may be pre-empted now: it may be saved, no core of it has skipped past its boundary (07 R125; log 55), and none stands between
a transient result and its use, but where YIELD names the boundary (08 R161). A save empties the bypass network (03 R51), and a pre-emption
changes no value of a program that reads its transient results in time (17 R335; log 60). -/
def State.mayPreempt (s : State) (t : Task) (reason : Nat) : Bool :=
  s.maySave t && (t.cores.all fun c => (s.core c).skipRun == 0) && (reason == preemptYield || t.cores.all fun c => !(s.core c).transient)

/-- Every core of the task has exited or is draining: it retires and is not saved (20 R370). -/
def State.leaving (s : State) (t : Task) : Bool :=
  t.cores.all fun c => (s.core c).status == .exited || (s.core c).status == .exiting

/-! ### Saving -/

/-- Results, loads and stores in flight take effect, with fuel for the longest latency (06 R105, 07 R139; 08 R162). -/
def State.drainPipe (s : State) (c : CoreId) : Nat → State
  | 0 => s
  | fuel + 1 =>
    let x := s.core c
    if x.pend.isEmpty && x.loc.loads.isEmpty && x.loc.stores.isEmpty then s else State.drainPipe (s.tick c) c fuel

/-- A command as it is recorded: one that has started starts again, array and decoder commands where they stopped
(10 R212, 12 R267, 13 R285; 11 R237). -/
def Cmd.record (k : Cmd) : Cmd :=
  match k.phase with
  | .queued | .performed => k
  | _ =>
    match k.kind with
    | .bkcmd _ _ _ _ | .bkvec _ _ _ => k
    | .mma _ _ _ _ _ _ _ => if k.phase == .suspended then k else { k with phase := .queued, got := [] }
    | .decomp _ _ _ _ _ | .chain _ _ _ _ _ | .chgrad _ _ _ _ _ => { k with phase := .queued, got := [] }
    | _ => { k with phase := .queued, got := [], bytes := 0, step := 0, sub := 0 }

/-- Physical registers that a save keeps: vwb to vwb + 31 and the declared footprint (03 R62). -/
def keepsReg (vwb vfoot p : Nat) : Bool :=
  (decide (vwb ≤ p) && decide (p < vwb + 32)) || (decide (32 ≤ p) && decide (p < 32 + vfoot))

/-- A wait abandoned: the bundle issues again when the core comes back to it (02 R41, 08 R157). -/
def Core.abandonWait (c : Core) : Core :=
  match c.status with
  | .waiting _ | .exiting =>
    { c with status := .running, reissue := { bundle := c.pc, next := c.waitNext, uh := c.sys.uh, sh := c.sys.sh } :: c.reissue }
  | _ => c

/-- A core's context as the save area holds it, given the task's declared footprint (03 R62, 20 R366). Its windows are not part of it (21
R373). The predicates that it brings are readable in the sc before its first bundle (07 R136). -/
def Core.context (c : Core) (vfoot : Nat) : Core :=
  let c := if c.status == .exiting then c else c.abandonWait
  let asyncs := c.sys.asyncs.map fun a => { a with since := a.since - (c.sc + 2) }
  { c with
    v := Vector.ofFn fun p : Fin 1536 => if keepsReg c.ctl.vwb.toNat vfoot p.val then c.v[p] else 0
    pPrev := c.p, bypass := [], icache := [], skipRun := 0, kept := none
    status := match c.status with | .filling _ | .halted | .stopped => .running | x => x
    q := c.q.mapAll Cmd.record
    sys := { c.sys with asyncs := asyncs, wins := Vector.replicate 8 {} }
    mx := { c.mx with hadReady := false }
    loc := { c.loc with lmem := c.loc.lmem.filter fun x => decide (x.1 < c.stashBase), granules := [], gated := 0, waking := 0 } }

/-- The contents of the operand slots that a core holds (12 R267). -/
def State.slotImages (s : State) (c : CoreId) : List (Nat × Mem × Mem) :=
  let cl := clusterOf c
  ((List.range 64).filter fun i => s.slotOwner cl i == some c).map fun i =>
    (i, (s.cluster cl).omem.slice (i * 32768) 32768, (s.cluster cl).side.slice (i * 2048) 2048)

/-- The dirty bytes of every granule of a core reach their homes (05 R87, R91); a write-back that its home refuses is a violation of
the core's (05 R101). -/
def State.writeBackAll (s : State) (c : CoreId) : State :=
  let l := (s.core c).loc.granules
  let good := (l.takeWhile fun g => (s.writeBackFail c g).isNone).foldl (fun s g => s.writeBackGranule c g) s
  match l.findSome? (s.writeBackFail c) with
  | none => good
  | some (cls, addr) => ({ good with choices := good.choices + 1 }).violation c cls addr (s.core c).pc

/-- A core is brought to its boundary and its context taken; the core is left without a task. -/
def State.saveCore (s : State) (c : CoreId) (vfoot : Nat) : State × SavedCore :=
  let s := (s.drainPipe c 4096).writeBackAll c
  let cl := clusterOf c
  -- the grant ends first, so that the context takes its charge with it (12 R250, R267)
  let s := if s.granted c then s.endGrant cl else s
  let saved : SavedCore := { core := (s.core c).context vfoot, slots := s.slotImages c }
  let s := { s with accesses := s.accesses.filter fun a => !a.ofCore c }
  ((s.vacateCore c).refreshArray cl, saved)

/-- The contexts of the task's cores, in the order of its cores. -/
def State.saveCores (s : State) (vfoot : Nat) : List CoreId → State × List SavedCore
  | [] => (s, [])
  | c :: l =>
    let (s, k) := s.saveCore c vfoot
    let (s, ks) := State.saveCores s vfoot l
    (s, k :: ks)

/-- The task's context is saved with the cause, and its cores are free (19 R347). -/
def State.saveContext (s : State) (t : Task) (cause : Nat) : State :=
  let (s, saved) := s.saveCores t.vfoot t.cores
  s.modTask t.va fun t => { t with saved := saved, cores := [], preempt := none, cause := cause }

/-- Cause PREEMPT (19 R343). -/
def causePreempt : Nat := 0x15

/-- Cause PFW (19 R343). -/
def causePfw : Nat := 0x14

/-- The saved context of a task after SPAWNW has converted: the core that waited goes on after it (02 R37). -/
def SavedCore.skipSpawn (k : SavedCore) : SavedCore :=
  match k.core.reissue with
  | r :: rest => if r.bundle == k.core.pc then { k with core := { k.core with pc := r.next, reissue := rest } } else k
  | [] => k

/-- A pre-emption: the task returns to Ready at the tail of its region's queue (20 R365, R368), unless its save has killed it. -/
def State.preempted (s : State) (t : Task) (reason : Nat) : State :=
  let s := s.saveContext t causePreempt
  if (s.task t.va).isNone then s
  else
  let s := s.makeReady t.va .preempted
  let s := s.charge t.region 0xE0 1
  if reason == preemptWait then s.charge t.region 0xE8 1 else s

/-! ### Restoring -/

/-- The windows in 256 bytes of a winset (21 R373). -/
def winsetOf (b : Nat) : Vector Window 8 :=
  Vector.ofFn fun i : Fin 8 =>
    let f := fun k => BitVec.ofNat 64 (bitsOf b (256 * i.val + 64 * k) 64)
    ((((({} : Window).write 0 (f 0)).write 1 (f 1)).write 2 (f 2)).write 3 (f 3))

/-- The window set of a region, as the dispatcher reads it at its home, on this module or a peer (05 R93; 21 R373, R375). Where it
cannot be read, that is logged and all windows are invalid (log 82). -/
def State.winset (s : State) (region : Nat) : State × Vector Window 8 :=
  match s.region region with
  | none => (s, Vector.replicate 8 {})
  | some r =>
    match s.readLines (.engine (s.partOfRegion region) region 0) r.winset 256 with
    | .ok (s, bs) => (s, winsetOf (natOfBytes bs))
    | .error (cls, addr) => ({ s.logModuleViolation cls addr 0 with choices := s.choices + 1 }, Vector.replicate 8 {})

/-- Supervisor handler entry of a region's partition (19 R350, 25 R419). -/
def State.partEntry (s : State) (region : Nat) : Word := ((s.parts[s.partOfRegion region]?).map (·.shentry)).getD 0

/-- What a physical core keeps of its own under a context that is placed on it: its clock and its count of sc
(03 R60). Its gated banks wake, reading zero (22 R390). -/
def Core.under (c : Core) (x : Core) (now : Nat) (wins : Vector Window 8) (entry : Word) (granted : Vector (BitVec 4) 4) : Core :=
  { x with
    cyc := c.cyc, tick := max c.tick now, shed := false, granted := granted, codes := codesOf x.asked granted
    sys := { x.sys with wins := wins, shentry := entry } }

/-- Operand slots restored on a core's cluster (12 R267). -/
def State.restoreSlots (s : State) (c : CoreId) (l : List (Nat × Mem × Mem)) : State :=
  s.modCluster (clusterOf c) fun cl => l.foldl (fun cl (i, m, side) =>
    let cl := cl.zeroSlot i
    { cl with
      omem := cl.omem.putCells (i * 32768) m, side := cl.side.putCells (i * 2048) side
      owner := Vector.ofFn fun k : Fin 64 => if k.val = i then some c else cl.owner[k] }) cl

/-- A context placed on a core (20 R366); its P joins the arbiter's (12 R267). -/
def State.restoreCore (s : State) (c : CoreId) (k : SavedCore) (wins : Vector Window 8) (entry : Word)
    (granted : Vector (BitVec 4) 4) : State :=
  let s := s.modCore c fun x => x.under k.core s.now wins entry granted
  let s := s.restoreSlots c k.slots
  (if (s.core c).contends then s.joinArbiter c else s).refreshArray (clusterOf c)

end Sys2Proof.Machine
end

