-- ==== Sys2Proof/Machine/Dispatcher.lean ====
section
/-! DEFINITION. The task dispatcher: choice, placement and launch (20 R361-R364), victims and pre-emption (R365-R367; 02 R41;
08 R161), retirement and successors (02 R32, R33), the spawn-wait list (02 R37, 20 R367), accounting (20 R368), and the starting,
updating and killing of regions (20 R356-R360). -/

namespace Sys2Proof.Machine

/-! ### Levels and placement -/

/-- The cores of a hoop by its origin, rows of the hoop first (02 R26). -/
def hoopAt (die row col w h : Nat) : List CoreId :=
  (List.range h).flatMap fun y => (List.range w).map fun x => coreAt die (row + y) (col + x)

/-- The rectangles of a die for a task, lowest row and then lowest column first, even where both sides are (01 R15, 20 R363). -/
def Task.rects (t : Task) (die : Nat) : List (List CoreId) :=
  (List.range (5 - t.h)).flatMap fun row => (List.range (9 - t.w)).filterMap fun col =>
    if t.w % 2 == 0 && t.h % 2 == 0 && (row % 2 != 0 || col % 2 != 0) then none else some (hoopAt die row col t.w t.h)

/-- A core that the dispatcher may give to a task: working, idle, not shed, and no program of a killed task writes into it
(01 R22; 14 R303; 22 R388). -/
def State.freeCore (s : State) (c : CoreId) : Bool :=
  Config.working c && (s.core c).status == .idle && !(s.core c).shed && !s.jobs.any fun j => j.mayScratch && (j.orphan.getD []).contains c

/-- The slot numbers of a saved context are free on the clusters of these cores; slots of `yielding` cores count as free
(12 R267). -/
def State.slotsFree (s : State) (t : Task) (cores yielding : List CoreId) : Bool :=
  let l := (t.saved.zip cores).flatMap fun (k, c) => k.slots.map fun (i, _, _) => (clusterOf c, i)
  decide l.Nodup && l.all fun (cl, i) => match s.slotOwner cl i with
    | none => true
    | some d => yielding.contains d

/-- The die is shed by a cap or a brown-out (22 R386, R389). -/
def State.dieShed (s : State) (die : Nat) : Bool := s.power.shedCap.getLsbD die || s.power.shedBo.getLsbD die

/-- The die may host the task: its mask, its partition, not shed (02 R27, 25 R419, 22 R388). -/
def State.dieAllowed (s : State) (t : Task) (die : Nat) : Bool :=
  (t.affinity == 0 || t.affinity / 2 ^ die % 2 == 1) && s.partOfDie die == some (s.partOfRegion t.region) && !s.dieShed die

/-- The base die that homes an address of this module (05 R98). -/
def State.homeDie (s : State) (ia : Nat) : Option Nat :=
  if s.onModule ia then (s.freshPage (iaLocal ia)).map fun p => p.homeDie (p.line ia) else none

/-- A die's score: the lengths of the declared operands homed on its base die (20 R363). -/
def State.dieScore (s : State) (t : Task) (die : Nat) : Nat :=
  let wins := (s.winset t.region).2
  (t.operands.filter fun (va, n, _) => decide (0 < n) && match translate wins {} va with
    | .ok ia => s.homeDie ia == some (die / 2)
    | .error _ => false).foldl (fun a (_, n, _) => a + n) 0

/-- The hoop a task gets among the available cores: the best die that has a rectangle, and its first one (20 R363). -/
def State.findHoop (s : State) (t : Task) (avail : CoreId → Bool) (yielding : List CoreId) : Option (List CoreId) :=
  let found := ((List.range 8).filter (s.dieAllowed t ·)).filterMap fun die =>
    ((t.rects die).find? fun l => l.all avail && s.slotsFree t l yielding).map fun l => (die, l)
  let free := fun die => (allCores.filter fun c => coreDie c == die && avail c).length
  let better := fun (a b : Nat) => decide (s.dieScore t b < s.dieScore t a) || (s.dieScore t a == s.dieScore t b && decide (free b < free a))
  (found.foldl (fun best x => match best with
    | none => some x
    | some b => if better x.1 b.1 then some x else some b) (none : Option (Nat × List CoreId))).map (·.2)

/-- The hoop among the free cores and those of tasks that give way, but for cores that are held for others. -/
def State.hoopWith (s : State) (t : Task) (yielding held : List CoreId) : Option (List CoreId) :=
  s.findHoop t (fun c => !held.contains c && (s.freeCore c || (yielding.contains c && !(s.core c).shed))) yielding

/-- The cores that tasks above a level wait for: the hoop that a chosen victim will leave them with its cores (20 R365). -/
def State.promised (s : State) (lvl : Nat) : List CoreId :=
  (s.tasks.filter fun t => t.queued && decide (lvl < s.level t)).flatMap fun t =>
    match t.victim.bind s.task with
    | some v => if v.preempt.isSome then (s.hoopWith t v.cores []).getD [] else []
    | none => []

/-- Cores that the tasks of a region's subtree run on. -/
def State.runningCores (s : State) (id : Nat) : Nat :=
  (s.tasks.filter fun t => s.within t.region id).foldl (fun n t => n + t.cores.length) 0

/-- max_cores of the region and of every region above it (20 R364). -/
def State.coresFit (s : State) (t : Task) : Bool :=
  (s.upTree t.region).all fun r => decide (s.runningCores r.id + t.w * t.h ≤ r.maxCores)

/-- The save record of so many cores on so many clusters (20 R364). -/
def saveRecord (cores vfoot spill stash clusters : Nat) : Nat :=
  roundUp (cores * (0x28000 + 512 * vfoot + spill + 0x100000 - 0x10000 * stash) + 0x220000 * clusters) 0x10000

/-- The record that a task reserves on these cores. -/
def State.recordOf (s : State) (t : Task) (cores : List CoreId) : Nat :=
  saveRecord cores.length t.vfoot t.spill ((s.region t.region).elim 0 (·.stash)) ((cores.map clusterOf).eraseDups).length

/-- Bytes of a save area that are reserved, by the tasks of every region that has resolved to it (20 R356, R357, R364). -/
def State.reservedIn (s : State) (area : Nat) : Nat := (s.tasks.filter fun t => t.area == area).foldl (fun n t => n + t.reserved) 0

/-- The save area that the task's region has resolved has room, or the record is reserved already (20 R357, R364). -/
def State.saveFits (s : State) (t : Task) (cores : List CoreId) : Bool :=
  t.reserved != 0 || match s.region t.region with
    | some r => decide (s.reservedIn r.saveIa + s.recordOf t cores ≤ r.saveLen)
    | none => false

/-! ### Power grants -/

/-- Every legal set of codes (01 R18). -/
def legalCodes : List (Vector (BitVec 4) 4) :=
  let k := (List.range 7).map (BitVec.ofNat 4 ·)
  ((k.flatMap fun a => k.flatMap fun b => k.flatMap fun c => k.map fun d => #v[a, b, c, d])).filter codesLegal

/-- The module's budget for the current period, in watts (22 R383). -/
def Power.budget (p : Power) : Nat := min p.cap.toNat p.tokNow.toNat

/-- A running task's estimated draw (22 R384, log 8). -/
def State.taskDraw (s : State) (t : Task) : Nat :=
  match t.cores with
  | c :: _ => Config.estimate t.cores.length ((s.core c).codes.toList.map (·.toNat))
  | [] => 0

/-- A running task is halted with the die of one of its cores (22 R388). -/
def State.halted (s : State) (t : Task) : Bool := t.cores.any fun c => (s.core c).shed

/-- The estimated draw of the tasks that run and for which something holds. -/
def State.drawOf (s : State) (p : Task → Bool) : Nat :=
  (s.tasks.filter fun t => t.kind == 0 && t.state == .running && !s.halted t && p t).foldl (fun n t => n + s.taskDraw t) 0

/-- So many more watts fit the budget: over the metered draw, with what has been placed since the meter's period began, and under a low
cap over what all tasks draw above idle (22 R384, R386; log 8). -/
def State.drawFits (s : State) (w : Nat) : Bool :=
  let p := s.power
  let k := ((List.range 8).filter fun d => p.shedCap.getLsbD d).length
  decide (p.draw.toNat + s.drawOf (fun t => decide (p.periodAt ≤ t.dispatchedAt)) + w ≤ p.budget)
    && (decide (420 ≤ p.cap.toNat) || decide (s.drawOf (fun _ => true) + w + (420 - 15 * k) ≤ p.cap.toNat))

/-- The codes that the power manager grants: lowest codes whose estimated draw fits the budget (22 R384), and that with the codes which
a saved context asked for keep R18 on every core (22 R382). Where several sets are lowest the choice is open (log 8). -/
def State.grantCodes (s : State) (t : Task) : Option (Vector (BitVec 4) 4) :=
  let fits := legalCodes.filter fun v => (t.saved.all fun k => codesLegal (codesOf k.core.asked v))
    && s.drawFits (Config.estimate (t.w * t.h) (v.toList.map (·.toNat)))
  let below := fun (a b : Vector (BitVec 4) 4) => a != b && (a.toList.zip b.toList).all fun (x, y) => decide (x.toNat ≤ y.toNat)
  let low := fits.filter fun v => !fits.any fun u => below u v
  low[Config.freeNat s.choices % low.length]?

/-- How a task is placed: its cores and its codes; neither for the kinds that run on none. -/
structure Plan where
  cores : List CoreId
  codes : Vector (BitVec 4) 4
deriving DecidableEq, Repr

/-- The plan for a Ready task, if placement and budgets succeed now (20 R362-R364). -/
def State.plan (s : State) (t : Task) : Option Plan :=
  if (s.region t.region).isNone then none
  else if t.kind ≠ 0 then some { cores := [], codes := Vector.replicate 4 0 }
  else if !s.coresFit t then none
  else match s.hoopWith t [] (s.promised (s.level t)) with
    | none => none
    | some cores => if s.saveFits t cores then (s.grantCodes t).map fun codes => { cores := cores, codes := codes } else none

/-! ### Dispatch -/

/-- The launch state of a core of a hoop (03 R61; 19 R341, R350; 22 R390). What its scratchpad held stays. -/
def Core.launch (c : Core) (t : Task) (r : Region) (x y now : Nat) (wins : Vector Window 8) (entry : Word)
    (granted : Vector (BitVec 4) 4) : Core :=
  { ({} : Core) with
    pc := t.entry, cyc := c.cyc, tick := max c.tick now, charged := c.cyc, status := .running
    codes := granted, granted := granted
    ctl := { ({} : Ctl) with
      hx := BitVec.ofNat 4 x, hy := BitVec.ofNat 4 y, hw := BitVec.ofNat 4 t.w, hh := BitVec.ofNat 4 t.h
      mb := Vector.ofFn fun i : Fin 8 => t.mb.getD i.val 0
      rsize := BitVec.ofNat 11 (min 1024 (t.vfoot / 32 * 32)), taskid := t.va, region := BitVec.ofNat 16 t.region }
    sys := { ({} : Sys) with wins := wins, shentry := entry, mode := r.super, trapRec := r.trapRec }
    loc := { ({} : Loc) with lmem := c.loc.lmem, spillLimit := t.spill, stashSteps := r.stash } }

/-- The hoop of a task that has not run yet. -/
def State.launchCores (s : State) (t : Task) (r : Region) (p : Plan) (wins : Vector Window 8) (entry : Word) : State :=
  ((List.range p.cores.length).zip p.cores).foldl (fun s (i, c) =>
    s.modCore c fun x => x.launch t r (i % t.w) (i / t.w) s.now wins entry p.codes) s

/-- A saved context goes to a hoop of the same shape. -/
def State.resumeCores (s : State) (t : Task) (p : Plan) (wins : Vector Window 8) (entry : Word) : State :=
  (t.saved.zip p.cores).foldl (fun s (k, c) =>
    (s.restoreCore c k wins entry p.codes).modCore c fun x => { x with charged := x.cyc }) s

/-- The oldest undelivered event of a region becomes a pending trap on the hoop's first core (19 R345). -/
def State.deliverEvent (s : State) (r : Region) (c : CoreId) : State :=
  match r.events with
  | [] => s
  | e :: rest =>
    (s.modRegion r.id fun r => { r with events := rest }).pendAsync c 0x18
      (BitVec.ofNat 64 (e.kind % 256 + e.info % 2 ^ 48 * 2 ^ 8)) e.task

/-- The declared operands are brought into L2 with their hints; a violation discards an operand's prefetch, and is logged (02 R30; 05 R101,
R102; 20 R363). -/
def State.prefetchOperands (s : State) (t : Task) (c : CoreId) (wins : Vector Window 8) : State :=
  t.operands.foldl (fun s (va, n, mode) =>
    let l := (cutAt 128 va n).map fun (o, k) =>
      ((match translate wins { r := true } (va + o) with | .ok ia => Target.global ia | .error cls => Target.bad cls (va + o)), k)
    if n = 0 then s
    else match s.prefetch (.core c) (bitsOf mode 2 2) l with
      | (s, some (cls, addr)) => s.logModuleViolation cls addr t.va
      | (s, none) => s) s

/-- A core task is dispatched or resumed (20 R363, R364, R366; 21 R373). -/
def State.runCoreTask (s : State) (t : Task) (r : Region) (p : Plan) : State :=
  let (s, wins) := s.winset t.region
  let entry := s.partEntry t.region
  let record := if t.reserved = 0 then s.recordOf t p.cores else 0
  let s := s.modTask t.va fun t =>
    { t with state := .running, cores := p.cores, saved := [], dispatchedAt := s.now, reserved := t.reserved + record,
             area := if t.reserved = 0 then r.saveIa else t.area, preempt := none }
  let s := if t.saved.isEmpty then s.launchCores t r p wins entry else s.resumeCores t p wins entry
  let s := { s with choices := s.choices + 1 }
  match p.cores with
  | c :: _ => (s.prefetchOperands t c wins).deliverEvent r c
  | [] => s

/-- A bank task goes to the bank sequencer; one whose engine set is bad runs on no engine (14 R289, R290, R301; 10 R222). -/
def State.runBankTask (s : State) (t : Task) : State :=
  let (s, wins) := s.winset t.region
  let word := fun i => BitVec.ofNat 64 ((t.mb.getD i 0).toNat + (t.mb.getD (i + 1) 0).toNat * 2 ^ 32)
  let set := engineSet (word 0)
  let j : BankJob :=
    { id := s.nextJob, core := none, task := t.va, region := t.region, part := s.partOfRegion t.region, prog := t.entry, first := (set.getD (0, 0)).1
      count := (set.getD (0, 0)).2, args := word 2, wins := wins, mb4 := t.mb.drop 4 }
  let s := s.modTask t.va fun t => { t with state := .running, dispatchedAt := s.now }
  let s := { s with jobs := s.jobs ++ [j], nextJob := s.nextJob + 1 }
  if set.isNone then s.refuseJob j none else s

/-- A task is dispatched; a supervisor task by posting its event (02 R25, 20 R364). -/
def State.dispatch (s : State) (t : Task) (r : Region) (p : Plan) : State :=
  match t.kind with
  | 0 => s.runCoreTask t r p
  | 1 => s.runBankTask t
  | _ =>
    let s := s.modTask t.va fun t => { t with state := .running, dispatchedAt := s.now }
    { s with supEvents := s.supEvents ++ [.supervisorTask t.va t.entry] }

/-! ### Pre-emption -/

/-- A core of the task whose SPAWNW has waited 4,096 sc, with its place in the hoop and its child (02 R37). -/
def State.converting (s : State) (t : Task) : Option (Nat × Word) :=
  ((List.range t.cores.length).zip t.cores).findSome? fun (i, c) =>
    let x := s.core c
    match x.status with
    | .waiting (.spawn child) => if 4096 ≤ (x.tick - x.waitSince) / x.scTicks then some (i, child) else none
    | _ => none

/-- SPAWNW converts: the task gives up its ready entry and goes on the spawn-wait list (02 R37, 20 R367). -/
def State.convert (s : State) (t : Task) (i : Nat) (child : Word) : State :=
  let s := (s.chargeTask t).saveContext t causePreempt
  if (s.task t.va).isNone then s
  else
  let s := s.makeReady t.va (.spawnWait child)
  let s := s.modTask t.va fun t =>
    { t with saved := ((List.range t.saved.length).zip t.saved).map fun (j, k) => if j = i then k.skipSpawn else k }
  s.charge t.region 0xE0 1

/-- The task's context is saved now, and it goes where its pre-emption sends it (20 R365-R368). -/
def State.preemptNow (s : State) (t : Task) (reason : Nat) : State :=
  let s := match reason == preemptSpawn, s.converting t with
    | true, some (i, child) => s.convert t i child
    | _, _ => (s.chargeTask t).preempted t reason
  s.flushCharges t.region

/-- A pre-emption is asked for: taken at once where every core stands at a boundary that allows it, else at the first that
does. A task that is leaving, asked already, or halted with its die is left alone (20 R370, 22 R388). -/
def State.requestPreempt (s : State) (t : Task) (reason : Nat) : State :=
  if t.kind ≠ 0 ∨ t.state ≠ .running ∨ t.preempt.isSome ∨ s.leaving t ∨ s.halted t then s
  else if s.mayPreempt t reason then s.preemptNow t reason
  else t.cores.foldl (fun s c => s.refreshArray (clusterOf c)) (s.modTask t.va fun t => { t with preempt := some reason })

/-- With a running task out of the way, the task lacks nothing but the cores it has found: its save area and the power manager allow
it (20 R364, R365). -/
def State.fitsWithout (s : State) (t v : Task) (cores : List CoreId) : Bool :=
  s.saveFits t cores && ((s.modTask v.va fun v => { v with state := .preempted, cores := [] }).grantCodes t).isSome

/-- A victim for a task (20 R365): below its level, 50 µs on its hoop, and its cores with the free ones hold the task, which lacks nothing
else. -/
def State.isVictim (s : State) (t v : Task) : Bool :=
  v.kind == 0 && v.state == .running && v.preempt.isNone && !s.halted v && !s.leaving v && decide (s.level v < s.level t)
    && decide (v.dispatchedAt + 50 * usTicks ≤ s.now)
    && ((s.hoopWith t v.cores (s.promised (s.level t))).map (s.fitsWithout t v)).getD false

/-- The victim: of the lowest level, and then the most recently dispatched (20 R365). -/
def State.victim (s : State) (t : Task) : Option Task :=
  (s.tasks.filter (s.isVictim t)).foldl (fun best v => match best with
    | none => some v
    | some b =>
      if s.level v < s.level b ∨ (s.level v = s.level b ∧ b.dispatchedAt < v.dispatchedAt) then some v else some b) none

/-- A task that lacks nothing but cores finds its one victim (20 R365). -/
def State.seekVictim (s : State) (t : Task) : State :=
  if t.kind ≠ 0 || t.victim.isSome || (s.region t.region).isNone || !s.coresFit t
      || (s.hoopWith t [] (s.promised (s.level t))).isSome then s
  else match s.victim t with
    | some v => (s.modTask t.va fun t => { t with victim := some v.va }).requestPreempt v preemptLevel
    | none => s

/-- Tasks of a lower level come later, and of one level those that became Ready later. -/
def State.queuedBefore (s : State) (a b : Task) : Bool :=
  decide (s.level b < s.level a) || (s.level a == s.level b && decide (a.readySeq < b.readySeq))

/-- A queued task put at its place. -/
def State.insertQueued (s : State) (x : Task) : List Task → List Task
  | [] => [x]
  | y :: l => if s.queuedBefore x y then x :: y :: l else y :: State.insertQueued s x l

/-- Every queued task, wherever it stands in its queue, that lacks only cores has its victim sought (20 R365). -/
def State.seekVictims (s : State) : State :=
  ((s.tasks.filter (·.queued)).foldr s.insertQueued []).foldl State.seekVictim s

/-! ### Stride scheduling -/

/-- The pass value of a queue at a level: a fraction (20 R362). -/
def Region.passAt (r : Region) (lvl : Nat) : Nat × Nat :=
  ((r.pass.find? fun p => p.1 == lvl).map (·.2)).getD (0, 1)

/-- A pass value lies below another. -/
def passLt (a b : Nat × Nat) : Bool := decide (a.1 * b.2 < b.1 * a.2)

/-- The pass value of a queue replaced. -/
def Region.setPass (r : Region) (lvl : Nat) (p : Nat × Nat) : Region :=
  { r with pass := (lvl, p) :: r.pass.filter fun x => x.1 != lvl }

/-- A pass value with 1/t added. -/
def passAdd (p : Nat × Nat) (t : Nat) : Nat × Nat :=
  let n := p.1 * t + p.2
  let d := p.2 * t
  (n / Nat.gcd n d, d / Nat.gcd n d)

/-- The head of a region's queue at a level (20 R362). -/
def State.head (s : State) (id lvl : Nat) : Option Task :=
  (s.tasks.filter fun t => t.region == id && t.queued && s.level t == lvl).foldl (fun best t => match best with
    | none => some t
    | some b => if t.readySeq < b.readySeq then some t else some b) none

/-- The active queues of a level: regions whose head is placeable, with the plan (20 R362). -/
def State.active (s : State) (lvl : Nat) : List (Region × Task × Plan) :=
  s.regions.filterMap fun r => (s.head r.id lvl).bind fun t => (s.plan t).map fun p => (r, t, p)

/-- The smallest pass value among the active queues of a level (20 R362). -/
def State.leastPass (s : State) (lvl : Nat) : Option (Nat × Nat) :=
  ((s.regions.filter fun r => r.wasActive.contains lvl).map (·.passAt lvl)).foldl (fun best p => match best with
    | none => some p
    | some b => some (if passLt p b then p else b)) none

/-- A queue that becomes active takes up the pass value of those that are (20 R362). -/
def State.joinQueue (s : State) (lvl id : Nat) : State :=
  let low := s.leastPass lvl
  s.modRegion id fun r =>
    if r.wasActive.contains lvl then r
    else
      let r := { r with wasActive := lvl :: r.wasActive }
      match low with
      | some p => if passLt (r.passAt lvl) p then r.setPass lvl p else r
      | none => r

/-- The queues of a level that are active no longer (20 R362). -/
def State.lapse (s : State) (lvl : Nat) : State :=
  let act := s.active lvl
  let still := fun (r : Region) => act.any fun x => x.1.id == r.id
  { s with regions := s.regions.map fun r => if still r then r else { r with wasActive := r.wasActive.filter fun l => l != lvl } }

/-- The queues of a level as a decision finds them: those that are active no longer leave, and those that have become active join one after
another, in the order in which their heads became Ready (20 R362, log 58). -/
def State.activate (s : State) (lvl : Nat) : State :=
  ((s.active lvl).foldr (fun x l => s.insertQueued x.2.1 l) []).foldl (fun s t => s.joinQueue lvl t.region) (s.lapse lvl)

/-- The active queue that is served: the smallest pass value, then the lower region id (20 R362). -/
def State.served (s : State) (lvl : Nat) (act : List (Region × Task × Plan)) : Option (Region × Task × Plan) :=
  act.foldl (fun best x => match best with
    | none => some x
    | some b =>
      let p := fun (y : Region × Task × Plan) => ((s.region y.1.id).map (·.passAt lvl)).getD (0, 1)
      if passLt (p x) (p b) || (!passLt (p b) (p x) && decide (x.1.id < b.1.id)) then some x else some b) none

/-- The levels from one downward: the first with an active queue is served (20 R362). -/
def State.serveFrom : Nat → State → State
  | 0, s => s
  | n + 1, s =>
    match s.served n (s.active n) with
    | some (r, t, p) =>
      let s := s.modRegion r.id fun r => r.setPass n (passAdd (r.passAt n) (max 1 r.dtickets))
      s.dispatch t r p
    | none => State.serveFrom n s

/-- One decision: tasks that lack only cores find their victims, the queues of every level become active, and the highest level that holds a
placeable task is served; a queue that the dispatch leaves without a placeable head is active no longer (20 R362, R365). -/
def State.decideNow (s : State) : State :=
  (List.range 12).foldl State.lapse (State.serveFrom 12 ((List.range 12).foldl State.activate s.seekVictims))

/-! ### Pools -/

/-- The dispatcher as it works for a task (21 R375). -/
def State.forTask (s : State) (t : Task) : Requester := .engine (s.partOfRegion t.region) t.region t.va

/-- The predecessor count of an accepted descriptor, as its home holds it; a peer's is free (02 R32, log 6). -/
def State.predCount (s : State) (t : Task) : State × Option Nat :=
  match translate t.wins {} (t.va.toNat + 0x10) with
  | .error _ => (s, none)
  | .ok ia =>
    match s.readLine (s.forTask t) ia 4 with
    | .ok (s, bs) => (s, some (natOfBytes bs))
    | .error _ => ({ s with choices := s.choices + 1 }, none)

/-- Pending tasks whose count is 0 become Ready while the ready pool has room (02 R32). -/
def State.promote (s : State) : State :=
  s.pendingTasks.foldl (fun s t =>
    if !s.readyRoom then s
    else match s.predCount t with
      | (s, some 0) => s.makeReady t.va .ready
      | (s, _) => s) s

/-- The dispatcher places tasks: while the module runs, and in RESTORE those with which the supervisor copies its ranges back (23 R399;
25 R413). -/
def State.dispatches (s : State) : Bool := (s.hib.state == .run || s.hib.state == .restore) && s.boot.step == .done

/-- DISPATCH_DECISION (20 R362): only while the module runs. -/
def execDispatchDecision (s : State) : Host.Outcome State Fault Refusal :=
  .next (if s.dispatches then s.promote.decideNow else s)

/-! ### Retirement -/

/-- A graph error that names a successor and the retiring task (02 R33, 19 R345). -/
def State.graphError (s : State) (t : Task) (succ : Word) : State :=
  s.postEvent t.region { kind := 2, info := succ.toNat % 2 ^ 48, task := t.va } (.graphError succ t.va)

/-- A count of predecessors goes down by one at its home; its old value, or none where the access fails, which is logged
(02 R33, log 36). -/
def State.decrement (s : State) (t : Task) (wins : Vector Window 8) (va : Nat) : State × Option Nat :=
  let who := s.forTask t
  match translate wins { r := true, w := true } va with
  | .error cls => (s.logModuleViolation cls va t.va, none)
  | .ok ia =>
    if !s.onModule ia then
      match s.peerVerdict ia ia with
      | some cls => ({ s.logModuleViolation cls ia t.va with choices := s.choices + 1 }, none)
      | none =>
        let old := Config.freeNat s.choices
        let a : Access := { owner := .none, target := .global ia, op := .amo 0 4 (2 ^ 32 - 1) none, whole := true, requester := who }
        let s := { s with choices := s.choices + 1 }
        (if old = 0 then s else s.send [a], some old)
    else match s.checkPage who (s.page (iaLocal ia)) with
      | .error cls => (s.logModuleViolation cls ia t.va, none)
      | .ok p =>
        let (s, bs) := (s.reach who p ia 4 0 true).homeRead p ia 4
        let old := natOfBytes bs
        (if old = 0 then s else s.homeWrite who p ia (bytesOfNat 4 (old - 1)), some old)

/-- One entry of a successor list (02 R33). -/
def State.release (s : State) (t : Task) (wins : Vector Window 8) (va : Word) : State :=
  if va.toNat % 128 ≠ 0 then s.graphError t va
  else match s.decrement t wins (va.toNat + 0x10) with
    | (s, none) => s
    | (s, some 0) => s.graphError t va
    | (s, some n) =>
      match s.task va with
      | some c => if n = 1 ∧ c.state = .pending ∧ s.readyRoom then s.makeReady va .ready else s
      | none => s

/-- The successor list from an entry on: at most 4,096 entries (02 R33). A list that cannot be read ends there, and that is
logged (log 36). -/
def State.walkSuccessors (s : State) (t : Task) (wins : Vector Window 8) (at_ : Nat) (last : Word) : Nat → State
  | 0 => s.graphError t last
  | fuel + 1 =>
    match s.readVa (s.forTask t) wins { r := true } at_ 8 with
    | .error (cls, addr) => s.logModuleViolation cls addr t.va
    | .ok (s, bs) =>
      let va := BitVec.ofNat 64 (natOfBytes bs)
      if va = 0 then s else State.walkSuccessors (s.release t wins va) t wins (at_ + 8) va fuel

/-- A task retires: what it held is released, the charges made, its successors released (02 R32-R34). -/
def State.retire (s : State) (t : Task) : State :=
  let s := ((s.removeTask t).charge t.region 0xC8 1).flushCharges t.region
  let s := if t.succ = 0 then s
    else
      let (s, wins) := s.winset t.region
      s.walkSuccessors t wins t.succ.toNat 0 4096
  s.promote

/-- The task may retire: a core task whose cores have all exited, a bank or supervisor task that is over (02 R25, R32). -/
def State.mayRetire (s : State) (t : Task) : Bool :=
  t.state == .retiring ||
    (t.kind == 0 && t.state == .running && t.cores.all fun c => (s.core c).status == .exited && !s.accesses.any (·.ofCore c))

/-- TASK_RETIRE of the subject's task (02 R32). -/
def execTaskRetire (s : State) : Host.Outcome State Fault Refusal :=
  .next (match s.tasks[s.subj]? with
    | some t => if s.mayRetire t then s.retire t else s
    | none => s)

/-! ### Waits that cost the hoop -/

/-- WAIT_YIELD for the current core (02 R41, 20 R367): its wait has passed the threshold and the task allows it. -/
def execWaitYield (s : State) : Host.Outcome State Fault Refusal :=
  let x := s.core s.cur
  .next (match s.taskOf s.cur, x.status with
    | some t, .waiting _ =>
      match s.region t.region with
      | none => s
      | some r =>
        let thr := (if r.wyThr = 0 then 100 else r.wyThr) * usTicks
        if (t.waitYield || r.wy) && !x.shed && s.hib.state == .run && decide (x.waitSince + thr < s.now) then s.requestPreempt t preemptWait else s
    | _, _ => s)

/-- SPAWNW_CONVERSION for the current core (02 R37, 20 R367). -/
def execSpawnwConversion (s : State) : Host.Outcome State Fault Refusal :=
  .next (match s.taskOf s.cur with
    | some t =>
      if s.hib.state == .run && !(s.core s.cur).shed && (s.converting { t with cores := [s.cur] }).isSome then s.requestPreempt t preemptSpawn
      else s
    | none => s)

/-- A spawn-wait parent is killed: its retry met a violation or a descriptor that fails (20 R367). -/
def State.killParent (s : State) (t : Task) (code : Nat) (child : Word) : State :=
  s.killTask t (.taskKilled t.va (BitVec.ofNat 64 causeFatal) 0 (BitVec.ofNat 64 code) child 0xFFFF)

/-- One retry: the descriptor is read afresh, through the windows of the parent's region (20 R367, 21 R373). Where the child is taken but no
ready entry is left for the parent, nothing is accepted and the parent is retried first (log 37). -/
def State.retrySpawn (s : State) (t : Task) (child : Word) : State :=
  let (s, wins) := s.winset t.region
  match s.submit child (s.forTask t) wins t.region (some t.va) with
  | (s', .accepted) => if s'.readyRoom then s'.makeReady t.va .preempted else s.modTask t.va fun t => { t with retryFirst := true }
  | (s', .lacking) => s'
  | (s', .failed code) => (s'.logModule child.toNat t.va 2 causeFatal).killParent t code child
  | (s', .violation cls addr) => (s'.logModuleViolation cls addr t.va).killParent t cls child

/-- A waiter put at its place: one that is retried first, and then by the order in which the list was joined (20 R367). -/
def insertWaiter (x : Task × Word) : List (Task × Word) → List (Task × Word)
  | [] => [x]
  | y :: l =>
    if (x.1.retryFirst && !y.1.retryFirst) || (x.1.retryFirst == y.1.retryFirst && decide (x.1.readySeq < y.1.readySeq)) then x :: y :: l
    else y :: insertWaiter x l

/-- The spawn-wait list in its order. -/
def State.spawnWaiters (s : State) : List (Task × Word) :=
  (s.tasks.filterMap fun t => match t.state with | .spawnWait c => some (t, c) | _ => none).foldr insertWaiter []

/-- SPAWN_WAIT_RETRY: every waiter in turn, but for those whose descriptor's VA belongs to a task that has not ended (20 R367,
log 37). -/
def execSpawnWaitRetry (s : State) : Host.Outcome State Fault Refusal :=
  .next (if s.hib.state != .run then s
    else s.spawnWaiters.foldl (fun s (t, c) => if (s.task t.va).isSome && (s.task c).isNone then s.retrySpawn t c else s) s)

/-- YIELD: a Ready task at this level or above that these cores could hold pre-empts the task at the next boundary, whatever pre-emption
the task waits for already (08 R161). -/
def execYield (s : State) : Host.Outcome State Fault Refusal :=
  .next (match s.taskOf s.cur with
    | none => s
    | some t =>
      let rival := fun (r : Task) => r.kind == 0 && r.queued && decide (s.level t ≤ s.level r) && (s.region r.region).isSome
        && (s.findHoop r t.cores.contains t.cores).isSome
      if s.tasks.any rival then s.modTask t.va fun t => { t with preempt := some preemptYield } else s)

/-- ACCOUNTING_CHARGE: every region's charges reach its block (20 R368). -/
def execAccountingCharge (s : State) : Host.Outcome State Fault Refusal :=
  let ids : List Nat := s.regions.map (fun r => r.id) ++ s.charges.map (fun p => p.1 / 512)
  .next (ids.eraseDups.foldl State.flushCharges s)

/-! ### The supervisor's hand -/

/-- EVENT_ACKNOWLEDGE of the subject's task, of supervisor kind (02 R25). -/
def execEventAcknowledge (s : State) : Host.Outcome State Fault Refusal :=
  .next (s.supervise fun s => match s.tasks[s.subj]? with
    | some t => if t.kind == 2 && t.state == .running then s.modTask t.va fun t => { t with state := .retiring } else s
    | none => s)

/-- KILL_BY_SUPERVISOR of the subject's task, of any kind, running or halted (02 R32, 19 R352). -/
def execKillBySupervisor (s : State) : Host.Outcome State Fault Refusal :=
  .next (s.supervise fun s => match s.tasks[s.subj]? with
    | some t => if t.state == .running then s.killTask t (.taskKilled t.va 0 0 0 0 0xFFFF) else s
    | none => s)

/-- SUPERVISOR_PREEMPT of the subject's task: one with a halted core (19 R352). -/
def execSupervisorPreempt (s : State) : Host.Outcome State Fault Refusal :=
  .next (s.supervise fun s => match s.tasks[s.subj]? with
    | some t => if t.cores.any fun c => (s.core c).status == .halted then s.requestPreempt t preemptForced else s
    | none => s)

/-! ### Regions -/

/-- A field of a block of 256 bytes. -/
def blockField (b off n : Nat) : Nat := bitsOf b (8 * off) (8 * n)

/-- A reserved field is nonzero, an own field out of range, or the id differs from the index (20 R356, R359). -/
def blockBad (b id : Nat) (own : Nat → Bool) : Bool :=
  let f := blockField b
  f 0 2 != id
    || bitsOf (f 5 1) 2 6 != 0 || bitsOf (f 6 1) 2 6 != 0 || bitsOf (f 7 1) 4 4 != 0 || bitsOf (f 8 4) 19 13 != 0
    || f 0x0E 2 != 0 || f 0x2C 4 != 0 || f 0x60 32 != 0
    || (own 0 && decide (11 < f 4 1)) || (own 1 && bitsOf (f 5 1) 0 2 == 3) || (own 4 && decide (8 < bitsOf (f 7 1) 0 4))
    || (own 5 && decide (16384 < f 0x0C 2)) || (own 6 && !decide (1 ≤ f 0x10 2 ∧ f 0x10 2 ≤ 256)) || (own 7 && decide (1024 < f 0x12 2))
    || (own 8 && !decide (1 ≤ f 0x14 2 ∧ f 0x14 2 ≤ 1024)) || (own 9 && decide (512 < f 0x16 2)) || (own 11 && decide (16384 < f 0x1C 4))
    || (own 14 && f 0x28 4 % 32 != 0) || (own 16 && (f 0x38 8 % 0x10000 != 0 || f 0x40 8 % 0x10000 != 0))
    || (own 18 && f 0x50 8 % 32 != 0)

/-- The fields of a block resolved against its parent's (20 R357). A root has no parent to take a field from: every field is its
own (log 38). -/
def resolveRegion (b id : Nat) (parent : Option Region) : Region :=
  let f := blockField b
  let mask := f 8 4
  let take := fun (bit v : Nat) (get : Region → Nat) => match parent with
    | some p => if bitsOf mask bit 1 == 1 then v else get p
    | none => v
  let clip := fun (v : Nat) (get : Region → Nat) => match parent with
    | some p => min v (get p)
    | none => v
  { id := id
    parent := match parent with | some p => p.id | none => id
    prio := clip (take 0 (f 4 1) (·.prio)) (·.prio)
    policy := take 1 (bitsOf (f 5 1) 0 2) (·.policy)
    super := take 2 (bitsOf (f 6 1) 0 1) (b2n ·.super) == 1
    wy := take 3 (bitsOf (f 6 1) 1 1) (b2n ·.wy) == 1
    stash := take 4 (bitsOf (f 7 1) 0 4) (·.stash)
    override := mask
    depth := take 5 (f 0x0C 2) (·.depth)
    maxCores := clip (take 6 (f 0x10 2) (·.maxCores)) (·.maxCores)
    mtickets := take 7 (f 0x12 2) (·.mtickets)
    dtickets := take 8 (f 0x14 2) (·.dtickets)
    strands := clip (take 9 (f 0x16 2) (·.strands)) (·.strands)
    floor := take 10 (f 0x18 4) (·.floor)
    quota := take 11 (f 0x1C 4) (·.quota)
    sticky := clip (take 12 (f 0x20 4) (·.sticky)) (·.sticky)
    wyThr := take 13 (f 0x24 4) (·.wyThr)
    trapRec := take 14 (f 0x28 4) (·.trapRec)
    handler := BitVec.ofNat 64 (take 15 (f 0x30 8) (·.handler.toNat))
    saveIa := take 16 (f 0x38 8) (·.saveIa)
    saveLen := take 16 (f 0x40 8) (·.saveLen)
    groups := BitVec.ofNat 64 (take 17 (f 0x48 8) (·.groups.toNat))
    winset := take 18 (f 0x50 8) (·.winset) }

/-- The enabled partition whose root a region id is (20 R359, 25 R419). -/
def State.partOfRoot (s : State) (id : Nat) : Option Nat :=
  (List.range 8).find? fun p => ((s.parts[p]?).map fun q => q.ctl.getLsbD 0 && bitsOf q.ctl.toNat 16 16 == id).getD false

/-- Pending entries that no root has carved (20 R357, R358). -/
def State.poolUncarved (s : State) : Nat := 16384 - (s.regions.filter fun r => r.parent == r.id).foldl (fun n r => n + r.quota) 0

/-- The uncarved remainder that a region of this parent would carve a field from: mask bit 11 quota, 10 floor (20 R357; 22 R387). -/
def State.remainder (s : State) (bit id : Nat) (parent : Option Region) : Nat :=
  match parent with
  | some p => ((s.holder bit p.id).map (s.uncarved bit)).getD 0
  | none =>
    if bit = 11 then s.poolUncarved
    else match s.partOfRoot id with
      | some p => ((s.power.effFloors[p]?).map (·.toNat)).getD 0
      | none => 0

/-- A root's strands are clipped to its partition's ceiling (25 R419). -/
def State.clipRoot (s : State) (r : Region) : Region :=
  match s.partOfRoot r.id with
  | some p => if r.parent == r.id then { r with strands := min r.strands (((s.parts[p]?).map (·.strands.toNat)).getD 0) } else r
  | none => r

/-- The save area is below the largest record that one task can reserve (20 R359). -/
def saveShort (r : Region) : Bool :=
  let c := min r.maxCores 32
  decide (r.saveLen < saveRecord c 1504 16384 r.stash (min c 8))

/-- trap_rec lies outside what the stash leaves, or the handler is misaligned (20 R359). -/
def trapBad (r : Region) : Bool := decide (0x100000 - 0x10000 * r.stash < r.trapRec + 32) || r.handler.toNat % 32 != 0

/-- The block of a region, where the table is readable. -/
def State.readBlock (s : State) (id : Nat) : State × Option Nat :=
  match s.fetchIa (s.rtabBase.toNat + 256 * id) 256 with
  | (s, some bs) => (s, some (natOfBytes bs))
  | (s, none) => (s, none)

/-- A request is over: its id and its result (20 R358). -/
def State.regResult (s : State) (id code : Nat) : State := { s with regStat := BitVec.ofNat 32 (id + code * 2 ^ 16) }

/-- The quota share that a region draws on has so much left (20 R357, R359). -/
def State.shareLeft (s : State) (id : Nat) : Nat := ((s.holder 11 id).map (s.uncarved 11)).getD 0

/-- The start list from an entry on: each descriptor is accepted as if spawned from within the region; one that fails is a graph
error (20 R359). -/
def State.walkStart (s : State) (id : Nat) (wins : Vector Window 8) (at_ : Nat) : Nat → State
  | 0 => s
  | fuel + 1 =>
    let who : Requester := .engine (s.partOfRegion id) id 0
    match s.readVa who wins { r := true } at_ 8 with
    | .error (cls, addr) => s.logModuleViolation cls addr 0
    | .ok (s, bs) =>
      let va := BitVec.ofNat 64 (natOfBytes bs)
      if va = 0 then s
      else
        let fail := fun (s : State) => s.postEvent id { kind := 2, info := va.toNat % 2 ^ 48, task := 0 } (.graphError va 0)
        let s := match s.submit va who wins id none with
          | (s, .failed _) => fail s
          | (s, .violation cls addr) => fail (s.logModuleViolation cls addr 0)
          | (s, _) => s
        State.walkStart s id wins (at_ + 8) fuel

/-- The result of a start request (20 R359): the lowest code that applies (log 38). -/
def State.startCode (s : State) (b id : Nat) (parent : Option Region) (r : Region) (fromCore : Bool) : Nat :=
  let own := fun bit => bitsOf r.override bit 1 == 1 || blockField b 2 2 == id
  let root := blockField b 2 2 == id
  let share := State.shareLeft { s with regions := s.regions ++ [r] } id
  (([ (1, blockBad b id own)
    , (2, if root then (s.partOfRoot id).isNone else parent.isNone)
    , (3, (s.region id).isSome)
    , (4, (r.carved 11 && decide (s.remainder 11 id parent < r.quota)) || (r.carved 10 && decide (s.remainder 10 id parent < r.floor))
        || decide (share < r.depth))
    , (5, r.super && fromCore)
    , (6, trapBad r)
    , (7, saveShort r) ] : List (Nat × Bool)).find? (·.2)).elim 0 (·.1)

/-- A start of region id is requested (20 R357-R359). A block that cannot be read gives result 1 (log 38). -/
def State.startRegion (s : State) (id : Nat) (fromCore : Bool) : State :=
  match s.readBlock id with
  | (s, none) => s.regResult id 1
  | (s, some b) =>
    let pid := blockField b 2 2
    let parent := if pid = id then none else s.region pid
    let r := s.clipRoot (resolveRegion b id parent)
    match s.startCode b id parent r fromCore with
    | 0 =>
      let s := { s with regions := s.regions ++ [r] }
      let s := s.regResult id 0
      let list := blockField b 0x58 8
      if list = 0 then s
      else
        let (s, wins) := s.winset id
        s.walkStart id wins list (2 ^ 45)
    | code => s.regResult id code

/-- The result of an update: the checks that apply to the fields that change (20 R357). -/
def State.updateCode (s : State) (b : Nat) (parent : Option Region) (old r : Region) (fromCore : Bool) : Nat :=
  let own := fun bit => bitsOf r.override bit 1 == 1 || old.parent == old.id
  let root := old.parent == old.id
  let room := fun bit => s.remainder bit old.id parent + (if old.carved bit && !(root && bit == 10) then old.share bit else 0)
  let share := (s.modRegion old.id fun _ => { r with parent := old.parent }).shareLeft old.id
  (([ (1, blockBad b old.id own)
    , (4, (r.carved 11 && (r.quota != old.quota || !old.carved 11) && decide (room 11 < r.quota)) || (r.carved 10 && (r.floor != old.floor || !old.carved 10) && decide (room 10 < r.floor))
        || ((r.quota != old.quota || r.depth != old.depth) && decide (share < r.depth)))
    , (5, r.super && !old.super && fromCore)
    , (6, (r.trapRec != old.trapRec || r.stash != old.stash || r.handler != old.handler) && trapBad r)
    , (7, (r.saveLen != old.saveLen || r.maxCores != old.maxCores || r.stash != old.stash) && saveShort r) ] : List (Nat × Bool)).find? (·.2)).elim 0 (·.1)

/-- An update of a started region is requested (20 R357). One that is not started gives result 2 (log 38). -/
def State.updateRegion (s : State) (id : Nat) (fromCore : Bool) : State :=
  match s.region id, s.readBlock id with
  | none, (s, _) => s.regResult id 2
  | some _, (s, none) => s.regResult id 1
  | some old, (s, some b) =>
    let parent := if old.parent = id then none else s.region old.parent
    let r := s.clipRoot (resolveRegion b id parent)
    match s.updateCode b parent old r fromCore with
    | 0 =>
      let s := s.modRegion id fun x => { r with parent := old.parent, events := x.events, pass := x.pass, wasActive := x.wasActive }
      (s.l2Release { r with parent := old.parent }).regResult id 0
    | code => s.regResult id code

/-- Waiters whose child a retry would accept now, into a region that is about to be killed: the kill comes first, and the retry
fails (20 R370). -/
def State.doomedWaiters (s : State) (id : Nat) : List (Task × Word) :=
  s.spawnWaiters.filter fun (t, c) =>
    match s.submit c (s.forTask t) (s.winset t.region).2 t.region (some t.va) with
    | (s', .accepted) => match s'.task c with
      | some k => ((s'.nearestStarted 65536 k.region).map fun r => s'.within r id).getD false
      | none => false
    | _ => false

/-- A kill of region id and every region below it (20 R360). -/
def State.killRegion (s : State) (id : Nat) : State :=
  let doomed := s.doomedWaiters id
  let s := s.killSubtree id
  let s := doomed.foldl (fun s (t, c) => if (s.task t.va).isSome then (s.logModule c.toNat t.va 2 causeFatal).killParent t 6 c else s) s
  s.promote.regResult id 0

/-- REG_START by the supervisor complex (20 R358, R359). -/
def execRegStart (v : Word) (s : State) : Host.Outcome State Fault Refusal := .next (s.superviseBooted fun s => s.startRegion (v.toNat % 2 ^ 16) false)

/-- REG_KILL by the supervisor complex (20 R358, R360). -/
def execRegKill (v : Word) (s : State) : Host.Outcome State Fault Refusal := .next (s.supervise fun s => s.killRegion (v.toNat % 2 ^ 16))

/-- REG_UPDATE by the supervisor complex (20 R357, R358). -/
def execRegUpdate (v : Word) (s : State) : Host.Outcome State Fault Refusal := .next (s.supervise fun s => s.updateRegion (v.toNat % 2 ^ 16) false)

end Sys2Proof.Machine
end

