-- ==== Sys2Proof/Machine/Lease.lean ====
section
/-! DEFINITION. Lease instructions, the lease engine's decisions and timing, and the routing of packets (15 R307, R308,
R311-R323). -/

namespace Sys2Proof.Machine

/-! ### Instructions -/

/-- Ticks of a duration code (15 R312). -/
def durationTicks (dur : BitVec 3) : Nat :=
  (match dur.toNat with
  | 0 => 1
  | 1 => 2
  | 2 => 5
  | 3 => 10
  | 4 => 20
  | 5 => 50
  | _ => 100) * 1000 * usTicks

/-- Where an 8-byte word at a VA stands for the issuing core's windows. -/
def State.wordTarget (s : State) (va : Nat) : Target :=
  match translate s.me.sys.wins { w := true } va with
  | .error cls => .bad cls va
  | .ok ia => if va % 8 ≠ 0 then .bad clsAlign va else .global ia

/-- The status word's place; s0 names none (15 R312). -/
def State.statusTarget (s : State) (status : BitVec 5) : Option Target :=
  if status = 0 then none else some (s.wordTarget (s.me.rs status).toNat)

/-- What is found at issue at an address: on this module no resident page, or a scope that does not admit the core; on a peer, that no module
is trained there. What a peer's own memory side finds comes with its answer (15 R312, R313; 05 R97, R102). -/
def State.pageFails (s : State) (ia : Nat) : Option Raise :=
  if !s.onModule ia then failIf (!s.isTrained (iaModule ia)) (.violation clsNoModule ia)
  else match s.checkPage (.core s.cur) (s.page (iaLocal ia)) with
    | .error cls => some (.violation cls ia)
    | .ok _ => none

/-- The violation of a status field (15 R312). -/
def State.statusFails (s : State) (status : BitVec 5) : Option Raise :=
  match s.statusTarget status with
  | some (.bad cls addr) => some (.violation cls addr)
  | some (.global ia) => s.pageFails ia
  | _ => none

/-- LEASEDENY where the offsets name no direct peer (15 R312). -/
def denyOffset (drow dcol : BitVec 4) : Option Raise := failIf ((drow == 0) == (dcol == 0)) (.trap 0x09 1 0)

/-- LEASEDENY in a region without a strand budget (15 R312). -/
def State.denyBudget (s : State) : Option Raise := failIf ((s.regionOf s.cur).elim true fun r => r.strands == 0) (.trap 0x09 2 0)

/-- A request on its way to the lease engine (15 R311). -/
def State.askLease (s : State) (op : Nat) (drow dcol : BitVec 4) (n : Nat) (dur : Nat) (status : BitVec 5) : State :=
  let c := s.me
  let r : LeaseReq :=
    { core := s.cur, task := c.ctl.taskid, region := c.ctl.region.toNat, level := ((s.taskOf s.cur).map s.level).getD 0, op := op
      drow := drow, dcol := dcol, n := n, dur := dur, status := s.statusTarget status
      event := if c.ctl.lstat = 0 then none else some (s.wordTarget c.ctl.lstat.toNat) }
  { s with leaseReqs := s.leaseReqs ++ [r] }

/-- What LEASE meets at issue (15 R312). -/
def State.trapLease (s : State) (drow dcol : BitVec 4) (n : BitVec 6) (dur : BitVec 3) (status : BitVec 5) : Option Raise :=
  pickRaise [failIf (n == 0 || dur == 7) s.illegal, denyOffset drow dcol, s.denyBudget, s.statusFails status]

/-- LEASE (15 R312). -/
def execLease (drow dcol : BitVec 4) (n : BitVec 6) (dur : BitVec 3) (status : BitVec 5) (s : State) : Host.Outcome State Fault Refusal :=
  .next (s.orRaise (s.trapLease drow dcol n dur status) fun s => s.askLease 0 drow dcol n.toNat (durationTicks dur) status)

/-- LREL (15 R312, R318). -/
def execLrel (drow dcol : BitVec 4) (n : BitVec 6) (status : BitVec 5) (s : State) : Host.Outcome State Fault Refusal :=
  .next (s.orRaise (pickRaise [denyOffset drow dcol, s.statusFails status]) fun s => s.askLease 1 drow dcol n.toNat 0 status)

/-- LRENEW: duration code 7 is reserved and ILLEGAL (15 R312, R317). -/
def execLrenew (drow dcol : BitVec 4) (dur : BitVec 3) (status : BitVec 5) (s : State) : Host.Outcome State Fault Refusal :=
  .next (s.orRaise (pickRaise [failIf (dur == 7) s.illegal, denyOffset drow dcol, s.statusFails status]) fun s =>
    s.askLease 2 drow dcol 0 (durationTicks dur) status)

/-- The task's leases and requests to a peer. -/
def State.leasesTo (s : State) (task : Word) (p : Nat) : List Lease := s.leases.filter fun l => l.task == task && l.peer == p

/-- What LQRY returns (15 R320). -/
def State.queryLease (s : State) (task : Word) (drow dcol : BitVec 4) : Nat :=
  match s.peerAt drow dcol with
  | none => 0
  | some p =>
    let mine := s.leasesTo task p
    let held := mine.foldl (fun n l => n + s.held l.id) 0
    let pend := mine.foldl (fun n l => n + l.ungranted) 0
    let left := match (mine.filter fun l => decide (0 < s.held l.id)).filterMap (·.expiry) with
      | [] => 0
      | e :: es => min 0xFFFFFF ((es.foldl min e - s.now) / usTicks)
    s.total p % 2 ^ 7 + held % 2 ^ 7 * 2 ^ 7 + pend % 2 ^ 6 * 2 ^ 14 + (s.poolFree (peerRouter p)).length % 2 ^ 9 * 2 ^ 20 + 2 ^ 29
      + left * 2 ^ 32

/-- LQRY: readable 16 sc later (15 R320). -/
def execLqry (drow dcol : BitVec 4) (d : BitVec 5) (s : State) : Host.Outcome State Fault Refusal :=
  .next (s.orRaise (denyOffset drow dcol) fun s =>
    s.emit 16 (.s d (BitVec.ofNat 64 (s.queryLease s.me.ctl.taskid drow dcol))))

/-! ### Acceptance -/

/-- Strands held and pending of a region's subtree (15 R311, R314). -/
def State.leaseUse (s : State) (id : Nat) : Nat :=
  (s.leases.filter fun l => s.within l.region id).foldl (fun n l => n + s.held l.id + l.ungranted) 0

/-- The strand budget of the region or of one above it is exceeded (15 R314). -/
def State.overBudget (s : State) (region n : Nat) : Bool := (s.upTree region).any fun r => decide (r.strands < s.leaseUse r.id + n)

/-- Why a request is refused: 2 NOPEER, 3 BUSY, 1 BUDGET, 4 CEILING (15 R314). -/
def State.refuseLease (s : State) (r : LeaseReq) : Option Nat :=
  match s.peerAt r.drow r.dcol with
  | none => some 2
  | some p =>
    if 8 ≤ (s.leases.filter fun l => l.task == r.task && decide (0 < l.ungranted)).length then some 3
    else if s.overBudget r.region r.n then some 1
    else if 64 ≤ s.committed p then some 4
    else none

/-- Strands start their retune towards a lease. -/
def State.claim (s : State) (l : Lease) (floor : Bool) (ids : List StrandId) : State :=
  (s.departStrands ids).modAllocs ids fun a =>
    { a with moving := some (.lease l.id l.peer, s.now + retuneTicks), notice := none, floorGrant := floor }

/-- The pool strands that a request takes (15 R314). -/
def State.takePool (s : State) (l : Lease) : State :=
  let (s, ids) := s.pick (s.want l) (s.poolFree (peerRouter l.peer))
  s.claim l false ids

/-- Default strands of a peer that stand still. -/
def State.defaults (s : State) (q : Nat) : List StrandId := s.strandsWhere fun a => a.use == .default q && a.still

/-- Strands that a peer holds above its floor (15 R306, R314). -/
def State.aboveFloor (s : State) (q : Nat) : Nat := s.committed q - 4

/-- The other peers of a peer's router. -/
def otherPeers (p : Nat) : List Nat := ((List.range 15).map (· + 15 * peerRouter p)).filter fun q => q != p

/-- Of some peers, the one that holds the most strands; a tie goes to the lower peer index (15 R314). -/
def State.largest (s : State) (l : List Nat) : Option Nat :=
  l.foldl (fun best q => match best with
    | none => some q
    | some b => if s.committed b < s.committed q ∨ (s.committed b = s.committed q ∧ q < b) then some q else some b) none

/-- Default strands of other peers, peer by peer, with fuel for the peers of the router (15 R314). -/
def State.takeDefaults (s : State) (l : Lease) : Nat → State
  | 0 => s
  | fuel + 1 =>
    if s.want l = 0 then s
    else match s.largest ((otherPeers l.peer).filter fun q => !(s.defaults q).isEmpty && decide (0 < s.aboveFloor q)) with
      | none => s
      | some q =>
        let (s, ids) := s.pick (min (s.want l) (s.aboveFloor q)) (s.defaults q)
        State.takeDefaults (s.claim l false ids) l fuel

/-- Strands of a lease that are not under notice. -/
def State.freeOf (s : State) (v : Lease) : List StrandId := s.strandsWhere fun a => a.use.ofLease v.id && a.still

/-- Lease a was granted more recently than b, by the times of their first parts (15 R317). -/
def Lease.grantedAfter (a b : Lease) : Bool :=
  let x := a.grantedAt.getD 0
  let y := b.grantedAt.getD 0
  decide (y < x) || (x == y && decide (b.id < a.id))

/-- Victims in order: lowest level first, and within a level the most recently granted first (15 R314). -/
def Lease.victimBefore (a b : Lease) : Bool :=
  decide (a.level < b.level) || (a.level == b.level && a.grantedAfter b)

/-- A lease put at its place among victims. -/
def insertVictim (x : Lease) : List Lease → List Lease
  | [] => [x]
  | y :: l => if x.victimBefore y then x :: y :: l else y :: insertVictim x l

/-- The holder of a lease is sent NOTICE for strands that another request takes; none that its peer's floor needs (15 R314, R315). -/
def State.notify (s : State) (v l : Lease) (k : Nat) (floor : Bool) : State :=
  let (s, ids) := s.pick (min k (s.aboveFloor v.peer)) (s.freeOf v)
  if ids.isEmpty then s
  else
    let s := s.modAllocs ids fun a => { a with notice := some (.lease l.id l.peer, s.now + noticeTicks), floorGrant := floor }
    s.leaseEvent v 2 ids.length

/-- Strands of other peers' leases at lower levels (15 R314). -/
def State.takeVictims (s : State) (l : Lease) : State :=
  let vs := (s.leases.filter fun v => v.peer != l.peer && peerRouter v.peer == peerRouter l.peer && decide (v.level < l.level)).foldr insertVictim []
  vs.foldl (fun s v => if s.want l = 0 then s else s.notify v l (s.want l) false) s

/-- LEASE at the engine (15 R314). -/
def State.admitLease (s : State) (r : LeaseReq) : State :=
  match s.refuseLease r, s.peerAt r.drow r.dcol with
  | some why, p => s.writeStatus r.status r.core s.nextLease r.task 3 why 0 ((p.map s.total).getD 0)
  | none, none => s
  | none, some p =>
    let room := 64 - s.committed p
    let l : Lease :=
      { id := s.nextLease, task := r.task, core := r.core, region := r.region, level := r.level, drow := r.drow, dcol := r.dcol, peer := p
        n := min r.n room, dur := r.dur, status := r.status, event := r.event, ceiling := decide (room < r.n), acceptedAt := s.now }
    let s := { s with leases := s.leases ++ [l], nextLease := s.nextLease + 1 }
    let s := s.leaseStatus l 0 0
    ((s.takePool l).takeDefaults l 15).takeVictims l

/-- Newest request first. -/
def insertNewest (x : Lease) : List Lease → List Lease
  | [] => [x]
  | y :: l => if y.id < x.id then x :: y :: l else y :: insertNewest x l

/-- Pending strands cancelled, newest request first, those that retune for it among them; how many are left to find. A request that loses some
of them writes a status word and goes on (15 R313, R318). -/
def State.cancelStrands (s : State) (mine : List Lease) (lim : Nat) : State × Nat :=
  (mine.foldr insertNewest []).foldl (fun (s, lim) l =>
    let w := l.ungranted
    let m := min w lim
    if m = 0 then (s, lim)
    else
      let s := s.modLease l.id fun l => { l with n := l.n - m, cut := true }
      (if m = w then s.leaseStatus l 3 6 else s.leaseStatus l (if l.got = 0 then 0 else 1) 6, lim - m)) (s, lim)

/-- Most recently granted first. -/
def insertLatest (x : Lease) : List Lease → List Lease
  | [] => [x]
  | y :: l => if x.grantedAfter y then x :: y :: l else y :: insertLatest x l

/-- The held strands of a task to a peer in the order in which LREL releases them (15 R318). -/
def State.releaseOrder (s : State) (mine : List Lease) : List StrandId :=
  let l := mine.foldr insertLatest []
  (l.flatMap fun x => s.strandsWhere fun a => a.use.ofLease x.id && a.notice.isSome)
    ++ l.flatMap fun x => s.strandsWhere fun a => a.use.ofLease x.id && a.notice.isNone

/-- LREL at the engine (15 R318). -/
def State.releaseLease (s : State) (r : LeaseReq) : State :=
  match s.peerAt r.drow r.dcol with
  | none => s.writeStatus r.status r.core s.nextLease r.task 3 2 0 0
  | some p =>
    let s := s.accrue
    let mine := s.leasesTo r.task p
    let all := mine.foldl (fun n l => n + l.ungranted + s.held l.id) 0
    let lim := if r.n = 0 then all else r.n
    let (s, lim') := s.cancelStrands mine lim
    let ids := (s.releaseOrder mine).take lim'
    let s := s.leaveLeases ids
    let done := lim - lim' + ids.length
    let s := s.writeStatus r.status r.core s.nextLease r.task (if done = 0 then 3 else 4) (if done = 0 then 5 else 0) done (s.total p)
    s.sweepLeases

/-- LRENEW at the engine: every request of the task to the peer that has been granted in whole or in part (15 R317). -/
def State.renewLease (s : State) (r : LeaseReq) : State :=
  match s.peerAt r.drow r.dcol with
  | none => s.writeStatus r.status r.core s.nextLease r.task 3 2 0 0
  | some p =>
    let granted := (s.leasesTo r.task p).filter (·.grantedAt.isSome)
    let n := granted.foldl (fun n l => n + s.held l.id) 0
    let s := granted.foldl (fun s l => s.modLease l.id fun l => { l with expiry := some (s.now + r.dur) }) s
    s.writeStatus r.status r.core s.nextLease r.task (if n = 0 then 3 else 5) (if n = 0 then 5 else 0) n (s.total p)

/-- LEASE_ACCEPT: the engine takes up the oldest request (15 R311, R314, R317, R318). -/
def execLeaseAccept (s : State) : Host.Outcome State Fault Refusal :=
  .next (match s.leaseReqs with
    | [] => s
    | r :: rest =>
      let s := { s with leaseReqs := rest }
      match r.op with
      | 0 => s.admitLease r
      | 1 => s.releaseLease r
      | _ => s.renewLease r)

/-! ### Timing -/

/-- LEASE_NOTICE_END: the subject's strand, with those noticed together with it, leaves its holder and retunes (15 R315). -/
def execLeaseNoticeEnd (s : State) : Host.Outcome State Fault Refusal :=
  .next (match s.alloc[s.subj]? with
    | some ⟨.lease id peer, _, some (u, t), _⟩ =>
      if s.now < t then s
      else
        let s := s.accrue
        let ids := s.strandsWhere fun a => a.use == .lease id peer && a.notice == some (u, t)
        let s := s.departStrands ids
        let s := s.modAllocs ids fun a => { a with use := .pool, moving := some (u, s.clearTick ids + retuneTicks), notice := none }
        let s := match s.lease id with | some v => s.leaseEvent v 3 ids.length | none => s
        s.sweepLeases
    | _ => s)

/-- Strands arrive at a lease: GRANT or FLOORGRANT, and the status. Those that have been cancelled meanwhile are free (15 R314-R319). -/
def State.landLease (s : State) (l : Lease) (all : List StrandId) (floor : Bool) : State :=
  let s := s.accrue
  let ids := all.take l.ungranted
  let s := s.freeStrands (all.drop l.ungranted)
  if ids.isEmpty then s.sweepLeases
  else
  let s := ids.foldl (fun s i => s.moveRings i l.peer) s
  let s := s.modAllocs ids fun _ => { use := .lease l.id l.peer }
  let s := s.modLease l.id fun l =>
    { l with got := l.got + ids.length, grantedAt := l.grantedAt.or (some s.now), expiry := l.expiry.or (some (s.now + l.dur)) }
  match s.lease l.id with
  | none => s
  | some l =>
    let s := s.leaseEvent l (if floor then 5 else 1) ids.length
    let done := l.ungranted == 0
    s.leaseStatus l (if done then 2 else 1) (if l.cut then 6 else if done && l.ceiling then 4 else 0)

/-- Strands whose retune is over take up their use. What was found for a request that is gone, or comes to the pool while requests
wait, moves on (15 R315, R317, R319); one whose every channel is disabled comes to the pool (24 R410). -/
def State.land (s : State) (u : StrandUse) (all : List StrandId) (floor : Bool) : State :=
  let lit := s.lit
  let ids := all.filter fun i => lit.testBit i.val
  let s := s.modAllocs (all.filter fun i => !lit.testBit i.val) fun _ => {}
  match u with
  | .lease id _ =>
    match s.lease id with
    | some l => s.landLease l ids floor
    | none => s.freeStrands ids
  | .default p =>
    let s := ids.foldl (fun s i => s.moveRings i p) s
    s.modAllocs ids fun _ => { use := .default p }
  | .floor p => s.modAllocs ids fun _ => { use := .floor p }
  | .pool =>
    ids.foldl (fun s i =>
      if (s.nextRequest (i.val / 256)).isSome then s.freeStrand (s.now + retuneTicks) i else s.modAlloc i fun _ => { use := .pool }) s

/-- STRAND_RETUNE_DONE: the subject's strand, with those that move with it (15 R315). -/
def execStrandRetuneDone (s : State) : Host.Outcome State Fault Refusal :=
  .next (match s.alloc[s.subj]? with
    | some ⟨_, some (u, t), _, floor⟩ =>
      if s.now < t then s
      else s.land u (s.strandsWhere fun a => a.moving == some (u, t) && a.floorGrant == floor) floor
    | _ => s)

/-- The default strands and leases of a peer that R316 may take from. -/
def State.starvable (s : State) (q : Nat) : Bool :=
  !(s.defaults q).isEmpty || s.leases.any fun v => v.peer == q && !(s.freeOf v).isEmpty

/-- LEASE_STARVATION_GRANT of the subject's request (15 R316). -/
def execLeaseStarvationGrant (s : State) : Host.Outcome State Fault Refusal :=
  .next (match s.leases[s.subj]? with
    | none => s
    | some l =>
      if l.starved || l.got != 0 || s.want l == 0 || decide (s.now < l.acceptedAt + 200 * usTicks) then s
      else match s.largest ((otherPeers l.peer).filter s.starvable) with
        | none => s
        | some q =>
          let need := min (min (min (s.want l) 4) (64 - s.committed l.peer)) (s.aboveFloor q)
          let s := s.modLease l.id fun l => { l with starved := true }
          let (s, ids) := s.pick need (s.defaults q)
          let s := s.claim l true ids
          let vs := (s.leases.filter fun v => v.peer == q).foldr insertVictim []
          (vs.foldl (fun (s, k) v =>
            let m := min k (s.freeOf v).length
            (if m = 0 then s else s.notify v l m true, k - m)) (s, need - ids.length)).1)

/-- Strands that retune towards a lease. -/
def State.retuning (s : State) (id : Nat) : Nat := (s.strandsWhere fun a => (a.moving.map fun m => m.1.ofLease id).getD false).length

/-- LEASE_EXPIRY of the subject's lease: its strands leave without notice, what is pending is cancelled (15 R317, R323). -/
def execLeaseExpiry (s : State) : Host.Outcome State Fault Refusal :=
  .next (match s.leases[s.subj]? with
    | none => s
    | some l =>
      match l.expiry with
      | none => s
      | some t =>
        if s.now < t then s
        else
          let s := s.accrue
          let n := s.held l.id + s.retuning l.id
          let ids := s.leaseStrands l.id
          let s := { s with leases := s.leases.filter fun x => x.id != l.id }.leaveLeases ids
          let s := if n = 0 then s else s.leaseEvent l 4 n
          if 0 < l.ungranted then s.leaseStatus l 3 6 else s)

/-! ### Routing -/

/-- Flits queued for a peer and its active channels: the score as a fraction (15 R307). -/
def State.score (s : State) (p : Nat) : Nat × Nat :=
  let l := s.strandsOf p
  (l.foldl (fun n i => n + s.queueDepth i) 0, l.foldl (fun n i => n + s.width i) 0)

/-- A score lies below another; one without an active channel lies above every other. -/
def scoreLt (a b : Nat × Nat) : Bool :=
  if b.2 = 0 then a.2 != 0 else a.2 != 0 && decide (a.1 * b.2 < b.1 * a.2)

/-- A score above 64 flits per active channel (15 R308). -/
def scoreHigh (a : Nat × Nat) : Bool := a.2 == 0 || decide (64 * a.2 < a.1)

/-- The strands of a peer that take a new packet: those whose buffer is not full (24 R409). -/
def State.openStrands (s : State) (p : Nat) : List StrandId := (s.strandsOf p).filter fun i => decide (s.queueDepth i < 1024)

/-- The peer has given credit in the buffer of a class and a virtual channel; what it has free there is its own (15 R307, R309; log 59). -/
def State.hasCredit (s : State) (p : Nat) (response : Bool) (vc : VChan) : Bool :=
  let k := match vc with | .detour => 0 | .first => 1 | .second => 2
  Config.freeBool (s.choices * 256 + (2 * p + b2n response) * 3 + k)

/-- The channel that a packet takes on a minimal hop: after VC-first comes VC-second, and never the other way; a packet that has come on
VC-second is at its end (15 R309). -/
def Packet.nextChan (k : Packet) : Option VChan :=
  match k.via with
  | none | some (_, .detour) => some .first
  | some (_, .first) => some .second
  | some (_, .second) => none

/-- The minimal first hops to where a packet goes, row first (15 R307). -/
def State.minimalHops (s : State) (k : Packet) : List Nat :=
  let rowHop := if k.col = s.myCol then none else some ((k.col + 16 - s.myCol - 1) % 16)
  let colHop := if k.row = s.myRow then none else some (15 + (k.row + 16 - s.myRow - 1) % 16)
  (rowHop.toList ++ colHop.toList).filter s.peerPresent

/-- A packet can set out for a peer on a channel: a strand takes it, and the channel has credit (15 R307, 24 R409). -/
def State.canSend (s : State) (k : Packet) (vc : VChan) (p : Nat) : Bool := !(s.openStrands p).isEmpty && s.hasCredit p k.response vc

/-- Of some peers in the order of ties the one with the lowest score (15 R307, R308). -/
def State.lowest (s : State) (l : List Nat) : Option Nat :=
  l.foldl (fun best p => match best with
    | none => some p
    | some b => if scoreLt (s.score p) (s.score b) then some p else some b) none

/-- The next hop of a packet: minimal, or under congestion a detour, which only its source module may choose (15 R307-R309). None where it can
set out nowhere now. A candidate without credit yields to one that has it. -/
def State.nextHop (s : State) (k : Packet) : Option Nat :=
  let minimal := s.minimalHops k
  let others := ((List.range 30).filter fun p => s.peerPresent p && !minimal.contains p).filter (s.canSend k .detour)
  match k.nextChan with
  | none => none
  | some vc =>
    let direct := s.lowest (minimal.filter (s.canSend k vc))
    if k.via.isNone && !minimal.isEmpty && minimal.all fun p => scoreHigh (s.score p) then (s.lowest others).or direct else direct

/-- A packet sets out on its next hop, on one strand of that peer whose buffer is not full; which one is not architected (15 R305, R307; 24 R409).
None where it has to wait. -/
def State.sendPacket (s : State) (k : Packet) : Option State :=
  match s.nextHop k with
  | none => none
  | some p =>
    match s.pick 1 (s.openStrands p) with
    | (s, i :: _) => some (s.modStrand i fun x => x.push k.flits s.now)
    | (_, []) => none

/-- Two packets wait in one buffer: of one class, and from one peer on one channel, or both from this module (15 R309). -/
def Packet.sameBuffer (a b : Packet) : Bool := a.response == b.response && a.via == b.via

/-- Every buffer sends what it can, in its order; a packet that cannot go holds those behind it in its own buffer, and no other (15 R309,
24 R409). -/
def State.sendPackets (s : State) : State :=
  let r := s.packets.foldl (fun (r : State × List Packet) k =>
    if r.2.any k.sameBuffer then (r.1, r.2 ++ [k])
    else match r.1.sendPacket k with
      | some t => (t, r.2)
      | none => (r.1, r.2 ++ [k])) (s, [])
  { r.1 with packets := r.2 }

/-- FABRIC_PACKET: a packet of some flits to a module, from this module or from a peer on a virtual channel, comes to its buffer, and the
buffers send; a packet that no strand can take waits there (15 R305, R307-R309; 24 R409). One that is at its end here, or that no present peer
leads on, goes nowhere by fabric. -/
def execFabricPacket (row col : BitVec 4) (flits : PacketFlits) (s : State) : Host.Outcome State Fault Refusal :=
  let k : Packet :=
    { row := row.toNat, col := col.toNat, flits := flits.count, response := flits.response, via := flits.via.map fun v => (v.1.val, v.2) }
  let s := if (s.minimalHops k).isEmpty || k.nextChan.isNone then s else { s with packets := s.packets ++ [k] }
  .next s.sendPackets

end Sys2Proof.Machine
end

