-- ==== Sys2Proof/Machine/Power.lean ====
section
/-! DEFINITION. The power manager: caps, tokens, floors, shedding, brown-out, gated banks and ways, and the power-fail warning
(22 R383-R391; 23 R395). -/

namespace Sys2Proof.Machine

/-! ### Quiet queues -/

/-- A command that a core's quiescing leaves as it is: one that ends by itself, and an array command, which stops at its pass boundary
(12 R267, 13 R285). -/
def State.staysQuiet (s : State) (c : CoreId) (k : Cmd) : Bool :=
  k.mustEnd || match k.kind with
    | .chain _ _ _ _ _ | .chgrad _ _ _ _ _ => true
    | .mma _ _ _ _ _ _ _ => s.passRunning c && k.phase == .reading
    | _ => false

/-- The queues of a core go quiet: each command completes or is recorded, and its grant ends, at the boundary of a pass that runs
(22 R388; 23 R395; 10 R212; 12 R267). -/
def State.quiesceCore (s : State) (c : CoreId) : State :=
  let keep := ((s.core c).q.all.filter (s.staysQuiet c)).map (·.id)
  let t := s.modCore c fun x => { x with q := x.q.mapAll fun k => if keep.contains k.id then k else k.record }
  let t := { t with accesses := t.accesses.filter fun a => match a.owner with
    | .cmd d _ id => d != c || keep.contains id
    | _ => true }
  if s.granted c && !s.passRunning c then t.endGrant (clusterOf c) else t

/-! ### The power-fail warning -/

/-- Joules left in the reserve, rounded up (23 R392). -/
def Hib.joules (h : Hib) : Nat := ceilDiv h.reserve 12000000000

/-- The core takes the warning: it hosts a task and issues, or will (23 R395, 28 R434). -/
def Core.takesWarning (c : Core) : Bool :=
  !c.shed && match c.status with
    | .running | .waiting _ | .filling _ => true
    | _ => false

/-- A warning reaches the holders of the arrays (12 R249, R267). -/
def State.warnArrays (s : State) : State :=
  let holders := allCores.filter s.granted
  let s := { s with clusters := s.clusters.map fun x => { x with grant := x.grant.map fun g => { g with ending := true } } }
  holders.foldl (fun s c => s.refreshArray (clusterOf c)) s

/-- A power-fail warning with its cause: 1 input loss, 2 a refused cap (23 R393, R395, R402); a migration in HOLD is abandoned (21 R380). -/
def State.warn (s : State) (cause : Nat) : State :=
  if s.hib.state != .run then s
  else
    let j := s.hib.joules
    let s := (allCores.filter fun c => (s.core c).takesWarning).foldl (fun s c => s.pendAsync c 0x14 (BitVec.ofNat 64 j) 0) s
    let s := s.warnArrays.abandonMigration
    { s with
      hib := { s.hib with state := .warn, cause := BitVec.ofNat 4 cause, since := s.now, reserveWarn := j }
      supEvents := s.supEvents ++ [.powerFail] }

/-! ### Shedding -/

/-- The cores of a die. -/
def dieCores (die : Nat) : List CoreId := allCores.filter fun c => coreDie c == die

/-- A core halts with its die (22 R388). -/
def State.shedCore (s : State) (c : CoreId) : State :=
  if (s.core c).shed then s else (s.quiesceCore c).modCore c fun x => { x with shed := true }

/-- A core goes on at its next bundle; the timer of its wait had stopped (22 R388). -/
def State.unshedCore (s : State) (c : CoreId) : State :=
  if !(s.core c).shed then s
  else s.modCore c fun x =>
    let gap := s.now - x.tick
    { x with shed := false, tick := max x.tick s.now, waitSince := x.waitSince + gap }

/-- The dies stand as the caps and brown-outs call for; from a power-fail warning on, shed dies stay at retention (22 R386, R389). -/
def State.applyShed (s : State) : State :=
  (List.range 8).foldl (fun s d =>
    if s.dieShed d then (dieCores d).foldl State.shedCore s
    else if !s.hib.state.leaving then (dieCores d).foldl State.unshedCore s
    else s) s

/-- The dies in the order in which they are shed (22 R391). -/
def Power.order (p : Power) : List Nat := (List.range 8).map fun j => bitsOf p.shedOrder.toNat (3 * j) 3

/-- A die mask with one bit written. -/
def setDie (m : BitVec 8) (d : Nat) (v : Bool) : BitVec 8 := BitVec.ofNat 8 (withBits m.toNat d 1 (b2n v))

/-- Dies that a cap sheds (22 R386). -/
def capDies (cap : Nat) : Nat := if cap < 420 then ceilDiv (420 - cap) 15 else 0

/-- The mask of dies shed by cap comes to k dies: further ones in order, or the latest back (22 R386). -/
def Power.shedTo (p : Power) (k : Nat) : BitVec 8 :=
  let have_ := p.order.filter fun d => p.shedCap.getLsbD d
  let rest := p.order.filter fun d => !p.shedCap.getLsbD d
  let keep := have_.take k ++ rest.take (k - have_.length)
  keep.foldl (fun m d => setDie m d true) 0

/-! ### Floors -/

/-- The floor in force for a partition, given the budget and the sum of all floors (22 R387). -/
def effFloor (budget sum floor : Nat) : Nat := if budget < sum then floor * budget / sum else floor

/-- Effective floors follow the budget; the supervisor hears of each that is scaled anew (22 R387). -/
def State.refloor (s : State) : State :=
  let p := s.power
  let sum := p.floors.toList.foldl (fun n f => n + f.toNat) 0
  let eff := p.floors.map fun f => BitVec.ofNat 32 (effFloor p.budget sum f.toNat)
  let scaled := decide (p.budget < sum) && eff != p.effFloors
  { s with
    power := { p with effFloors := eff }
    supEvents := s.supEvents ++ (if scaled then (List.range 8).map .floorScaled else []) }

/-! ### Registers -/

/-- A write of PW_CAP (22 R386): below 300 W it is refused and the module hibernates; the entry names the core that wrote
(19 R355). -/
def State.writeCap (s : State) (v : Word) (fromCore : Bool) : State :=
  let cap := v.toNat % 2 ^ 16
  if cap < 300 then
    let s := { s with power := { s.power with refusal := 1 } }
    (if fromCore then s.logCore s.cur cap 7 0 else s.logModule cap 0 7 0).warn 2
  else
    let p := { s.power with cap := BitVec.ofNat 16 cap }
    ({ s with power := { p with shedCap := p.shedTo (capDies cap) } }.applyShed).refloor

/-- A write of PW_GIVE (22 R385). -/
def State.writeGive (s : State) (v : Word) : State :=
  let n := bitsOf v.toNat 0 16
  let next := v.getLsbD 16
  let drow := BitVec.ofNat 4 (bitsOf v.toNat 20 4)
  let dcol := BitVec.ofNat 4 (bitsOf v.toNat 24 4)
  let m := s.peerModule drow dcol
  let direct := ((m / 16 == s.myRow) != (m % 16 == s.myCol)) && s.isTrained m
  let p := s.power
  let held := if next then p.tokNext.toNat else p.tokNow.toNat
  if !direct || n == 0 || decide (held < n + 420) then { s with power := { p with refusal := 2 } }
  else if next then { s with power := { p with tokNext := BitVec.ofNat 16 (held - n), netNext := p.netNext - n } }
  else { s with power := { p with tokNow := BitVec.ofNat 16 (held - n), netNow := p.netNow - n } }.refloor

/-- A write of PW_SHED: a permutation of the dies, else refusal 3 (22 R391). -/
def State.writeShed (s : State) (v : Word) : State :=
  let p := { s.power with shedOrder := v.setWidth 24 }
  if (List.range 8).all p.order.contains then { s with power := p } else { s with power := { s.power with refusal := 3 } }

/-- A write of PW_BO: ordered thresholds, else refusal 3 (22 R391). -/
def State.writeBo (s : State) (v : Word) : State :=
  let shed := bitsOf v.toNat 0 8
  let all := bitsOf v.toNat 8 8
  let restore := bitsOf v.toNat 16 8
  if all < shed ∧ shed < restore then
    { s with power := { s.power with boShed := BitVec.ofNat 8 shed, boAll := BitVec.ofNat 8 all, boRestore := BitVec.ofNat 8 restore } }
  else { s with power := { s.power with refusal := 3 } }

/-- A write of PW_LGATE of a core: gating loses a bank's contents at once, clearing a gate starts a wake (22 R390). -/
def State.writeLgate (s : State) (c : CoreId) (v : Word) : State :=
  s.modCore c fun x =>
    let new : BitVec 32 := v.setWidth 32
    let lost := (List.range 32).filter fun b => new.getLsbD b && !x.loc.gated.getLsbD b
    let woken := x.loc.gated &&& ~~~new
    { x with loc := { x.loc with
        lmem := lost.foldl (fun m b => Mem.clear m (b * 0x8000) 0x8000) x.loc.lmem
        gated := new
        waking := (x.loc.waking &&& ~~~new) ||| woken
        wakeAt := Vector.ofFn fun b : Fin 32 => if woken.getLsbD b.val then s.now + usTicks else x.loc.wakeAt[b] } }

/-- A write of PW_L2GATE of a base die (22 R390): the lines of a gated way leave L2, and their bytes stand in HBM as if written
back (log 56). -/
def State.writeL2gate (s : State) (b : Fin 4) (v : Word) : State :=
  let p := s.power
  let new : BitVec 16 := v.setWidth 16
  let old := p.l2gated[b.val]
  let woken := old &&& ~~~new
  { s with power := { p with
      l2gated := p.l2gated.set b.val new
      l2waking := p.l2waking.set b.val ((p.l2waking[b.val] &&& ~~~new) ||| woken)
      l2wakeAt := p.l2wakeAt.set b.val
        (Vector.ofFn fun w : Fin 16 => if woken.getLsbD w.val then s.now + 10 * usTicks else p.l2wakeAt[b.val][w]) } }.l2Gate

/-- A write of PW_FLOOR of a partition (22 R391, R387). -/
def State.writeFloor (s : State) (p : Fin 8) (v : Word) : State :=
  { s with power := { s.power with floors := s.power.floors.set p.val (v.setWidth 32) } }.refloor

/-- PW_CAP by the supervisor complex. -/
def execPwCap (v : Word) (s : State) : Host.Outcome State Fault Refusal := .next (s.supervise fun s => s.writeCap v false)

/-- PW_GIVE by the supervisor complex. -/
def execPwGive (v : Word) (s : State) : Host.Outcome State Fault Refusal := .next (s.supervise fun s => s.writeGive v)

/-- PW_SHED by the supervisor complex. -/
def execPwShed (v : Word) (s : State) : Host.Outcome State Fault Refusal := .next (s.supervise fun s => s.writeShed v)

/-- PW_BO by the supervisor complex. -/
def execPwBo (v : Word) (s : State) : Host.Outcome State Fault Refusal := .next (s.supervise fun s => s.writeBo v)

/-- PW_LGATE of the current core by the supervisor complex. -/
def execPwLgate (v : Word) (s : State) : Host.Outcome State Fault Refusal := .next (s.supervise fun s => s.writeLgate s.cur v)

/-- PW_L2GATE of a base die by the supervisor complex. -/
def execPwL2gate (b : Fin 4) (v : Word) (s : State) : Host.Outcome State Fault Refusal := .next (s.supervise fun s => s.writeL2gate b v)

/-- LOCAL_BANK_WAKE_DONE of a bank of the current core (22 R390). -/
def execLocalBankWakeDone (bank : Fin 32) (s : State) : Host.Outcome State Fault Refusal :=
  let x := s.core s.cur
  .next (if x.loc.waking.getLsbD bank.val && decide (x.loc.wakeAt[bank] ≤ s.now) then
    s.modCore s.cur fun x =>
      { x with loc := { x.loc with
          waking := BitVec.ofNat 32 (withBits x.loc.waking.toNat bank.val 1 0), lmem := x.loc.lmem.clear (bank.val * 0x8000) 0x8000 } }
  else s)

/-- L2_WAY_WAKE_DONE (22 R390). -/
def execL2WayWakeDone (b : Fin 4) (way : Fin 16) (s : State) : Host.Outcome State Fault Refusal :=
  let p := s.power
  .next (if (p.l2waking[b.val]).getLsbD way.val && decide (p.l2wakeAt[b.val][way] ≤ s.now) then
    { s with power := { p with l2waking := p.l2waking.set b.val (BitVec.ofNat 16 (withBits (p.l2waking[b.val]).toNat way.val 1 0)) } }
  else s)

/-! ### Periods and tokens -/

/-- The task that is pre-empted next over budget: of the lowest level, and then the most recently dispatched; none that is halted with its
die, and none whose partition draws no more than its effective floor (22 R384, R388). -/
def State.overBudgetTask (s : State) (draws : List Nat) : Option Task :=
  (s.tasks.filter fun t => t.kind == 0 && t.state == .running && t.preempt.isNone && !s.halted t
    && decide (((s.power.effFloors[s.partOfRegion t.region]?).map (·.toNat)).getD 0
      < draws.getD (s.partOfRegion t.region) 0)).foldl (fun best t => match best with
    | none => some t
    | some b =>
      if s.level t < s.level b ∨ (s.level t = s.level b ∧ b.dispatchedAt < t.dispatchedAt) then some t else some b) none

/-- Running tasks are pre-empted until the draw fits, with the draw of each partition, and with fuel for the tasks (22 R384). -/
def State.cutDraw : Nat → Nat → List Nat → State → State
  | 0, _, _, s => s
  | fuel + 1, draw, draws, s =>
    if draw ≤ s.power.budget then s
    else match s.overBudgetTask draws with
      | none => s
      | some t =>
        let w := s.taskDraw t
        let p := s.partOfRegion t.region
        State.cutDraw fuel (draw - w) (draws.set p (draws.getD p 0 - w)) (s.requestPreempt t preemptForced)

/-- What each partition draws, as the meter tells (22 R384, log 8). -/
def State.partDraws (s : State) : List Nat := (List.range 8).map fun p => Config.freeNat (s.choices * 8 + p)

/-- GRANT_PERIOD_END, 1 ms after the period began: tokens expire, and a draw over budget for two periods costs tasks their cores
(22 R383, R384, R387). -/
def execGrantPeriodEnd (draw : BitVec 16) (s : State) : Host.Outcome State Fault Refusal :=
  let p := s.power
  let above := if p.budget < draw.toNat then p.overPeriods + 1 else 0
  let t := { s with
    choices := s.choices + 1
    power := { p with
      draw := draw, overPeriods := above, tokNow := p.tokNext, tokNext := if p.coord then 0 else 2600, period := p.period + 1
      netNow := p.netNext, netNext := 0, periodAt := s.now } }
  .next (if s.now < p.periodAt + 1000 * usTicks then s
    else if 2 ≤ above ∧ s.hib.state = .run then t.refloor.cutDraw s.tasks.length draw.toNat s.partDraws else t.refloor)

/-- Tokens of a period that are the coordinator's grant with what peers gave and took (22 R383). -/
def heldTokens (n : Nat) (net : Int) : BitVec 16 := BitVec.ofNat 16 (min 0xFFFF ((n : Int) + net).toNat)

/-- TOKEN_ARRIVAL: a transfer of a period that is over is void (22 R383, R385). -/
def execTokenArrival (n : BitVec 16) (period : BitVec 24) (s : State) : Host.Outcome State Fault Refusal :=
  let p := s.power
  .next (if period = p.period then
    { s with power := { p with tokNow := heldTokens p.tokNow.toNat n.toNat, netNow := p.netNow + n.toNat } }.refloor
  else if period = p.period + 1 then
    { s with power := { p with tokNext := heldTokens p.tokNext.toNat n.toNat, netNext := p.netNext + n.toNat } }
  else s)

/-- COORDINATOR_TOKENS: the grant for the current period or the next (22 R383). -/
def execCoordinatorTokens (n : BitVec 16) (period : BitVec 24) (s : State) : Host.Outcome State Fault Refusal :=
  let p := s.power
  .next (if !p.coord then s
  else if period = p.period then { s with power := { p with tokNow := heldTokens n.toNat p.netNow } }.refloor
  else if period = p.period + 1 then { s with power := { p with tokNext := heldTokens n.toNat p.netNext } }
  else s)

/-! ### Brown-out -/

/-- A threshold in 0.01 V (22 R391). -/
def threshold (t : BitVec 8) : Nat := 4000 + 10 * t.toNat

/-- The bus read at so many 0.01 V (22 R389, R391). -/
def State.readBus (s : State) (volts : BitVec 16) : State :=
  let p := s.power
  let since := fun (b : Bool) (x : Option Nat) => if b then some (x.getD s.now) else none
  { s with power := { p with
      volts := volts
      lowSince := since (decide (volts.toNat < threshold p.boShed)) p.lowSince
      highSince := since (decide (threshold p.boRestore < volts.toNat)) p.highSince } }

/-- A condition has held since a tick for so long, and what it causes has not happened since then, or so long ago (22 R389). -/
def actDue (now : Nat) (since : Option Nat) (hold last gap : Nat) : Bool :=
  match since with
  | some t => decide (t + hold ≤ now) && (decide (last < t) || decide (last + gap ≤ now))
  | none => false

/-- BROWNOUT_SHED: the bus has been below the shed threshold for 20 µs, and it is 50 µs since the last die (22 R389). -/
def execBrownoutShed (volts : BitVec 16) (s : State) : Host.Outcome State Fault Refusal :=
  let s := s.readBus volts
  let p := s.power
  .next (if actDue s.now p.lowSince (20 * usTicks) p.lastShed (50 * usTicks) then
    match p.order.find? fun d => !s.dieShed d with
    | some d => { s with power := { p with shedBo := setDie p.shedBo d true, lastShed := s.now } }.applyShed
    | none => s
  else s)

/-- BROWNOUT_ALL_SHED (22 R389). -/
def execBrownoutAllShed (volts : BitVec 16) (s : State) : Host.Outcome State Fault Refusal :=
  let s := s.readBus volts
  let p := s.power
  .next (if volts.toNat < threshold p.boAll then { s with power := { p with shedBo := 0xFF, lastShed := s.now } }.applyShed else s)

/-- BROWNOUT_RESTORE: the bus has been above the restore threshold for 1 ms, and it is 200 µs since the last die; after a power-fail
warning dies stay shed (22 R389). -/
def execBrownoutRestore (volts : BitVec 16) (s : State) : Host.Outcome State Fault Refusal :=
  let s := s.readBus volts
  let p := s.power
  .next (if !s.hib.state.leaving && actDue s.now p.highSince (1000 * usTicks) p.lastRestore (200 * usTicks) then
    match p.order.reverse.find? fun d => p.shedBo.getLsbD d with
    | some d => { s with power := { p with shedBo := setDie p.shedBo d false, lastRestore := s.now } }.applyShed
    | none => s
  else s)

/-- INPUT_LOSS: below 40.0 V (22 R389, 23 R395). -/
def execInputLoss (volts : BitVec 16) (s : State) : Host.Outcome State Fault Refusal :=
  let s := s.readBus volts
  .next (if volts.toNat < 4000 then s.warn 1 else s)

end Sys2Proof.Machine
end

