-- ==== Sys2Proof/Machine/Migrate.lean ====
section
/-! DEFINITION. The invalidation of cached translations and the migration of a page (21 R376-R380; 19 R351). -/

namespace Sys2Proof.Machine

/-- The 2 MiB range of a cached entry: of a level-1 entry its own, of a level-2 entry that of its piece (21 R376). -/
def cachedRange (key : Nat) : Nat := if key % 2 = 0 then key / 2 else key / 64

/-- Cached translations of the 2 MiB ranges that [lo, lo + n) of the module's own addresses touches are gone (21 R376); n = 0 stands
for the whole module (19 R351). -/
def State.dropCached (s : State) (lo n : Nat) : State :=
  let apart := fun (p : Nat × BitVec 64) => decide ((cachedRange p.1 + 1) * 2 ^ 21 ≤ lo) || decide (lo + n ≤ cachedRange p.1 * 2 ^ 21)
  let tlb := if n = 0 then [] else s.trans.tlb.filter apart
  { s with trans := { s.trans with tlb := tlb } }

/-- The size of the page that migrates. -/
def State.migSize (s : State) : Nat := if s.trans.migBig then 2 ^ 21 else 2 ^ 16

/-- An entry with its transit bit set (21 R374). -/
def withTransit (e : Nat) : Nat := withBits e 6 1 1

/-- The result of the checks at a start: 0 where the migration may begin (21 R378). -/
def State.migCheck (s : State) : Nat :=
  if s.trans.migState != .idle then 1
  else match s.walk s.trans.migIa.toNat with
    | none => 2
    | some (_, e, big) =>
      match pageOfEntry e big with
      | none => 2
      | some old =>
        if !old.migratable then 2
        else match pageOfEntry s.trans.migNew.toNat big with
          | none => 3
          | some new =>
            if new.scope != old.scope || new.part != old.part || new.owner != old.owner || new.transit
                || s.trans.migIa.toNat % old.size != 0 then 3
            else 0

/-- A write of MIG_CTL (21 R378): with bit 0 set a migration starts, and the page holds (21 R379). After a power-fail warning it is
abandoned at once (21 R380; log 83). -/
def State.startMigration (s : State) (v : Word) : State :=
  if !v.getLsbD 0 then s
  else if s.migCheck == 0 && s.hib.state.leaving then { s with trans := { s.trans with migResult := 4 } }
  else match s.migCheck, s.walk s.trans.migIa.toNat with
    | 0, some (place, e, big) =>
      { s with
        hbm := s.hbm.putNat place 8 (withTransit e)
        trans := { s.trans with
          migState := .hold, migAt := s.trans.migIa, migOld := BitVec.ofNat 64 e, migTo := s.trans.migNew, migPlace := place, migBig := big } }
    | code, _ => { s with trans := { s.trans with migResult := BitVec.ofNat 8 code } }

/-- MIG_CTL by the supervisor complex. -/
def execMigCtl (v : Word) (s : State) : Host.Outcome State Fault Refusal := .next (s.supervise fun s => s.startMigration v)

/-- The table holds this entry, in transit, for the page. -/
def State.migHolds (s : State) (e : Nat) : Bool := s.migEntry == withTransit e

/-- The dirty bytes of a page's stash granules reach their home, and the granules are gone (05 R90, 21 R379). -/
def State.recallPage (s : State) (p : Page) (lo n : Nat) : State :=
  allCores.foldl (fun s c => (s.core c).loc.granules.foldl (fun s g =>
    match (s.core c).granuleIa g with
    | some ia =>
      if s.onModule ia && decide (lo ≤ iaLocal ia) && decide (iaLocal ia < lo + n) then
        (s.pokeCells (some p) ia ((s.core c).dirtyCells g 0 4096)).modCore c (·.dropGranule g.base)
      else s
    | none => s) s) s

/-- Every byte of a page copied to its new frame. -/
def State.copyFrame (s : State) (source dest n : Nat) : State :=
  { s with hbm := (s.hbm.clear dest n).putCells dest (s.hbm.slice source n) }

/-- An engine of an old BANK channel runs a program (21 R379). -/
def State.channelBusy (s : State) (e : Nat) : Bool :=
  bitsOf e 4 1 == 1 && (s.engine (Fin.ofNat 512 (bitsOf e 32 9))).job.isSome

/-- MIGRATION_HOLD_DONE (21 R379): dirty bytes are recalled and the page copied. -/
def execMigrationHoldDone (s : State) : Host.Outcome State Fault Refusal :=
  let t := s.trans
  if t.migState != .hold || s.channelBusy t.migOld.toNat then .next s
  else if !s.migHolds t.migOld.toNat then .fault .migrationEntryWritten
  else
    .next (match pageOfEntry t.migOld.toNat t.migBig, pageOfEntry t.migTo.toNat t.migBig with
      | some old, some new =>
        let s := ((s.recallPage old t.migAt.toNat old.size).l2Drop old.key old.size).copyFrame old.key new.key old.size
        { s with trans := { s.trans with migState := .switch } }
      | _, _ => s)

/-- MIGRATION_COPY_DONE (21 R379): the new entry stands in the table, and cached translations of the page are invalidated. -/
def execMigrationCopyDone (s : State) : Host.Outcome State Fault Refusal :=
  let t := s.trans
  if t.migState != .switch then .next s
  else if !s.migHolds t.migOld.toNat then .fault .migrationEntryWritten
  else
    let d := s.dropCached t.migAt.toNat s.migSize
    .next { d with hbm := d.hbm.putNat t.migPlace 8 (withTransit t.migTo.toNat), trans := { d.trans with migState := .forward } }

/-- An access on its way goes to the page that migrates. -/
def State.toMigrating (s : State) (a : Access) : Bool :=
  match a.target with
  | .global ia => s.onModule ia && decide (s.trans.migAt.toNat ≤ iaLocal ia) && decide (iaLocal ia < s.trans.migAt.toNat + s.migSize)
  | _ => false

/-- MIGRATION_FORWARD of the subject's access: the new home performs it once (21 R379). -/
def execMigrationForward (s : State) : Host.Outcome State Fault Refusal :=
  .next (match s.accesses[s.subj]? with
    | some a =>
      if s.trans.migState == .forward && s.toMigrating a then
        let t := s.performPending s.subj 0 a.op.size (.ok [])
        match ownerCluster a.owner with
        | some cl => t.refreshArray cl
        | none => t
      else s
    | none => s)

/-- The migration is over: the new entry stands without transit, and the supervisor complex is told (21 R379). -/
def State.completeMigration (s : State) : State :=
  let t := s.trans
  let d := s.dropCached t.migAt.toNat s.migSize
  { d with
    hbm := d.hbm.putNat t.migPlace 8 t.migTo.toNat
    trans := { d.trans with migState := .idle, migResult := 0 }
    supEvents := d.supEvents ++ [.migrationDone] }

/-- MIGRATION_END (21 R379): transit clears once no forwarded access remains. -/
def execMigrationEnd (s : State) : Host.Outcome State Fault Refusal :=
  let t := s.trans
  if t.migState != .forward || s.accesses.any s.toMigrating then .next s
  else if !s.migHolds t.migTo.toNat then .fault .migrationEntryWritten
  else .next s.completeMigration

/-- The flush waits for a migration: one still in HOLD is abandoned with result 4, one further on completes (21 R380, 23 R395). -/
def State.settleMigration (s : State) : State :=
  match s.trans.migState with
  | .switch | .forward => s.completeMigration
  | _ => s.abandonMigration

/-- What XINV meets: a module that is not there (19 R351, 05 R101). -/
def State.trapXinv (s : State) (i : BitVec 5) : Option Raise :=
  let ia := (s.me.rs i).toNat % 2 ^ 56
  failIf (!s.onModule ia && !s.isTrained (iaModule ia)) (.violation clsNoModule ia)

/-- XINV (19 R351): privileged. What a peer's translation units hold is the peer's. -/
def execXinv (i l : BitVec 5) (s : State) : Host.Outcome State Fault Refusal :=
  .next (s.orRaise (pickRaise [s.privCheck, s.trapXinv i]) fun s =>
    let ia := (s.me.rs i).toNat % 2 ^ 56
    if s.onModule ia then s.dropCached (iaLocal ia) (s.me.rs l).toNat else s)

end Sys2Proof.Machine
end

