-- ==== Sys2Proof/Machine/Hibernate.lean ====
section
/-! DEFINITION. The hibernation sequence from the acknowledged warning to the seal, the manifest, and resumption with its rejoin
(23 R394-R402; 28 R434). -/

namespace Sys2Proof.Machine

/-! ### Quiesce -/

/-- The core counts as having acknowledged the warning: it hosts no task or its task's EXIT has issued there, it has halted, or its
die is shed (23 R395, 28 R434). A SPAWN whose result is not yet written is awaited (23 R402). -/
def Core.acknowledged (c : Core) : Bool :=
  c.shed || c.spawns.isEmpty && match c.status with
    | .idle | .exiting | .exited | .halted | .stopped => true
    | .running | .waiting _ | .filling _ => false

/-- A job as it runs again from its first word. -/
def BankJob.again (j : BankJob) : BankJob := { j with words := [], started := false, ended := [], got := [], fail := none, cycles := 0 }

/-- A bank command in progress is recorded for reissue from its first word; a bank task starts again, and a killed task's command is kept
for the restart (14 R302, 23 R402; log 84). -/
def State.recordJob (s : State) (j : BankJob) : State :=
  match j.core, (if j.orphan.isSome then none else s.task j.task) with
  | some _, some _ => s.modIssuer j fun x => { x with q := { x.q with bank := x.q.bank.map fun k =>
      if k.id == j.cmd then { k with phase := .queued, got := [] } else k } }
  | none, some t => s.makeReady t.va .ready
  | _, none => { s with hib := { s.hib with imageJobs := s.hib.imageJobs ++ [j.again] } }

/-- The bank engines stop at a command boundary; what they have written goes on its way (14 R302, 23 R397). -/
def State.stopEngines (s : State) : State :=
  let s := s.jobs.foldl State.recordJob { s with hib := { s.hib with imageJobs := [] } }
  { s with
    jobs := []
    engines := s.engines.map fun x => { x with running := false, job := none }
    accesses := s.accesses.filter fun a => match a.owner, a.target with | .job _, _ | .engine _ _, .scratch _ _ => false | _, _ => true }

/-- What a phase of the sequence has cost the reserve is open (23 R392, log 6); after the quiesce it is at most 1,000 W for the time since the
phase began. -/
def State.spend (s : State) (most : Option Nat) : State :=
  let n := Config.freeNat s.choices
  let cost := match most with | some m => n % (m + 1) | none => n
  { s with choices := s.choices + 1, hib := { s.hib with reserve := s.hib.reserve - cost } }

/-- The energy of 1,000 W since the current state of the sequence began: 420 ticks make a nanosecond (23 R392). -/
def State.phaseEnergy (s : State) : Nat := (s.now - s.hib.since) * 12000 / 420

/-- HIBERNATE_QUIESCE (23 R395): every core has acknowledged. -/
def execHibernateQuiesce (s : State) : Host.Outcome State Fault Refusal :=
  .next (if s.hib.state == .warn && allCores.all fun c => (s.core c).acknowledged then
    let s := (allCores.foldl State.quiesceCore s.settleMigration).stopEngines
    { s with hib := { s.hib with state := .quiesce, since := s.now } }.spend none
  else s)

/-! ### Flush -/

/-- An MREL marker stands at the head of the core's m queue: it is about to perform (28 R436). -/
def Core.markerDue (c : Core) : Bool := ((c.nextCmd .m).map fun k => k.kind == .mrel).getD false

/-- The queues are quiet: no started command of any core is on its way, and no marker is due (23 R395; 28 R436). -/
def State.quiet (s : State) : Bool :=
  allCores.all (fun c => !(s.core c).q.all.any Cmd.mustEnd && !s.passRunning c && !(s.core c).markerDue)
    && !s.accesses.any fun a => match a.owner with | .cmd _ _ _ | .engine _ _ => true | _ => false

/-- A running task's context is saved as at a pre-emption (23 R395). -/
def State.flushTask (s : State) (t : Task) : State :=
  if t.kind = 0 ∧ t.state = .running then
    (((s.chargeTask t).saveContext t causePfw).modTask t.va fun t => { t with state := .preempted }).flushCharges t.region
  else s

/-- The flush (23 R395; 19 R353): contexts, dirty bytes and the SCM controller's buffer; dirty lines of L2 are written back. -/
def State.flush (s : State) : State :=
  let s := s.tasks.foldl State.flushTask s
  let s := s.spend (some s.phaseEnergy)
  { s with
    scm := s.scmBuf.foldl (fun m (a, b) => Mem.set m a b) s.scm
    scmBuf := [], accesses := [], l2 := s.l2.map fun l => { l with dirty := false }
    hib := { s.hib with state := .drain, since := s.now } }

/-- HIBERNATE_FLUSH (23 R395): once the queues are quiet the sequence comes to FLUSH and the supervisor complex stops, and then the flush is
made. -/
def execHibernateFlush (s : State) : Host.Outcome State Fault Refusal :=
  .next (match s.hib.state with
    | .quiesce => if s.quiet then { s with hib := { s.hib with state := .flush, since := s.now } } else s
    | .flush => s.flush
    | _ => s)

/-! ### Drain -/

/-- A range that the sequencer drains (23 R394). -/
structure DrainItem where
  kind : Nat
  prio : Nat := 0
  region : Nat
  index : Nat := 0xFFFF
  base : Nat
  length : Nat
  taskid : Word := 0
  whole : Bool := false
  bad : Bool := false
  /-- Bytes of it that there are to drain: for the image, what the context area holds. -/
  cap : Nat
deriving DecidableEq, Repr

/-- Every 64 KiB piece of a range is resident on this module (23 R394). -/
def State.rangeResident (s : State) (base n : Nat) : Bool :=
  s.onModule base && (List.range (ceilDiv (base % 65536 + n) 65536)).all fun i =>
    (s.freshPage (iaLocal base / 65536 * 65536 + i * 65536)).isSome

/-- The exact remainder of the reserve at which the drain stops (23 R392, R396). -/
def Hib.floor (h : Hib) : Nat := h.selv.toNat * 12000000000

/-- Bytes that the reserve can still pay for at 96 GB/s and 1,000 W (23 R394). -/
def Hib.payable (h : Hib) : Nat := (h.reserve - h.floor) / 125

/-- How far the drain of one range has come. -/
structure Drained where
  s : State
  bytes : List Byte := []
  /-- The reserve is spent. -/
  stopped : Bool := false
  /-- The media failed. -/
  failed : Bool := false

/-- What a piece of n bytes costs the reserve: open, but no more than 1,000 W for the time it takes at 96 GB/s; the last piece may take the
exact remainder below the selvedge (23 R392, R394; 28 R437; log 6). -/
def State.pieceCost (s : State) (n : Nat) : Nat := Config.freeNat s.choices % (n * 125 + 1)

/-- The pieces of a range from one on (23 R396). -/
def State.drainPieces (s : State) (base scm cap : Nat) (bytes : List Byte) : Nat → Drained
  | 0 => { s := s, bytes := bytes }
  | fuel + 1 =>
    let at_ := bytes.length
    let n := min 4096 (cap - at_)
    if s.hib.reserve ≤ s.hib.floor then { s := s, bytes := bytes, stopped := true }
    else if s.scmBad true (scm + at_) n false then { s := s, bytes := bytes, failed := true }
    else match s.readIa (base + at_) n with
      | none => { s := s, bytes := bytes, failed := true }
      | some bs =>
        let s := { s with
          scm := s.scm.put (scm + at_) bs
          choices := s.choices + 1
          hib := { s.hib with reserve := s.hib.reserve - s.pieceCost n } }
        State.drainPieces s base scm cap (bytes ++ bs) fuel

/-- The bytes of SCM (01 R16). -/
def scmEnd : Nat := 2 ^ 41

/-- The manifest entry of a range: status 0 COMPLETE, 1 INCOMPLETE, 2 SKIPPED (23 R398). -/
def DrainItem.entry (i : DrainItem) (status why scm : Nat) (bytes : List Byte) : ManifestEntry :=
  { kind := i.kind, status := status, prio := i.prio, why := why, region := i.region, index := i.index, base := i.base
    length := i.length, scm := scm, bytes := bytes.length, digest := (Config.sha384 bytes).toNat, taskid := i.taskid }

/-- Why a range is skipped before any of it is drained (23 R394, R396). -/
def State.skipWhy (s : State) (i : DrainItem) (place : Nat) : Option Nat :=
  if i.bad then some 1
  else if !s.rangeResident i.base i.cap then some 2
  else if i.whole && decide (s.hib.payable < i.length) then some 3
  else if scmEnd < place + i.length then some 4
  else none

/-- The ranges drained one after another from a place in SCM on: each starts at a 64 KiB boundary; once the reserve is spent every
further one is skipped (23 R396). -/
def State.drainItems (s : State) (place : Nat) (stopped : Bool) : List DrainItem → State × List ManifestEntry
  | [] => (s, [])
  | i :: l =>
    if stopped then
      let (s, es) := State.drainItems s place true l
      (s, i.entry 2 0 0 [] :: es)
    else match s.skipWhy i place with
      | some why =>
        let (s, es) := State.drainItems s place false l
        (s, i.entry 2 why 0 [] :: es)
      | none =>
        let d := s.drainPieces i.base place i.cap [] (ceilDiv i.cap 4096)
        let (s, es) := State.drainItems d.s (roundUp (place + d.bytes.length) 65536) d.stopped l
        (s, i.entry (if d.bytes.length = i.length then 0 else 1) 0 place d.bytes :: es)

/-- An entry of the drain list (23 R394). -/
def listItem (b index : Nat) : DrainItem :=
  let f := fun off n => bitsOf b (8 * off) (8 * n)
  { kind := 3, prio := f 0x10 1, region := f 0x12 2, index := index, base := f 0 8, length := f 8 8, whole := f 0x11 1 % 2 == 1
    cap := f 8 8
    bad := f 7 1 != 0 || f 0x0E 2 != 0 || f 0x11 1 / 2 != 0 || f 0x14 12 != 0 || f 0 8 % 4096 != 0 || f 8 8 == 0 || f 8 8 % 4096 != 0 }

/-- An item put among others of decreasing priority, after those of its own (23 R394). -/
def insertItem (x : DrainItem) : List DrainItem → List DrainItem
  | [] => [x]
  | y :: l => if y.prio < x.prio then x :: y :: l else y :: insertItem x l

/-- The drain list as it stands, in the order in which it drains; none where it cannot be read (log 44). -/
def State.drainList (s : State) : List DrainItem :=
  let n := s.hib.dcnt.toNat
  let read := if s.onModule s.hib.dlist.toNat then s.readIa s.hib.dlist.toNat (32 * n) else none
  match read with
  | none => []
  | some bs =>
    ((List.range n).map fun i => listItem (natOfBytes ((bs.drop (32 * i)).take 32)) i).foldl (fun l x => insertItem x l) []

/-- The save records, each in its save area after those of earlier tasks there (20 R356, R364; 23 R394; log 44). -/
def State.recordItems (s : State) : List DrainItem :=
  ((s.tasks.filter fun t => !t.saved.isEmpty).foldl (fun (acc : List (Nat × DrainItem)) t =>
    let before := (acc.filter fun i => i.1 == t.area).foldl (fun n i => n + i.2.length) 0
    acc ++ [(t.area, { kind := 2, region := t.region, base := t.area + before, length := t.reserved, taskid := t.va, cap := t.reserved })])
    []).map (·.2)

/-- The length of the dispatcher image, which the spec leaves open (23 R394, log 6). -/
def State.imageLength (s : State) : Nat := Config.freeNat s.choices

/-- The sequencer writes the dispatcher image at HB_CTX, as far as the context area goes; its form is not architected (23 R394; log 6, log 44). -/
def State.writeImage (s : State) : State :=
  let n := min s.imageLength s.hib.ctxlen.toNat
  let bytes := (List.range n).map fun i => (Config.freeWord (s.choices * 2 ^ 32 + i)).setWidth 8
  (s.writeIa s.hib.ctx.toNat bytes).getD s

/-- The context set: the image, the blocks of the started regions, and the save records (23 R394; log 6, log 44). -/
def State.contextSet (s : State) : List DrainItem :=
  let image := s.imageLength
  let blocks := s.regions.map fun r =>
    ({ kind := 1, region := r.id, base := s.rtabBase.toNat + 256 * r.id, length := 256, cap := 256 } : DrainItem)
  { kind := 0, region := 0, base := s.hib.ctx.toNat, length := image, cap := min image s.hib.ctxlen.toNat } :: blocks ++ s.recordItems

/-- HIBERNATE_DRAIN (23 R394-R397). The contexts themselves are kept beside the bytes (log 44). -/
def execHibernateDrain (s : State) : Host.Outcome State Fault Refusal :=
  .next (if s.hib.state == .drain then
    let items := s.contextSet ++ s.drainList
    let s := s.writeImage
    let s := { s with
      choices := s.choices + 1
      hib := { s.hib with imageTasks := s.tasks, imageRegions := s.regions, imageSteps := s.hib.step, imageMembers := s.hib.member } }
    let (s, es) := s.drainItems s.hib.data.toNat false items
    { s with hib := { s.hib with
        state := .seal, since := s.now, entries := es, drained := es.foldl (fun n e => n + e.bytes) 0, reserveSeal := s.hib.joules } }
  else s)

/-! ### The manifest -/

/-- A signature in memory: r and then s, each of 48 bytes, big-endian (23 R398; 25 R414, R417). -/
def signatureBytes (sig : BitVec 768) : List Byte := (bytesOfNat 96 sig.toNat).reverse

/-- The signature in 96 bytes. -/
def signatureOf (bs : List Byte) : BitVec 768 := BitVec.ofNat 768 (natOfBytes bs.reverse)

/-- The magic of a manifest (23 R398). -/
def manifestMagic : Nat := 0x4B474D46
/-- The commit word of a manifest (23 R398). -/
def manifestCommit : Nat := 0x5345414C45442121

/-- The bytes of a manifest entry (23 R398). -/
def ManifestEntry.toBytes (e : ManifestEntry) : List Byte :=
  bytesOfNat 1 e.kind ++ bytesOfNat 1 e.status ++ bytesOfNat 1 e.prio ++ bytesOfNat 1 e.why ++ bytesOfNat 2 e.region
    ++ bytesOfNat 2 e.index ++ bytesOfNat 8 e.base ++ bytesOfNat 8 e.length ++ bytesOfNat 8 e.scm ++ bytesOfNat 8 e.bytes
    ++ bytesOfNat 48 e.digest ++ bytesOfNat 8 e.taskid.toNat

/-- The entry in 96 bytes. -/
def manifestEntryOf (b : Nat) : ManifestEntry :=
  let f := fun off n => bitsOf b (8 * off) (8 * n)
  { kind := f 0 1, status := f 1 1, prio := f 2 1, why := f 3 1, region := f 4 2, index := f 6 2, base := f 8 8, length := f 0x10 8
    scm := f 0x18 8, bytes := f 0x20 8, digest := f 0x28 48, taskid := BitVec.ofNat 64 (f 0x58 8) }

/-- The bytes of a manifest header with a commit word (23 R398). -/
def State.manifestHeader (s : State) (gen commit : Nat) : List Byte :=
  let h := s.hib
  bytesOfNat 4 manifestMagic ++ bytesOfNat 2 1 ++ bytesOfNat 1 h.cause.toNat ++ bytesOfNat 1 s.modid.toNat ++ bytesOfNat 8 gen
    ++ bytesOfNat 2 h.reserveWarn ++ bytesOfNat 2 h.reserveSeal ++ bytesOfNat 2 h.entries.length ++ bytesOfNat 2 0
    ++ bytesOfNat 8 h.drained ++ bytesOfNat 8 commit ++ bytesOfNat 24 0 ++ bytesOfNat 64 s.boot.serial.toNat

/-- The place of a manifest slot in SCM (23 R398). -/
def State.slotAt (s : State) (k : Nat) : Nat := s.hib.manif.toNat + k * 2 ^ 20

/-- A signature verifies against the module identity key: the one that the key makes, and any other that passes (23 R399; log 7). -/
def verifiesOwn (digest : BitVec 384) (sig : BitVec 768) : Bool := sig == Config.sign digest || Config.verify digest sig

/-- The valid manifest of a slot: its generation and its entries (23 R399). -/
def State.manifest (s : State) (k : Nat) : Option (Nat × List ManifestEntry) :=
  let at_ := s.slotAt k
  let f := fun off n => s.scm.nat (at_ + off) n
  let n := f 0x14 2
  let size := 128 + 96 * n
  let message := s.scm.span at_ 0x20 ++ bytesOfNat 8 0 ++ s.scm.span (at_ + 0x28) (size - 0x28)
  if f 0 4 == manifestMagic && f 0x20 8 == manifestCommit
      && verifiesOwn (Config.sha384 message) (signatureOf (s.scm.span (at_ + size) 96)) then
    some (f 8 8, (List.range n).map fun i => manifestEntryOf (natOfBytes (s.scm.span (at_ + 128 + 96 * i) 96)))
  else none

/-- The newest valid manifest: its slot, generation and entries (23 R398, R399). -/
def State.newestManifest (s : State) : Option (Nat × Nat × List ManifestEntry) :=
  match s.manifest 0, s.manifest 1 with
  | some (g, es), none => some (0, g, es)
  | none, some (g, es) => some (1, g, es)
  | some (g, es), some (g', es') => if g < g' then some (1, g', es') else some (0, g, es)
  | none, none => none

/-- HIBERNATE_SEAL (23 R398; 25 R417): the manifest is written, signed and committed, after any report in progress. -/
def execHibernateSeal (s : State) : Host.Outcome State Fault Refusal :=
  .next (if s.hib.state == .seal && s.boot.attStat != 1 then
    let (slot, gen) := match s.newestManifest with
      | some (k, g, _) => (1 - k, g + 1)
      | none => (0, 1)
    let entries := s.hib.entries.flatMap ManifestEntry.toBytes
    let sig := Config.sign (Config.sha384 (s.manifestHeader gen 0 ++ entries))
    { s with
      scm := s.scm.put (s.slotAt slot) (s.manifestHeader gen manifestCommit ++ entries ++ signatureBytes sig)
      hib := { s.hib with state := .off, since := s.now, gen := BitVec.ofNat 32 gen, imageGen := gen } }
  else s)

/-! ### Resumption -/

/-- A part of the context set is COMPLETE: drained whole, and what SCM holds has its digest (23 R399, R400). -/
def State.entryComplete (s : State) (e : ManifestEntry) : Bool :=
  e.status == 0 && (Config.sha384 (s.scm.span e.scm e.bytes)).toNat == e.digest

/-- What a range recorded is lost: it was not drained whole, its SCM bytes fail its digest, or they do not stand at its IA again
(23 R399, R400). -/
def State.rangeLost (s : State) (e : ManifestEntry) : Bool :=
  !s.entryComplete e || s.readIa e.base e.bytes != some (s.scm.span e.scm e.bytes)

/-- The context set is COMPLETE, and it is that of the manifest in force (23 R400, log 44). The dispatcher takes it from the seal: software
restores the ranges of its list alone (28 R439). -/
def State.contextComplete (s : State) : Bool :=
  s.hib.imageGen % 2 ^ 32 == s.hib.gen.toNat && (s.hib.entries.filter fun e => decide (e.kind < 3)).all s.entryComplete

/-- The windows a task's operands are named through: those that its cores would be given (21 R373). -/
def State.operandWins (s : State) (t : Task) : Vector Window 8 := (s.winset t.region).2

/-- A declared operand of the task touches a lost range (23 R400). -/
def State.touchesLost (s : State) (t : Task) : Bool :=
  let wins := s.operandWins t
  let lost := s.hib.entries.filter fun e => e.kind == 3 && s.rangeLost e
  t.operands.any fun (va, n, _) => (cutAt 65536 va n).any fun (o, k) =>
    match translate wins {} (va + o) with
    | .ok ia => lost.any fun e => decide (ia < e.base + e.length) && decide (e.base < ia + k)
    | .error _ => false

/-- A saved task that does not resume ends Killed; its fault domain gets the hibernation loss alone (23 R400). -/
def State.loseTask (s : State) (t : Task) : State :=
  let s := ((s.removeTask t).charge t.region 0xD0 1).flushCharges t.region
  s.postEvent t.region { kind := 3, info := 0, task := t.va } (.hibernationLoss t.va)

/-- The dispatcher judges a saved task (23 R400; 19 R347): every one that resumes, one that waits to spawn among them, is held until the
groups have agreed. -/
def State.judge (s : State) (t : Task) : State :=
  if t.saved.isEmpty then s
  else if !t.resumable || s.touchesLost t then s.loseTask t
  else s.modTask t.va fun t => { t with state := .held }

/-- A group's members (23 R393). -/
def Hib.members (h : Hib) (g : Fin 64) : List Nat := (List.range 256).filter fun m => (h.member[g]).getLsbD m

/-- The value of a member, this module's own among them (23 R401). -/
def State.memberStep (s : State) (g : Fin 64) (m : Nat) : Option Word :=
  if m == s.modid.toNat then some s.hib.step[g]
  else (s.hib.answers.find? fun a => a.1 == g.val && a.2.1 == m).map (·.2.2)

/-- The step a group agrees on, once every member has answered (23 R401). -/
def State.groupStep (s : State) (g : Fin 64) : Option Word :=
  (s.hib.members g).foldl (fun acc m =>
    match acc, s.memberStep g m with
    | some a, some b => some (if b < a then b else a)
    | _, _ => none) (some (BitVec.allOnes 64))

/-- The groups with members. -/
def Hib.groups (h : Hib) : List (Fin 64) := (List.finRange 64).filter fun g => h.member[g] != 0

/-- A region's groups whose agreed step is not this module's own (23 R401). -/
def State.laggingGroups (s : State) (r : Region) : List (Fin 64) :=
  (List.finRange 64).filter fun g => r.groups.getLsbD g.val && s.hib.agreed[g] != s.hib.step[g]

/-- A held task becomes Ready where its region's groups all agree (23 R401). -/
def State.settleHeld (s : State) (t : Task) : State :=
  match t.state, s.region t.region with
  | .held, some r => if (s.laggingGroups r).isEmpty then s.makeReady t.va .preempted else s
  | _, _ => s

/-- A region with held tasks gets one event for each group that holds them back (23 R401, 19 R345). -/
def State.rollback (s : State) (r : Region) : State :=
  if s.tasks.any fun t => t.region == r.id && t.state == .held then
    (s.laggingGroups r).foldl (fun s g =>
      s.postEvent r.id { kind := 5, info := g.val, task := s.hib.agreed[g] } (.collectiveRollback g.val s.hib.agreed[g])) s
  else s

/-- The rejoin is over when each group is agreed or unresolved: the module runs (23 R401). -/
def State.finishRejoin (s : State) : State :=
  let s := s.tasks.foldl State.settleHeld s
  let s := s.regions.foldl State.rollback s
  { s with hib := { s.hib with state := .run, since := s.now } }.applyShed

/-- Groups whose members have all answered agree; with every group settled the rejoin ends (23 R401). -/
def State.rejoinStep (s : State) : State :=
  let s := s.hib.groups.foldl (fun (s : State) g =>
    match s.groupStep g with
    | some v => { s with hib := { s.hib with agreed := s.hib.agreed.set g.val v } }
    | none => s) s
  if s.hib.groups.all fun g => (s.groupStep g).isSome then s.finishRejoin else s

/-- The regions of the saved image stand beside those started since (23 R400). -/
def State.installRegions (s : State) : State :=
  { s with regions := s.hib.imageRegions ++ s.regions.filter fun r => !s.hib.imageRegions.any fun x => x.id == r.id }

/-- The saved tasks stand beside those that run, and the bank commands of killed tasks run again (23 R400; 14 R302; log 84). -/
def State.installTasks (s : State) : State :=
  let h := s.hib
  { s with
    tasks := h.imageTasks ++ s.tasks.filter fun t => !h.imageTasks.any fun x => x.va == t.va
    jobs := s.jobs ++ (h.imageJobs.zip (List.range h.imageJobs.length)).map fun (j, i) => { j with id := s.nextJob + i }
    nextJob := s.nextJob + h.imageJobs.length }

/-- A write of 1 to HB_CTL bit 0 in RESTORE (23 R400). -/
def State.resume (s : State) : State :=
  if s.hib.state != .restore then s
  else if !s.contextComplete then
    let s := s.installRegions
    let s := s.regions.foldl (fun s r => s.postEvent r.id { kind := 3, info := 0, task := 0 } (.hibernationLoss 0)) s
    { s with hib := { s.hib with state := .run, since := s.now } }.applyShed
  else
    let s := s.installRegions.installTasks
    let s := { s with hib := { s.hib with step := s.hib.imageSteps, member := s.hib.imageMembers, state := .rejoin, since := s.now } }
    (s.tasks.foldl State.judge s).rejoinStep

/-- HB_CTL_RESUME by the supervisor complex. -/
def execHbCtlResume (s : State) : Host.Outcome State Fault Refusal := .next s.resume

/-- REJOIN_TRAFFIC: a member's step arrives, in RESTORE or REJOIN (23 R395, R401). -/
def execRejoinTraffic (group : BitVec 6) (member : BitVec 8) (step : Word) (s : State) : Host.Outcome State Fault Refusal :=
  let h := s.hib
  let s := { s with hib := { h with
    answers := (group.toNat, member.toNat, step) :: h.answers.filter fun a => !(a.1 == group.toNat && a.2.1 == member.toNat) } }
  .next (match h.state with
    | .restore => s
    | .rejoin => s.rejoinStep
    | _ => { s with hib := h })

/-- REJOIN_TIMEOUT: members silent for 10 s leave their groups unresolved (23 R401). -/
def execRejoinTimeout (s : State) : Host.Outcome State Fault Refusal :=
  .next (if s.hib.state == .rejoin && decide (s.hib.since + 10000000 * usTicks ≤ s.now) then
    let silent := s.hib.groups.filter fun g => (s.groupStep g).isNone
    let s := silent.foldl (fun (s : State) g =>
      { s with hib := { s.hib with agreed := s.hib.agreed.set g.val (BitVec.allOnes 64) } }) s
    s.finishRejoin
  else s)

/-- A write of 1 to HB_CTL bit 1 in RUN: every held task becomes Ready (23 R401). -/
def State.releaseHeld (s : State) : State :=
  if s.hib.state != .run then s
  else s.tasks.foldl (fun s t => if t.state = .held then s.makeReady t.va .preempted else s) s

/-- HB_CTL_RELEASE by the supervisor complex. -/
def execHbCtlRelease (s : State) : Host.Outcome State Fault Refusal := .next s.releaseHeld

end Sys2Proof.Machine
end

