-- ==== Sys2Proof/Machine/Optics.lean ====
section
/-! DEFINITION. The optical layer: strand and ring registers, parking and waking, the lock loop with its line swaps, and link
training (24 R403-R412). -/

namespace Sys2Proof.Machine

/-! ### Strands and rings -/

/-- The channel of the ring is parked: its strand carries no flits on it (24 R408). -/
def State.ringDark (s : State) (r : RingId) : Bool := !(s.strands[(s.ringStrand r).val]).carry.getLsbD (s.rings[r.val]).chan.toNat

/-- The lock loop runs for the ring: it is enabled and neither parked nor waking (24 R406). -/
def State.ringLocks (s : State) (r : RingId) : Bool :=
  let x := s.rings[r.val]
  !x.disable && !x.wake && !s.ringDark r

/-- The ring's detuning is current (24 R405). -/
def State.ringValid (s : State) (r : RingId) : Bool := s.ringLocks r && (s.rings[r.val]).settle.isNone

/-- Ticks for which a swap or a re-centring keeps a channel from carrying flits (24 R407). -/
def settleTicks : Nat := 10 * usTicks

/-- Ticks of a wake (24 R409). -/
def wakeTicks : Nat := 102 * usTicks / 10

/-- The rings of a strand. -/
def State.strandRings (s : State) (i : StrandId) : List RingId :=
  (List.finRange 4096).filter fun r => (s.rings[r.val]).strand.toNat == i.val

/-- A wake of a strand begins, or joins the one in progress (24 R409). -/
def Strand.startWake (x : Strand) (now : Nat) : Strand := { x with wakeEnd := some (x.wakeEnd.getD (now + wakeTicks)) }

/-- The wake that the queue's depth asked for begins, as of the tick at which it did (24 R409). -/
def Strand.autoWake (x : Strand) : Strand :=
  match x.due with
  | none => x
  | some t =>
    let y := { x with amask := 0xFF, parking := false, parkDue := false, due := none }
    if x.carry = 0xFF then y else y.startWake t

/-- A ring of the strand wakes on its own: software has cleared its disable (24 R407, R409). One that trains alone does not (24 R412). -/
def State.ringWakes (s : State) (i : StrandId) : Bool := (s.strandRings i).any fun r => (s.rings[r.val]).wake && !(s.rings[r.val]).disable

/-- A wake of the strand or of one of its rings is in progress (24 R405, R409). -/
def State.wakes (s : State) (i : StrandId) : Bool := (s.strands[i.val]).wakeEnd.isSome || s.ringWakes i

/-- A park that waited for the strand's wakes is due once the last of them is over (24 R409). -/
def State.parkAfter (s : State) (i : StrandId) : State :=
  if (s.strands[i.val]).parkDue && !s.wakes i then s.modStrand i fun x => { x with parking := true, parkDue := false } else s

/-! ### Registers -/

/-- A write of OSTR_CTL (24 R405, R408, R409): a set bit wakes its channel, a cleared one parks it at the next flit boundary or,
during a wake, when that ends. A write of 0 is ignored. -/
def State.writeStrandCtl (s : State) (i : StrandId) (v : Word) : State :=
  let m : BitVec 8 := v.setWidth 8
  if m = 0 then s
  else s.modStrand i fun x =>
    let x := x.autoWake
    let woken := m &&& ~~~x.carry
    let parked := x.amask &&& ~~~m
    let y := { x with amask := m }
    let y := if woken = 0 then y else y.startWake s.now
    if parked = 0 then y
    else if y.wakeEnd.isSome || s.ringWakes i then { y with parkDue := true }
    else { y with parking := true }

/-- A write of OSTR_WTH (24 R405). -/
def State.writeStrandWth (s : State) (i : StrandId) (v : Word) : State :=
  s.modStrand i fun x => { x with wth := BitVec.ofNat 16 (min 1024 (v.toNat % 2 ^ 16)) }

/-- OSTR_CTL as read (24 R405). -/
def State.readStrandCtl (s : State) (i : StrandId) : Nat :=
  let x := s.strands[i.val]
  let peer := if s.deadStrand i then 0xFF else ((s.alloc[i.val]).use.peer).getD 0xFF
  x.amask.toNat + s.width i * 2 ^ 8 + peer * 2 ^ 16 + b2n (~~~x.amask &&& ~~~x.carry != 0) * 2 ^ 24 + b2n (s.wakes i) * 2 ^ 25

/-- A write of ORNG_HTR: the resonance moves with the code at once (24 R404, R405). -/
def State.writeHeater (s : State) (r : RingId) (v : Word) : State :=
  s.modRing r fun x => { x with heater := v.setWidth 10, detune := x.detune + ((v.toNat % 1024 : Nat) : Int) - x.heater.toNat }

/-- ORNG_MPD as read (24 R405); the photodiode's level is open (log 6). Before its fibre has trained a ring has no current detuning. -/
def State.readDiode (s : State) (r : RingId) : Nat :=
  let d := max (-128) (min 127 (s.rings[r.val]).detune)
  (Config.photodiode s.choices r.val).toNat + patternOf 8 d * 2 ^ 16 + b2n (s.ringValid r && s.boot.fibres.getLsbD (r.val / 64)) * 2 ^ 24

/-- ORNG_MAP as read (24 R405). -/
def State.readRingMap (s : State) (r : RingId) : Nat :=
  let x := s.rings[r.val]
  x.line % 64 + b2n x.sw * 2 ^ 6 + b2n x.disable * 2 ^ 7 + x.strand.toNat * 2 ^ 8 + x.chan.toNat * 2 ^ 18 + b2n x.swapped * 2 ^ 21
    + x.line / 64 * 2 ^ 22

/-- The line reaches the peer of the ring's strand, where it serves one. -/
def State.lineSuits (s : State) (r : RingId) (line : Nat) : Bool :=
  match (s.alloc[(s.ringStrand r).val]).use.peer with
  | some p => linePeer (r.val / 64) line == p
  | none => true

/-- The line that a ring returns to: its own where that still suits, else an unserved line, one that reaches its strand's peer where there
is one; which is not architected (24 R403, log 41). -/
def State.lineBack (s : State) (r : RingId) : Nat :=
  let x := s.rings[r.val]
  if s.lineSuits r x.line && s.unserved (r.val / 64) x.line then x.line
  else
    let free := (List.range 240).filter (s.unserved (r.val / 64))
    let l := if free.any (s.lineSuits r) then free.filter (s.lineSuits r) else free
    l.getD (Config.freeNat s.choices % l.length) x.line

/-- Another enabled ring carries the channel that the ring last carried. -/
def State.channelTaken (s : State) (r : RingId) : Bool :=
  let x := s.rings[r.val]
  (List.finRange 4096).any fun k =>
    let y := s.rings[k.val]
    k != r && !y.disable && y.strand == x.strand && y.chan == x.chan

/-- A channel of the ring's router that no enabled ring carries: of a strand of the peer that its line reaches, else of a pool strand, else of
another strand, the lowest first (24 R403, log 41). -/
def State.spareChannel (s : State) (r : RingId) : Option (Nat × Nat) :=
  let carried := s.rings.toList.foldl (fun m x => if x.disable then m else m ||| 2 ^ (x.strand.toNat * 8 + x.chan.toNat)) 0
  let mine := (s.strandsWhere fun _ => true).filter fun i => i.val / 256 == r.val / 2048
  let p := linePeer (r.val / 64) s.rings[r.val].line
  let of := fun (f : StrandUse → Bool) => (mine.filter fun i => f s.alloc[i.val].use).flatMap fun i =>
    ((List.range 8).filter fun c => !carried.testBit (i.val * 8 + c)).map fun c => (i.val, c)
  (of fun u => u.peer == some p).head?.or ((of fun u => u == .pool).head?.or (of fun _ => true).head?)

/-- A ring comes back into service on a line of its fibre: with the channel it last carried, or with one that no ring carries. Where the line
does not reach its strand's peer, the channel moves (24 R403, R407; log 41). -/
def State.restoreRing (s : State) (r : RingId) : State :=
  let s := if s.channelTaken r then
      match s.spareChannel r with
      | some (i, c) => s.modRing r fun x => { x with strand := BitVec.ofNat 10 i, chan := BitVec.ofNat 3 c }
      | none => s
    else s
  let i := s.ringStrand r
  let s := (s.settleStrand i).modRing r fun x => { x with disable := false, line := s.lineBack r }
  let s := { s with choices := s.choices + 1 }
  match (s.alloc[i.val]).use.peer with
  | some p => if s.lineSuits r (s.rings[r.val]).line then s else s.moveChannel p r
  | none => s

/-- A disabled ring is enabled: it wakes, or joins its strand's wake (24 R407, R409). -/
def State.enableRing (s : State) (r : RingId) : State :=
  let s := s.restoreRing r
  let t := ((s.strands[(s.ringStrand r).val]).wakeEnd).getD (s.now + wakeTicks)
  s.modRing r fun x => { x with settle := some t, wake := true }

/-- A strand whose every channel is disabled gives its allocation back to the pool, wherever it was bound for (24 R410, 15 R319). -/
def State.dropDead (s : State) (i : StrandId) : State :=
  let a := s.alloc[i.val]
  if a.dest == .pool || !s.deadStrand i then s
  else
    let s := (s.accrue).departStrands [i]
    (s.modAlloc i fun _ => { use := .pool, moving := some (.pool, s.clearTick [i] + retuneTicks) }).sweepLeases

/-- A ring is taken out of service: its channel leaves its strand, and an entry holds its number (24 R407; 19 R355). Such an entry has no
violation class, so its code is open (log 6). -/
def State.logRing (s : State) (n : Nat) : State :=
  { s with choices := s.choices + 1 }.logModule n 0 1 (Config.freeNat s.choices % 256)

/-- A ring is disabled by software or by the device (24 R407, R410). -/
def State.disableRing (s : State) (r : RingId) : State :=
  let i := s.ringStrand r
  let s := (s.settleStrand i).modRing r fun x => { x with disable := true, settle := none, wake := false }
  ((s.logRing r.val).dropDead i).parkAfter i

/-- A write of ORNG_MAP (24 R405, R407): sw, disable, and swapped by writing 1. -/
def State.writeRingMap (s : State) (r : RingId) (v : Word) : State :=
  let was := (s.rings[r.val]).disable
  let s := s.modRing r fun x => { x with sw := v.getLsbD 6, swapped := x.swapped && !v.getLsbD 21 }
  if v.getLsbD 7 == was then s
  else if was then s.enableRing r
  else s.disableRing r

/-- OSTR_CTL by the supervisor complex. -/
def execOstrCtl (i : StrandId) (v : Word) (s : State) : Host.Outcome State Fault Refusal := .next (s.supervise fun s => s.writeStrandCtl i v)

/-- OSTR_WTH by the supervisor complex. -/
def execOstrWth (i : StrandId) (v : Word) (s : State) : Host.Outcome State Fault Refusal := .next (s.supervise fun s => s.writeStrandWth i v)

/-- ORNG_HTR by the supervisor complex. -/
def execOrngHtr (r : RingId) (v : Word) (s : State) : Host.Outcome State Fault Refusal := .next (s.supervise fun s => s.writeHeater r v)

/-- ORNG_MAP by the supervisor complex. -/
def execOrngMap (r : RingId) (v : Word) (s : State) : Host.Outcome State Fault Refusal := .next (s.supervise fun s => s.writeRingMap r v)

/-! ### Parking and waking -/

/-- The strand that the step's subject names. -/
def State.subjStrand (s : State) : StrandId := Fin.ofNat 512 s.subj

/-- The ring that the step's subject names. -/
def State.subjRing (s : State) : RingId := Fin.ofNat 4096 s.subj

/-- STRAND_PARK: at a flit boundary the cleared channels park (24 R408). -/
def execStrandPark (s : State) : Host.Outcome State Fault Refusal :=
  let i := s.subjStrand
  .next (if (s.strands[i.val]).parking && s.flitBoundary i then
    s.modStrand i fun x => let y := x.autoWake; if y.parking then { y with carry := y.carry &&& y.amask, parking := false } else y
  else s)

/-- AUTO_WAKE: the wake begins that a flit asked for when it brought the queue to a nonzero threshold while a channel was parked
(24 R409, R411). -/
def execAutoWake (s : State) : Host.Outcome State Fault Refusal :=
  .next (if (s.strands[s.subjStrand.val]).due.isSome then s.modStrand s.subjStrand Strand.autoWake else s)

/-- WAKE_COMPLETE: at a flit boundary after the wake's end the strand restripes; a park that waited follows (24 R409). -/
def execWakeComplete (s : State) : Host.Outcome State Fault Refusal :=
  let i := s.subjStrand
  .next (match (s.strands[i.val]).wakeEnd with
    | some t =>
      if t ≤ s.now && s.flitBoundary i then
        (s.modStrand i fun x => { x with carry := x.carry ||| x.amask, wakeEnd := none }).parkAfter i
      else s
    | none => s)

/-- IN_BAND_CONTROL_FLIT: this module's receivers of a peer's strand follow the mask it announces (24 R408). -/
def execInBandControlFlit (peer : Fin 30) (strand : StrandId) (amask : BitVec 8) (s : State) : Host.Outcome State Fault Refusal :=
  .next { s with receivers := putKey (peer.val * 512 + strand.val) amask s.receivers }

/-! ### The lock loop -/

/-- The enabled ring of a fibre that serves a line (24 R403). -/
def State.ringAt (s : State) (fibre : Nat) (line : Int) : Option RingId :=
  (List.finRange 4096).find? fun r => r.val / 64 == fibre && !(s.rings[r.val]).disable && decide (((s.rings[r.val]).line : Int) = line)

/-- The wake of a ring's channel, if one is in progress, ends no earlier than a tick (24 R411). -/
def State.holdWake (s : State) (r : RingId) (t : Nat) : State :=
  if s.ringDark r && (s.strands[(s.ringStrand r).val]).amask.getLsbD (s.rings[r.val]).chan.toNat then
    s.modStrand (s.ringStrand r) fun x => { x with wakeEnd := x.wakeEnd.map (max t) }
  else s

/-- The tick until which a ring settles is no earlier than this one. -/
def Ring.settleUntil (x : Ring) (t : Nat) : Ring := { x with settle := some (max t (x.settle.getD 0)) }

/-- A saturated ring takes its neighbour's line, is disabled, or is re-centred (24 R407). Heater and tuner or line move together,
so no detuning changes; a wake goes with its channel, and ends no earlier than the swap's 10 µs (24 R411). -/
def State.lineSwap (s : State) (r : RingId) : State :=
  let x := s.rings[r.val]
  let dir : Int := if x.heater = 0 then 1 else -1
  let code : BitVec 10 := BitVec.ofInt 10 (x.heater.toNat + 80 * dir)
  let t := s.now + settleTicks
  match s.ringAt (r.val / 64) (x.line + dir) with
  | none =>
    (s.settleStrand (s.ringStrand r)).modRing r fun x => { x with heater := code }.settleUntil t
  | some q =>
    let y := s.rings[q.val]
    let other : Int := y.heater.toNat - 80 * dir
    if 16 ≤ other ∧ other ≤ 1007 then
      let s := ((s.settleStrand (s.ringStrand r)).settleStrand (s.ringStrand q))
      let s := s.modRing r fun _ => { y with heater := code, sw := x.sw, detune := x.detune, swapped := true }.settleUntil t
      let s := s.modRing q fun _ =>
        { x with heater := BitVec.ofInt 10 other, sw := y.sw, detune := y.detune, swapped := true }.settleUntil t
      (s.holdWake r t).holdWake q t
    else s.disableRing r

/-- The loop's correction of one ring (24 R406). -/
def State.lockRing (s : State) (r : RingId) : State :=
  let x := s.rings[r.val]
  if !s.ringValid r || x.sw then s
  else
    let new : Int := max 0 (min 1023 ((x.heater.toNat : Int) - max (-16) (min 16 x.detune)))
    s.modRing r fun x => { x with heater := BitVec.ofInt 10 new, detune := x.detune + new - x.heater.toNat }

/-- One lock period of a chiplet, after its rings have drifted so many codes since the last: every heater is corrected, then
saturated rings swap (24 R406, R407). -/
def State.lockPeriod (s : State) (chiplet : Fin 16) (drift : List Int) : State :=
  let rings := (List.finRange 4096).filter fun r => r.val / 256 == chiplet.val
  let s := rings.foldl (fun s r => s.modRing r fun x => { x with detune := x.detune + drift.getD (r.val % 256) 0 }) s
  let s := rings.foldl State.lockRing s
  rings.foldl (fun s r =>
    let h := (s.rings[r.val]).heater
    if s.ringLocks r && (h == 0 || h == 1023) then s.lineSwap r else s) s

/-- The loop of a chiplet runs every 50 µs (24 R406). -/
def lockTicks : Nat := 50 * usTicks

/-- LOCK_LOOP_PERIOD of a chiplet, once 50 µs have passed since its last (24 R406). -/
def execLockLoopPeriod (chiplet : Fin 16) (drift : List Int) (s : State) : Host.Outcome State Fault Refusal :=
  .next (if s.lockedAt[chiplet] + lockTicks ≤ s.now then
    ({ s with lockedAt := s.lockedAt.set chiplet s.now }).lockPeriod chiplet drift
  else s)

/-- RING_RESETTLE_DONE: the channel carries flits again (24 R407, R409); a channel trained alone is back in service (24 R412). -/
def execRingResettleDone (s : State) : Host.Outcome State Fault Refusal :=
  let r := s.subjRing
  .next (match (s.rings[r.val]).settle with
    | some t =>
      let x := s.rings[r.val]
      if s.now < t then s
      else
        let s := (s.settleStrand (s.ringStrand r)).modRing r fun x => { x with settle := none, wake := false }
        if x.disable && x.wake then s.restoreRing r else s.parkAfter (s.ringStrand r)
    | none => s)

/-- CDR_LOSS: the channel is disabled and trains alone, on its line, with the heater code its sweep finds; the training may fail, and
ends within 50 ms (24 R412; log 6, log 43). Leases and allocations stay. -/
def execCdrLoss (s : State) : Host.Outcome State Fault Refusal :=
  let r := s.subjRing
  let k := s.choices
  .next (if (s.rings[r.val]).disable then s
  else
    let s := ((s.settleStrand (s.ringStrand r)).logRing r.val)
    let s := { s with choices := k + 4 }
    if Config.freeBool k then
      let t := s.now + Config.freeNat (k + 1) % (50000 * usTicks)
      s.modRing r fun x => { x with
        disable := true, wake := true, settle := some t, heater := BitVec.ofNat 10 (Config.freeNat (k + 2)), detune := 0 }
    else (s.modRing r fun x => { x with disable := true, wake := false, settle := none }).logRing r.val)

/-! ### Link training -/

/-- A fibre's rings as steps 1 to 5 of its training leave them; each failure is logged (24 R412). A fibre that fails names its
first ring (log 43). -/
def State.trainFibre (s : State) (fibre : Fin 64) (res : TrainResult) : State :=
  let s := if res.ok then s else s.logRing (fibre.val * 64)
  ((List.finRange 4096).filter fun r => r.val / 64 == fibre.val).foldl (fun s r =>
    let on := res.ok && res.rings.getD (r.val % 64) false
    let s := s.modRing r fun x =>
      { x with disable := !on, heater := res.heaters.getD (r.val % 64) x.heater, detune := 0, settle := none, wake := false }
    if on || !res.ok then s else s.logRing r.val) s

/-- Step 6: the strands of a router form, every channel active (24 R403, R412). -/
def State.formStrands (s : State) (router : Nat) : State :=
  let f := formation (fun r => !((s.rings[r]?).map (·.disable)).getD true) router
  { s with
    rings := Vector.ofFn fun r : Fin 4096 => if r.val / 2048 == router then (s.rings[r.val]).formed r.val (f[r.val % 2048]?).join else s.rings[r.val]
    strands := Vector.ofFn fun i : Fin 512 =>
      if i.val / 256 == router then
        { s.strands[i.val] with amask := 0xFF, carry := 0xFF, wakeEnd := none, parkDue := false, parking := false }
      else s.strands[i.val] }

/-- Every channel of the strand is enabled (24 R403). -/
def State.fullStrand (s : State) (i : Nat) : Bool :=
  decide (8 ≤ ((List.finRange 4096).filter fun r => !(s.rings[r.val]).disable && (s.rings[r.val]).strand.toNat == i).length)

/-- The strands that step 6 leaves short and that were full before: each is logged with its number (24 R412, log 43). -/
def State.logShort (s old : State) (router : Nat) : State :=
  (((List.range 240).map (· + 256 * router)).filter fun i => !s.fullStrand i && old.fullStrand i).foldl State.logRing s

/-- The positions of a router that step 7 counts as untrained though the extents have them: each is logged with its module's number
(24 R412, log 43). -/
def State.logUntrained (s : State) (router : Nat) : State :=
  ((((List.range 15).map (· + 15 * router)).map s.peerModuleOf).filter fun m =>
    decide (m / 16 < s.fabRows) && decide (m % 16 < s.fabCols) && m != s.modid.toNat && !s.isTrained m).foldl State.logRing s

/-- Step 8: of each present peer's full strands the first four are its floor, the others its default; every other strand is in the
pool (15 R306, 24 R403, R412). -/
def State.formAllocs (s : State) (router : Nat) : State :=
  { s with alloc := Vector.ofFn fun i : Fin 512 =>
      if i.val / 256 != router then s.alloc[i.val]
      else
        let p := i.val % 256 / 16
        let peer := p + 15 * router
        let first := router * 256 + 16 * p
        if decide (p < 15) && s.peerPresent peer && s.fullStrand i.val then
          let before := ((List.range (i.val - first)).filter fun k => s.fullStrand (first + k)).length
          { use := if before < 4 then .floor peer else .default peer }
        else { use := .pool } }

end Sys2Proof.Machine
end

