-- ==== Sys2Proof/Machine/Boot.lean ====
section
/-! DEFINITION. Power-off and power-on, firmware verification, link training as a step of it, attestation and partitions
(23 R395, R399; 24 R412; 25 R413-R419). -/

namespace Sys2Proof.Machine

/-! ### Manifests at boot -/

/-- Step 6: with a valid manifest the module waits in RESTORE, else it runs with no contexts (23 R399, 25 R413). -/
def State.readManifests (s : State) : State :=
  match s.newestManifest with
  | none => { s with hib := { s.hib with state := .run, since := s.now } }.applyShed
  | some (_, gen, es) => { s with hib := { s.hib with state := .restore, since := s.now, gen := BitVec.ofNat 32 gen, entries := es } }

/-- The flits that wait for each peer of a router. -/
def State.queuedFor (s : State) (router : Nat) : List (Nat × Nat) :=
  ((List.range 15).map (· + 15 * router)).map fun p => (p, (s.strandsWhere fun a => a.use.peer == some p).foldl (fun n i => n + s.queueDepth i) 0)

/-- The egress buffers of a router's strands are empty. -/
def State.emptyQueues (s : State) (router : Nat) : State :=
  { s with strands := Vector.ofFn fun i : Fin 512 =>
      if i.val / 256 == router then { s.strands[i.val] with qd := 0, qdAt := s.now, flying := false } else s.strands[i.val] }

/-- Flits that waited for a peer wait on a strand that serves it now: no flit is lost (15 R310). Which strand is not architected. -/
def State.requeue (s : State) (l : List (Nat × Nat)) : State :=
  l.foldl (fun s (p, n) =>
    if n = 0 then s
    else match s.pick 1 (s.strandsOf p) with
      | (s, i :: _) => s.modStrand i fun x => x.push n s.now
      | (s, []) => s) s

/-- An installed extent of the fabric: 1 to 16 (01 R23). -/
def extent (n : BitVec 5) : Nat := max 1 (min 16 n.toNat)

/-- Whether training has found a coordinator; a module that found none holds 2,600 tokens in every period, with what peers have given and
less what it has given (22 R383). -/
def Power.withCoordinator (p : Power) (coord : Bool) : Power :=
  if coord then { p with coord := true }
  else { p with coord := false, tokNow := heldTokens 2600 p.netNow, tokNext := heldTokens 2600 p.netNext }

/-- LINK_TRAINING of a fibre (24 R412): its rings, then the strands of its router, the fabric as step 7 finds it, and the lease table
initialised for the router's peers (log 43). At boot the manifests are read once every fibre has trained (25 R413), but a warning
during the training runs to power-off (23 R402). -/
def execLinkTraining (fibre : Fin 64) (res : TrainResult) (s : State) : Host.Outcome State Fault Refusal :=
  if s.boot.step == .off || s.boot.step == .recovery then .next s
  else
    let router := fibre.val / 32
    let s := s.accrue
    let waiting := s.queuedFor router
    let old := s
    let s := (((s.emptyQueues router).trainFibre fibre res).formStrands router).logShort old router
    let fibres := s.boot.fibres ||| BitVec.ofNat 64 (2 ^ fibre.val)
    let s := { s with
      fabRows := extent res.rows, fabCols := extent res.cols, trained := res.trained
      power := s.power.withCoordinator res.coord
      leases := s.leases.filter fun l => peerRouter l.peer != router
      boot := { s.boot with fibres := fibres } }
    let s := (((s.logUntrained router).formAllocs router).requeue waiting).refloor
    .next (if s.boot.step == .training && fibres == BitVec.allOnes 64 && s.hib.state == .run then
      { s with boot := { s.boot with step := .done } }.readManifests
    else s)

/-! ### Firmware -/

/-- The magic of a firmware image (25 R414). -/
def imageMagic : Nat := 0x4B474657

/-- A field of an image's header. -/
def imageField (image : List Byte) (off n : Nat) : Nat := natOfBytes ((image.drop off).take n)

/-- The payload of an image, by the length its header gives. -/
def imagePayload (image : List Byte) : List Byte := (image.drop 256).take (imageField image 8 8)

/-- The ROM accepts an image of a kind (25 R414). -/
def State.imageOk (s : State) (kind : Nat) (image : List Byte) : Bool :=
  decide (256 + imageField image 8 8 ≤ image.length)
    && imageField image 0 4 == imageMagic
    && imageField image 4 2 == kind
    && Config.verifyRoot (Config.sha384 (image.take 0x48)) (signatureOf ((image.drop 0x48).take 96))
    && (Config.sha384 (imagePayload image)).toNat == imageField image 0x18 48
    && imageField image 0xA8 88 == 0
    && decide (((s.boot.rollback[kind - 1]?).map (·.toNat)).getD 0 ≤ imageField image 6 2)

/-- A boot-flash slot of an image kind. -/
def flashSlot (kind : Nat) (slot : Bool) : Fin 4 := Fin.ofNat 4 (2 * (kind - 1) + b2n slot)

/-- The image that the ROM takes for a kind: slot 0, else slot 1 (25 R414). -/
def State.bootImage (s : State) (kind : Nat) : Option (List Byte) :=
  ([false, true].filterMap fun k => s.boot.flash[flashSlot kind k]).find? fun image => s.imageOk kind image

/-- Steps 1 to 4 (25 R413). A failed self-test leaves the module off and is reported; without an image of each kind, or with LPDDR5X that does
not train, it comes to recovery (R415); else firmware stands in LPDDR5X at its load address and the fibres train. Which tests pass is open
(log 6). -/
def State.bootUp (s : State) : State :=
  let k := s.choices
  let s := { s with choices := k + 2 }
  if !Config.freeBool k then
    { s with hib := { s.hib with state := .off }, boot := { s.boot with step := .off, fault := true, offSince := s.now } }
  else
  let s := { s with boot := { s.boot with fault := false } }
  match s.bootImage 1, s.bootImage 2, Config.freeBool (k + 1) with
  | some a, some b, true =>
    { s with boot := { s.boot with
        step := .training, fibres := 0
        memory := Mem.put [] (imageField a 0x10 8 % 2 ^ 37) (imagePayload a)
        digests := #v[BitVec.ofNat 384 (imageField a 0x18 48), BitVec.ofNat 384 (imageField b 0x18 48)]
        secvers := #v[BitVec.ofNat 16 (imageField a 6 2), BitVec.ofNat 16 (imageField b 6 2)] } }
  | _, _, _ => { s with boot := { s.boot with step := .recovery } }

/-- Supervisor firmware raises the rollback counter of a kind; nothing lowers it (25 R414). -/
def State.raiseRollback (s : State) (kind : Fin 2) (v : BitVec 16) : State :=
  s.supervise fun s =>
    { s with boot := { s.boot with rollback := s.boot.rollback.set kind (BitVec.ofNat 16 (max s.boot.rollback[kind].toNat v.toNat)) } }

/-- FLASH_IMAGE_WRITE: in recovery an image that passes the checks is written, and the module boots again (25 R415). -/
def execFlashImageWrite (kind : BitVec 16) (slot : Bool) (image : List Byte) (s : State) : Host.Outcome State Fault Refusal :=
  .next (if s.boot.step == .recovery && (kind == 1 || kind == 2) && s.imageOk kind.toNat image then
    { s with boot := { s.boot with flash := s.boot.flash.set (flashSlot kind.toNat slot).val (some image) } }.bootUp
  else s)

/-! ### Power -/

/-- What is left of the module without power: the SCM media, the boot flash, the fuses, the reserve, and the model's own
fields (23 R395, 25 R413; log 45). -/
def State.unpowered (s : State) : State :=
  { State.reset with
    scm := s.scm
    modid := s.modid
    boot := { ({} : Boot) with step := .off, fibres := 0, flash := s.boot.flash, rollback := s.boot.rollback, serial := s.boot.serial, offSince := s.now }
    hib := { ({} : Hib) with
      state := .off, cause := s.hib.cause, reserve := s.hib.reserve, since := s.now
      imageTasks := s.hib.imageTasks, imageRegions := s.hib.imageRegions, imageSteps := s.hib.imageSteps
      imageMembers := s.hib.imageMembers, imageGen := s.hib.imageGen }
    now := s.now
    choices := s.choices
    agenda := s.agenda }

/-- Ticks from power-off to the restart, where input is there (23 R395). -/
def restartTicks : Nat := 100000 * usTicks

/-- POWER_OFF after the seal (23 R395). Without input the module stays off until the bus returns. -/
def execPowerOff (inputPresent : Bool) (s : State) : Host.Outcome State Fault Refusal :=
  .next (if s.hib.state == .off && s.powered then
    let u := s.unpowered
    { u with boot := { u.boot with offSince := if inputPresent then s.now else s.now - restartTicks } }
  else s)

/-- A module that stays off after a failed self-test tries again once the bus has come back since (25 R413). -/
def State.mayPowerOn (s : State) : Bool :=
  s.boot.step == .off && actDue s.now s.power.highSince (1000 * usTicks) 0 0 && decide (s.boot.offSince + restartTicks ≤ s.now)
    && (!s.boot.fault || decide (s.boot.offSince < s.power.highSince.getD 0))

/-- POWER_ON: the bus has been above the restore threshold for 1 ms (25 R413). The charge of the reserve is open (log 6). -/
def execPowerOn (volts : BitVec 16) (s : State) : Host.Outcome State Fault Refusal :=
  let s := s.readBus volts
  .next (if s.mayPowerOn then
    { s with
      choices := s.choices + 1
      hib := { s.hib with state := .run, reserve := min ({} : Hib).reserve (Config.freeNat s.choices) } }.bootUp
  else s)

/-! ### Attestation -/

/-- What software reads of the identity key: the device certificate, and nothing else. The private key stands in no state and no register: a
module only signs with it (25 R416; log 7). -/
def State.readIdentity (_ : State) : List Byte := Config.certificate

/-- The nonce and the place of the report are aligned and resident (25 R417). -/
def State.attestOk (s : State) : Bool :=
  let a := s.boot.attIn.toNat
  let b := s.boot.attOut.toNat
  a % 64 == 0 && b % 64 == 0 && s.rangeResident a 48 && s.rangeResident b 512

/-- A write of ATT_CTL: ignored while busy (25 R417). -/
def State.startAttest (s : State) (v : Word) : State :=
  if !v.getLsbD 0 || s.boot.attStat == 1 then s
  else { s with boot := { s.boot with attStat := if s.attestOk then 1 else 3 } }

/-- ATT_CTL by the supervisor complex. -/
def execAttCtl (v : Word) (s : State) : Host.Outcome State Fault Refusal := .next (s.supervise fun s => s.startAttest v)

/-- The PART_CTL values of the partitions, as bytes. -/
def State.partBytes (s : State) : List Byte := s.parts.toList.flatMap fun p => bytesOfNat 8 p.ctl.toNat

/-- The report of 512 bytes (25 R417). The spec gives the order of its parts and not their places: they stand one after another, and
what fills the rest before the signature is open (log 45). -/
def State.report (s : State) (nonce : List Byte) : List Byte :=
  let b := s.boot
  let parts := nonce ++ bytesOfNat 1 s.modid.toNat ++ bytesOfNat 64 b.serial.toNat
    ++ bytesOfNat 48 b.digests[0].toNat ++ bytesOfNat 2 b.secvers[0].toNat ++ bytesOfNat 48 b.digests[1].toNat ++ bytesOfNat 2 b.secvers[1].toNat
    ++ bytesOfNat 2 b.rollback[0].toNat ++ bytesOfNat 2 b.rollback[1].toNat ++ bytesOfNat 4 s.hib.gen.toNat
    ++ bytesOfNat 48 (Config.sha384 s.partBytes).toNat
  let body := parts ++ bytesOfNat (416 - parts.length) (Config.freeNat s.choices)
  body ++ signatureBytes (Config.sign (Config.sha384 body))

/-- ATTESTATION_DONE (25 R417). -/
def execAttestationDone (s : State) : Host.Outcome State Fault Refusal :=
  let stat := fun (s : State) (v : BitVec 2) => { s with boot := { s.boot with attStat := v } }
  .next (if s.boot.attStat != 1 then s
  else if !s.attestOk then stat s 3
  else match s.fetchIa s.boot.attIn.toNat 48 with
    | (s, none) => stat s 3
    | (s, some nonce) =>
      match s.writeIa s.boot.attOut.toNat (s.report nonce) with
      | none => stat s 3
      | some s => stat { s with choices := s.choices + 1 } 2)

/-! ### Partitions -/

/-- PART_CTL keeps its reserved bits zero (25 R419). -/
def partMask : BitVec 32 := 0xFFFFFF01

/-- The dies a PART_CTL value owns: none while it is not enabled. -/
def partDies (ctl : BitVec 32) : Nat := if ctl.getLsbD 0 then bitsOf ctl.toNat 8 8 else 0

/-- The root region of a PART_CTL value. -/
def partRoot (ctl : BitVec 32) : Nat := bitsOf ctl.toNat 16 16

/-- A die hosts a task, or a slot of its clusters is claimed (25 R419). -/
def State.dieUsed (s : State) (die : Nat) : Bool :=
  ((dieCores die).any fun c => (s.core c).status != .idle)
    || (List.finRange 64).any fun cl => cl.val / 8 == die && (s.cluster cl).owner.any Option.isSome

/-- The refusal that a write of PART_CTL meets (25 R419), the lowest code where several hold. Another partition uses its dies and its root
while it is enabled (log 47). -/
def State.partCode (s : State) (p : Fin 8) (new : BitVec 32) : Option Nat :=
  let old := s.parts[p].ctl
  let others := (List.finRange 8).filter fun q => q != p && s.parts[q].ctl.getLsbD 0
  let on := new.getLsbD 0
  let changed := (List.range 8).filter fun d => bitsOf (partDies old) d 1 != bitsOf (partDies new) d 1
  ([ (1, others.any fun q => (List.range 8).any fun d => bitsOf new.toNat (8 + d) 1 == 1 && bitsOf (partDies s.parts[q].ctl) d 1 == 1)
   , (2, changed.any s.dieUsed)
   , (3, others.any fun q => partRoot s.parts[q].ctl == partRoot new)
   , (4, on && partDies new == 0) ] : List (Nat × Bool)).find? (·.2) |>.map (·.1)

/-- A write of PART_CTL of a partition (25 R419). -/
def State.writePartCtl (s : State) (p : Fin 8) (v : Word) : State :=
  let new : BitVec 32 := v.setWidth 32 &&& partMask
  let old := s.parts[p]
  match s.partCode p new with
  | some code => { s with parts := s.parts.set p.val { old with refusal := BitVec.ofNat 4 code } }
  | none => { s with parts := s.parts.set p.val { old with ctl := new } }

/-- PART_CTL by the supervisor complex. -/
def execPartCtl (p : BitVec 3) (v : Word) (s : State) : Host.Outcome State Fault Refusal := .next (s.superviseBooted fun s => s.writePartCtl p.toFin v)

end Sys2Proof.Machine
end

