-- ==== Sys2Proof/Machine/SysReg.lean ====
section
/-! DEFINITION. The module-shared system registers as MTSR, MFSR and the supervisor complex reach them (19 R350, R355; 20 R358;
21 R378; 22 R391; 23 R393; 24 R405; 25 R417-R419). -/

namespace Sys2Proof.Machine

/-! ### Reads -/

/-- Free ready entries and pending entries not carved (20 R358). -/
def State.poolWord (s : State) : Nat := (4096 - s.readyHeld) + s.poolUncarved % 2 ^ 15 * 2 ^ 16

/-- The code of a hibernation state; OFF, which no program reads, has none (23 R395). -/
def HbState.code : HbState → Nat
  | .run => 0
  | .warn => 1
  | .quiesce => 2
  | .flush => 3
  | .drain => 4
  | .seal => 5
  | .off => 6
  | .restore => 7
  | .rejoin => 8

/-- The code of a migration state (21 R378). -/
def MigState.code : MigState → Nat
  | .idle => 0
  | .hold => 1
  | .switch => 2
  | .forward => 3

/-- The last refusal of a partition and whether its root region is started (25 R419). -/
def State.partStat (s : State) (p : Fin 8) : Nat :=
  let x := s.parts[p]
  b2n (x.ctl.getLsbD 0 && (s.region (partRoot x.ctl)).isSome) + x.refusal.toNat * 2 ^ 4

/-- Register k of a partition (25 R419). -/
def State.partRead (s : State) (p : Fin 8) (k : Nat) : Nat :=
  let x := s.parts[p]
  match k with
  | 0 => x.ctl.toNat
  | 1 => x.shentry.toNat
  | 2 => x.strands.toNat
  | 3 => s.partStat p
  | _ => 0

/-- The error-log, dispatcher, partition, attestation and translation registers (19 R355, 20 R358, 21 R378, 25 R417, R419). A
register that is only written reads 0. -/
def State.readModule (s : State) (i : Nat) : Option Nat :=
  if i = 0x10000 then some s.elog.base.toNat
  else if i = 0x10001 then some s.elog.size.toNat
  else if i = 0x10002 then some s.elog.head.toNat
  else if i = 0x10003 then some s.elog.tail.toNat
  else if i = 0x10004 then some s.elog.lost.toNat
  else if i = 0x10100 then some s.rtabBase.toNat
  else if i = 0x10101 then some 0
  else if i = 0x10102 then some s.regStat.toNat
  else if i = 0x10103 ∨ i = 0x10104 then some 0
  else if i = 0x10105 then some s.poolWord
  else if 0x10200 ≤ i ∧ i < 0x10240 then some (s.partRead (Fin.ofNat 8 ((i - 0x10200) / 8)) (i % 8))
  else if i = 0x10300 then some s.boot.attIn.toNat
  else if i = 0x10301 then some s.boot.attOut.toNat
  else if i = 0x10302 then some 0
  else if i = 0x10303 then some s.boot.attStat.toNat
  else if i = 0x10800 then some s.trans.ptBase.toNat
  else if i = 0x10801 then some (b2n s.trans.ptCtl)
  else if i = 0x10808 then some s.trans.migIa.toNat
  else if i = 0x10809 then some s.trans.migNew.toNat
  else if i = 0x1080A then some 0
  else if i = 0x1080B then some (s.trans.migState.code + s.trans.migResult.toNat * 2 ^ 8)
  else none

/-- The hibernation registers (23 R393). -/
def State.readHib (s : State) (i : Nat) : Option Nat :=
  let h := s.hib
  if i = 0x11000 then some h.dlist.toNat
  else if i = 0x11001 then some h.dcnt.toNat
  else if i = 0x11002 then some (h.state.code + h.cause.toNat * 2 ^ 4 + h.gen.toNat * 2 ^ 32)
  else if i = 0x11003 then some (h.joules + b2n (h.reserve == ({} : Hib).reserve) * 2 ^ 16)
  else if i = 0x11004 then some h.selv.toNat
  else if i = 0x11005 then some h.manif.toNat
  else if i = 0x11006 then some h.data.toNat
  else if i = 0x11007 then some h.ctx.toNat
  else if i = 0x11008 then some h.ctxlen.toNat
  else if i = 0x11009 then some 0
  else if 0x11100 ≤ i ∧ i < 0x11200 then
    some (bitsOf (h.member[(i - 0x11100) / 4]?.getD 0).toNat (64 * (i % 4)) 64)
  else if 0x11200 ≤ i ∧ i < 0x11240 then some (h.step[i - 0x11200]?.getD 0).toNat
  else if 0x11240 ≤ i ∧ i < 0x11280 then some (h.agreed[i - 0x11240]?.getD 0).toNat
  else none

/-- The power and thermal registers (22 R391); a temperature is what the sensor says (log 6). -/
def State.readPower (s : State) (i : Nat) : Option Nat :=
  let p := s.power
  if i = 0x12000 then some p.cap.toNat
  else if i = 0x12001 then
    some (p.tokNow.toNat + p.tokNext.toNat * 2 ^ 16 + b2n p.coord * 2 ^ 32 + p.period.toNat * 2 ^ 40)
  else if i = 0x12002 then some 0
  else if i = 0x12003 then some (p.shedCap.toNat + p.shedBo.toNat * 2 ^ 8 + p.refusal.toNat * 2 ^ 16)
  else if 0x12008 ≤ i ∧ i < 0x12010 then
    some ((p.floors[i - 0x12008]?.getD 0).toNat + (p.effFloors[i - 0x12008]?.getD 0).toNat * 2 ^ 32)
  else if i = 0x12010 then some p.shedOrder.toNat
  else if i = 0x12011 then some (p.boShed.toNat + p.boAll.toNat * 2 ^ 8 + p.boRestore.toNat * 2 ^ 16)
  else if i = 0x12012 then some (p.volts.toNat + p.draw.toNat * 2 ^ 16)
  else if 0x12100 ≤ i ∧ i < 0x12200 then
    let x := s.core (Fin.ofNat 256 (i - 0x12100))
    some (x.loc.gated.toNat + x.loc.waking.toNat * 2 ^ 32)
  else if 0x12200 ≤ i ∧ i < 0x12204 then
    some ((p.l2gated[i - 0x12200]?.getD 0).toNat + (p.l2waking[i - 0x12200]?.getD 0).toNat * 2 ^ 16)
  else if 0x13000 ≤ i ∧ i < 0x13025 then some (Config.freeNat (s.choices * 64 + (i - 0x13000)) % 2 ^ 16)
  else none

/-- The optical registers (24 R405). -/
def State.readOptics (s : State) (i : Nat) : Option Nat :=
  if 0x14000 ≤ i ∧ i < 0x14200 then some (s.readStrandCtl (Fin.ofNat 512 (i - 0x14000)))
  else if 0x14200 ≤ i ∧ i < 0x14400 then some (s.strands[i - 0x14200]?.getD {}).wth.toNat
  else if 0x14400 ≤ i ∧ i < 0x14600 then some (min 1024 (s.queueDepth (Fin.ofNat 512 (i - 0x14400))))
  else if 0x15000 ≤ i ∧ i < 0x16000 then some (s.rings[i - 0x15000]?.getD {}).heater.toNat
  else if 0x16000 ≤ i ∧ i < 0x17000 then some (s.readDiode (Fin.ofNat 4096 (i - 0x16000)))
  else if 0x17000 ≤ i ∧ i < 0x18000 then some (s.readRingMap (Fin.ofNat 4096 (i - 0x17000)))
  else none

/-- A module-shared system register, or none where no register has the index (19 R350). -/
def State.sharedRead (s : State) (i : Nat) : Option Word :=
  (if i < 0x11000 then s.readModule i else if i < 0x12000 then s.readHib i else if i < 0x14000 then s.readPower i
    else s.readOptics i).map (BitVec.ofNat 64)

/-! ### Writes -/

/-- A word with its n low bits zero. -/
def lowZero (n : Nat) (v : Word) : Word := v >>> n <<< n

/-- ELOG_LOST: writing ones clears bits (19 R355). -/
def State.clearLost (s : State) (v : Word) : State :=
  { s with elog := { s.elog with lost := s.elog.lost &&& ~~~(v.setWidth 32) } }

/-- Register k of a partition written (25 R419). -/
def State.partWrite (s : State) (p : Fin 8) (k : Nat) (v : Word) : State :=
  match k with
  | 0 => s.writePartCtl p v
  | 1 => { s with parts := s.parts.set p.val { s.parts[p] with shentry := v } }
  | 2 => { s with parts := s.parts.set p.val { s.parts[p] with strands := v.setWidth 10 } }
  | _ => s

/-- A write to the error-log, dispatcher, partition, attestation and translation registers. -/
def State.writeModule (s : State) (i : Nat) (v : Word) (fromCore : Bool) : State :=
  let id := v.toNat % 2 ^ 16
  if i = 0x10000 then { s with elog := { s.elog with base := v.setWidth 56 } }
  else if i = 0x10001 then { s with elog := { s.elog with size := v.setWidth 17 } }
  else if i = 0x10004 then s.clearLost v
  else if i = 0x10100 then { s with rtabBase := v.setWidth 56 }
  else if i = 0x10101 then s.startRegion id fromCore
  else if i = 0x10103 then s.killRegion id
  else if i = 0x10104 then s.updateRegion id fromCore
  else if 0x10200 ≤ i ∧ i < 0x10240 then s.partWrite (Fin.ofNat 8 ((i - 0x10200) / 8)) (i % 8) v
  else if i = 0x10300 then { s with boot := { s.boot with attIn := v.setWidth 56 } }
  else if i = 0x10301 then { s with boot := { s.boot with attOut := v.setWidth 56 } }
  else if i = 0x10302 then s.startAttest v
  else if i = 0x10800 then { s with trans := { s.trans with ptBase := (lowZero 30 v).setWidth 39 } }
  else if i = 0x10801 then { s with trans := { s.trans with ptCtl := v.getLsbD 0 } }
  else if i = 0x10808 then { s with trans := { s.trans with migIa := (low16Zero v).setWidth 48 } }
  else if i = 0x10809 then { s with trans := { s.trans with migNew := v } }
  else if i = 0x1080A then s.startMigration v
  else s

/-- The drain list is locked from QUIESCE on (23 R395). -/
def Hib.locked (h : Hib) : Bool :=
  match h.state with
  | .quiesce | .flush | .drain | .seal | .off => true
  | .run | .warn | .restore | .rejoin => false

/-- HB_CTL (23 R393): bit 0 resumes, bit 1 releases held tasks. -/
def State.writeHibCtl (s : State) (v : Word) : State :=
  let s := if v.getLsbD 0 then s.resume else s
  if v.getLsbD 1 then s.releaseHeld else s

/-- A write to the hibernation registers (23 R393). -/
def State.writeHib (s : State) (i : Nat) (v : Word) : State :=
  let h := s.hib
  let low := low16Zero v
  if i = 0x11000 then if h.locked then s else { s with hib := { h with dlist := (lowZero 5 v).setWidth 56 } }
  else if i = 0x11001 then
    if h.locked ∨ 1024 < v.toNat % 2 ^ 11 then s else { s with hib := { h with dcnt := v.setWidth 11 } }
  else if i = 0x11004 then
    if 400 ≤ v.toNat % 2 ^ 16 ∧ v.toNat % 2 ^ 16 ≤ 1000 then { s with hib := { h with selv := v.setWidth 16 } } else s
  else if i = 0x11005 then { s with hib := { h with manif := (lowZero 21 v).setWidth 48 } }
  else if i = 0x11006 then { s with hib := { h with data := low.setWidth 48 } }
  else if i = 0x11007 then { s with hib := { h with ctx := low.setWidth 56 } }
  else if i = 0x11008 then { s with hib := { h with ctxlen := low.setWidth 32 } }
  else if i = 0x11009 then s.writeHibCtl v
  else if 0x11100 ≤ i ∧ i < 0x11200 then
    let g : Fin 64 := Fin.ofNat 64 ((i - 0x11100) / 4)
    let m := BitVec.ofNat 256 (withBits h.member[g].toNat (64 * (i % 4)) 64 v.toNat)
    { s with hib := { h with member := h.member.set g.val m } }
  else s

/-- A write to the power registers (22 R391). -/
def State.writePower (s : State) (i : Nat) (v : Word) (fromCore : Bool) : State :=
  if i = 0x12000 then s.writeCap v fromCore
  else if i = 0x12002 then s.writeGive v
  else if 0x12008 ≤ i ∧ i < 0x12010 then s.writeFloor (Fin.ofNat 8 (i - 0x12008)) v
  else if i = 0x12010 then s.writeShed v
  else if i = 0x12011 then s.writeBo v
  else if 0x12100 ≤ i ∧ i < 0x12200 then s.writeLgate (Fin.ofNat 256 (i - 0x12100)) v
  else if 0x12200 ≤ i ∧ i < 0x12204 then s.writeL2gate (Fin.ofNat 4 (i - 0x12200)) v
  else s

/-- A write to the optical registers (24 R405). -/
def State.writeOptics (s : State) (i : Nat) (v : Word) : State :=
  if 0x14000 ≤ i ∧ i < 0x14200 then s.writeStrandCtl (Fin.ofNat 512 (i - 0x14000)) v
  else if 0x14200 ≤ i ∧ i < 0x14400 then s.writeStrandWth (Fin.ofNat 512 (i - 0x14200)) v
  else if 0x15000 ≤ i ∧ i < 0x16000 then s.writeHeater (Fin.ofNat 4096 (i - 0x15000)) v
  else if 0x17000 ≤ i ∧ i < 0x18000 then s.writeRingMap (Fin.ofNat 4096 (i - 0x17000)) v
  else s

/-- A write to a module-shared register; read-only registers and reserved bits ignore it (19 R350). -/
def State.sharedWrite (s : State) (i : Nat) (v : Word) (fromCore : Bool) : State :=
  if i < 0x10000 then s
  else if i < 0x11000 then s.writeModule i v fromCore
  else if i < 0x12000 then s.writeHib i v
  else if i < 0x14000 then s.writePower i v fromCore
  else s.writeOptics i v

/-- The registers of step 7 of the boot: REG_START and the partition registers (25 R413). -/
def bootIndex (i : Nat) : Bool := i == 0x10101 || (decide (0x10200 ≤ i) && decide (i < 0x10240))

/-- The supervisor complex writes a module-shared register, with the effect of MTSR (25 R413, R418). -/
def State.superWrite (s : State) (i : Nat) (v : Word) : State :=
  if bootIndex i then s.superviseBooted fun s => s.sharedWrite i v false else s.supervise fun s => s.sharedWrite i v false

/-- The supervisor complex reads a module-shared register, with the effect of MFSR (25 R418). -/
def State.superRead (s : State) (i : Nat) : State :=
  s.supervise fun s => match s.sharedRead i with
    | some v => { s with choices := s.choices + 1, boot := { s.boot with superData := v } }
    | none => s

/-- The supervisor complex reaches its block of registers at a byte offset: register index i stands at 8·(i − 0x1_0000) (25 R418). An
offset of no register has no effect (log 83). -/
def State.superAccess (s : State) (off : Nat) (write : Option Word) : State :=
  if off % 8 ≠ 0 then s
  else match write with
    | some v => s.superWrite (0x10000 + off / 8) v
    | none => s.superRead (0x10000 + off / 8)

/-- SYSTEM_REGISTER_WRITE: the supervisor complex writes a module-shared register (19 R350, 25 R418). The registers of a core
are out of its reach. -/
def execSystemRegisterWrite (index : BitVec 17) (v : Word) (s : State) : Host.Outcome State Fault Refusal :=
  .next (s.superWrite index.toNat v)

/-- ELOG_LOST_CLEAR by the supervisor complex (19 R355). -/
def execElogLostClear (v : Word) (s : State) : Host.Outcome State Fault Refusal := .next (s.supervise fun s => s.clearLost v)

/-! ### MTSR and MFSR -/

/-- The index names a module-shared register. -/
def sharedIndex (index : BitVec 17) : Bool := decide (0x10000 ≤ index.toNat)

/-- The issuing core's task is of a region with the supervisor attribute (19 R341). -/
def State.superTask (s : State) : Bool := ((s.regionOf s.cur).map (·.super)).getD false

/-- A system register as the issuing core reads it, or none where no register has the index (19 R350). -/
def State.sysRead (s : State) (index : BitVec 17) : Option Word :=
  if sharedIndex index then s.sharedRead index.toNat else s.sysLocalRead s.cur index.toNat

/-- MTSR and MFSR in user mode, or with a module-shared index from a task without the supervisor attribute, trap PRIV; an index
that no register has traps ILLEGAL (19 R341, R350). -/
def State.trapSysReg (s : State) (index : BitVec 17) : Option Raise :=
  if !s.me.sys.mode || (sharedIndex index && !s.superTask) then some s.priv
  else failIf (s.sysRead index).isNone s.illegal

/-- MTSR (19 R351): a core-local write governs the next bundle, a module-shared one has performed before it. -/
def execMtsr (a : BitVec 5) (index : BitVec 17) (s : State) : Host.Outcome State Fault Refusal :=
  .next (s.orRaise (s.trapSysReg index) fun s =>
    if sharedIndex index then s.sharedWrite index.toNat (s.me.rs a) true else s.emit 1 (.sys index.toNat (s.me.rs a)))

/-- MFSR (19 R351): readable in the next bundle. -/
def execMfsr (d : BitVec 5) (index : BitVec 17) (s : State) : Host.Outcome State Fault Refusal :=
  .next (s.orRaise (s.trapSysReg index) fun s =>
    { s with choices := s.choices + 1 }.emit 1 (.s d ((s.sysRead index).getD 0)))

/-! ### The other privileged instructions of the K slot -/

/-- ERRACK (19 R351). -/
def execErrack (a : BitVec 5) (s : State) : Host.Outcome State Fault Refusal :=
  .next (s.orRaise s.privCheck fun s =>
    let e := s.elog
    { s with elog := { e with tail := BitVec.ofNat 64 (min (max e.tail.toNat (s.me.rs a).toNat) e.head.toNat) } })

/-- CKMARK: the task's checkpoint mark, at issue (19 R351). -/
def execCkmark (a : BitVec 5) (s : State) : Host.Outcome State Fault Refusal :=
  .next (s.orRaise s.privCheck fun s =>
    let v := s.me.rs a
    match s.taskOf s.cur with
    | some t => s.modTask t.va fun t => { t with ckmark := v }
    | none => s.modMe fun c => { c with sys := { c.sys with ckmark := v } })

/-- RTE traps PRIV in user mode, and ILLEGAL outside a system handler (19 R341, R351). -/
def State.trapRte (s : State) : Option Raise := pickRaise [s.privCheck, failIf (s.me.sys.mode && !s.me.sys.sh) s.illegal]

/-- RTE (19 R351). -/
def execRte (s : State) : Host.Outcome State Fault Refusal := .next (s.orRaise s.trapRte State.systemReturn)

/-- The core stops for the hibernation sequencer: its context stands at tbaddr, in the mode that the handler's entry left
(19 R352, 23 R395). -/
def State.stopCore (s : State) : State :=
  (s.modMe fun c => { c with status := .stopped, pc := c.sys.tbaddr, jump := none }).emit 1 .rte

/-- HALT (19 R352): issue stops after the other slots of its bundle, and the supervisor complex hears of it. In the PFW handler it is
PFACK. -/
def execHalt (s : State) : Host.Outcome State Fault Refusal :=
  .next (s.orRaise s.privCheck fun s =>
    if s.me.sys.inPfw then s.stopCore
    else { s.modMe fun c => { c with status := .halted } with supEvents := s.supEvents ++ [.halt s.cur.val] })

/-- PFACK traps PRIV in user mode, and ILLEGAL outside the PFW handler (19 R341, R351). -/
def State.trapPfack (s : State) : Option Raise := pickRaise [s.privCheck, failIf (s.me.sys.mode && !s.me.sys.inPfw) s.illegal]

/-- PFACK (19 R352). -/
def execPfack (s : State) : Host.Outcome State Fault Refusal := .next (s.orRaise s.trapPfack State.stopCore)

/-! ### Encodings that are no instruction -/

/-- The trap of a word that encodes no instruction: ILLEGAL; PRIV in user mode where its opcode is a privileged one of its slot class
(07 R124, 19 R341). -/
def State.trapWord (s : State) (cls : SlotClass) (w : BitVec 32) : Raise :=
  let op := (opOf w).toNat
  let reserved := (cls == .k || cls == .c) && decide (0x30 ≤ op) && decide (op ≤ 0x3F)
  if reserved && !s.me.sys.mode then .trap 0x02 (zext w) 0 else .trap 0x01 (zext w) 0

/-- NON_INSTRUCTION_ENCODING: it traps whatever its guard reads (07 R124). -/
def execNonInstruction (cls : SlotClass) (w : BitVec 32) (s : State) : Host.Outcome State Fault Refusal :=
  .next (s.raise (s.trapWord cls w))

end Sys2Proof.Machine
end

