-- ==== Sys2Proof/Machine/Fetch.lean ====
section
/-! DEFINITION. What happens at a bundle boundary before a bundle issues: the fetch (06 R118; 07 R120), the nullifier
(07 R136-R138), asynchronous traps and pre-emption (19 R344, R347, R352), and the end of a wait (08 R155-R159). -/

namespace Sys2Proof.Machine

/-! ### Fetch -/

/-- Bits of a bundle at an address that is no bundle address: open (log 6). -/
def State.oddBundle (s : State) : BitVec 256 :=
  Config.freeWord (4 * s.choices) ++ Config.freeWord (4 * s.choices + 1) ++ Config.freeWord (4 * s.choices + 2)
    ++ Config.freeWord (4 * s.choices + 3)

/-- The bundle at an intermediate address as memory has it now. -/
def State.freshBundle (s : State) (ia : Nat) : Except (Nat × Nat) (State × BitVec 256) :=
  (s.readLine (.core s.cur) ia 32).map fun (s, bs) => (s, BitVec.ofNat 256 (natOfBytes bs))

/-- Bundles that the instruction cache holds: 64 KiB (01 R14). -/
def icacheBundles : Nat := 2048

/-- A core's instruction cache takes a bundle; where it is full, one of the others goes, and the choice is open (log 5). -/
def State.cacheBundle (s : State) (ia : Nat) (b : BitVec 256) : State :=
  let l := s.me.icache.filter fun e => e.1 ≠ ia
  let l := if l.length < icacheBundles then l else l.eraseIdx (Config.freeNat s.choices % l.length)
  { s.modMe fun c => { c with icache := putKey ia b l } with choices := s.choices + 1 }

/-- The bundle at an intermediate address. The instruction cache holds what it has fetched since dispatch: where that differs from
memory now, a free choice decides (06 R118, log 5). -/
def State.cachedBundle (s : State) (ia : Nat) : Except (Nat × Nat) (State × BitVec 256) :=
  let stale := lookupKey ia s.me.icache
  match s.freshBundle ia, stale with
  | .ok (t, b), none => .ok (t.cacheBundle ia b, b)
  | .error e, none => .error e
  | r, some old =>
    let same := match r with | .ok (_, b) => b == old | .error _ => false
    if !same && Config.freeBool s.choices then .ok ({ s with choices := s.choices + 1 }, old)
    else r.map fun (t, b) => (t.cacheBundle ia b, b)

/-- The bundle at the pc, or the violation class and address that its fetch meets (05 R92, R101; 07 R120). -/
def State.fetchBundle (s : State) : Except (Nat × Nat) (State × BitVec 256) :=
  let pc := s.me.pc.toNat
  match translate s.me.sys.wins { x := true } pc with
  | .error e => .error (e, pc)
  | .ok ia =>
    if pc % 32 ≠ 0 then .ok ({ s with choices := s.choices + 1 }, s.oddBundle) else s.cachedBundle ia

/-- The words of a bundle that are not NOP. -/
def bundleSlots (b : BitVec 256) : List SlotWord := (decodeBundle b).filter fun sw => sw.instr != .nop

/-! ### The nullifier -/

/-- The privileged instructions (19 R351). -/
def Instr.privileged : Instr → Bool
  | .mtsr _ _ | .mfsr _ _ | .rte | .halt | .pfack | .xinv _ _ | .errack _ | .ckmark _ | .persist _ _ | .scmrd _ _ => true
  | _ => false

/-- A word that traps whatever its guard reads (07 R124). -/
def State.trapsAnyway (s : State) (i : Instr) : Bool :=
  match i with
  | .nonInstruction _ _ => true
  | i => Instr.privileged i && !s.me.sys.mode

/-- The bundle is skippable (07 R136): some word is not NOP, none of those is guarded by p0, every guard read 0 one sc ago, and none
traps whatever its guard reads. One that was kept and has been held since issues as if nothing had held it (05 R89; log 77). -/
def State.skippable (s : State) (b : BitVec 256) : Bool :=
  let l := bundleSlots b
  s.me.kept != some s.me.pc && !l.isEmpty && l.all fun sw => sw.guard != 0 && !s.me.pPrev[sw.guard.toNat] && !s.trapsAnyway sw.instr

/-- An abandoned wait that the core takes up with the bundle at the pc: its entry is of this handler level (02 R41, 08 R157; log 13). -/
def Core.takesUp (c : Core) : Option Reissue :=
  (c.reissue.find? fun r => r.uh == c.sys.uh && r.sh == c.sys.sh).filter fun r => r.bundle == c.pc

/-- A bundle that holds a vector or a transform word issues in the first sc of a vector cycle (22 R381). -/
def vectorBundle (b : BitVec 256) : Bool :=
  (bundleSlots b).any fun sw => sw.slot == .va || sw.slot == .vb || sw.slot == .x

/-- The core past a bundle that is skipped: its loop-back, or, at an abandoned wait, what followed that wait's own issue (02 R41, 07
R138; log 13). -/
def Core.pass (c : Core) : Core :=
  match c.takesUp with
  | some r => { c with pc := r.next, reissue := c.reissue.erase r }
  | none => c.advance

/-- A skippable bundle is skipped; a run of k costs ceil(k/4) - 1 sc (07 R137, R138). -/
def State.skipBundle (s : State) : State :=
  let s := s.modMe fun c => { c.pass with skipRun := c.skipRun + 1 }
  let k := s.me.skipRun
  if 4 < k ∧ k % 4 = 1 then s.tick s.cur else s

/-! ### Asynchronous traps -/

/-- A pending trap may be taken at this boundary (19 R343, R347, R349): PFW unless a system handler runs that has not issued 512
bundles under it, a user-class trap unless a handler runs. -/
def Sys.mayTake (y : Sys) (a : AsyncTrap) : Bool :=
  if a.cause == 0x14 then !y.sh || decide (512 ≤ y.held) else !y.sh && !y.uh

/-- The first trap is taken before the second: PFW first, then the older, then the lower cause (19 R344). -/
def AsyncTrap.before (a b : AsyncTrap) : Bool :=
  if (a.cause == 0x14) != (b.cause == 0x14) then a.cause == 0x14
  else decide (a.since < b.since) || (a.since == b.since && decide (a.cause ≤ b.cause))

/-- The asynchronous trap taken at this boundary, if one is (19 R344). -/
def Sys.nextAsync (y : Sys) : Option AsyncTrap :=
  (y.asyncs.filter y.mayTake).foldl (fun best a =>
    match best with
    | none => some a
    | some b => if b.before a then some b else some a) none

/-- A power-fail warning is pending. -/
def Sys.warned (y : Sys) : Bool := y.asyncs.any fun a => a.cause == 0x14

/-- The PFW held by a system handler is taken: that handler's state is lost, and the task is not resumable (19 R347). -/
def State.loseHandler (s : State) : State :=
  match s.taskOf s.cur with
  | some t => if s.me.sys.sh then s.modTask t.va fun t => { t with resumable := false } else s
  | none => s

/-- An asynchronous trap is taken: a wait is abandoned, and tbaddr names the bundle at the pc (02 R41; 08 R157; 19 R342, R344). -/
def State.takeAsync (s : State) (a : AsyncTrap) : State :=
  let s := s.modMe fun c =>
    { c.abandonWait with sys := { c.sys with asyncs := c.sys.asyncs.erase a } }
  let s := if a.cause == 0x14 then s.loseHandler else s
  s.takeTrap s.cur 0 a.cause false a.tinfo0 a.tinfo1 s.me.pc

/-- The core may take a trap: it runs, or waits. -/
def Core.atBoundary (c : Core) : Bool :=
  match c.status with
  | .running | .waiting _ => true
  | _ => false

/-- The pre-emption asked of the core's task, at a boundary outside a system handler (19 R347, 20 R365). -/
def State.preemptDue (s : State) : Option (Task × Nat) :=
  if s.me.sys.sh then none
  else match s.taskOf s.cur with
    | some t => t.preempt.map fun reason => (t, reason)
    | none => none

/-- What is taken at the current core's boundary before its next bundle: PFW, a pre-emption once the whole hoop may be saved, a
user-class trap (19 R344, R347). A running core waits at its boundary for the others of its hoop, but for one that has yet to use a
transient result (log 60); a waiting one goes on waiting. The boundary lies after the last bundle that issued: after a skip it has passed (07 R125; log 55). -/
def State.boundary (s : State) : Option State :=
  if s.me.skipRun ≠ 0 then none
  else
    let next := s.me.sys.nextAsync
    if (next.map (·.cause == 0x14)).getD false then next.map s.takeAsync
    else match s.preemptDue with
      | some (t, reason) =>
        if s.mayPreempt t reason then some (s.preemptNow t reason)
        else if s.me.status == .running && (reason == preemptYield || !s.me.transient) then some (s.tick s.cur)
        else none
      | none => next.map s.takeAsync

/-- ASYNC_TRAP_DELIVERY on the current core: the first pending trap, where no pre-emption comes before it (19 R344). -/
def execAsyncTrapDelivery (s : State) : Host.Outcome State Fault Refusal :=
  .next (if s.me.atBoundary && !s.me.shed && s.me.skipRun == 0 then
    match s.me.sys.nextAsync with
    | some a => if a.cause == 0x14 || s.preemptDue.isNone then s.takeAsync a else s
    | none => s
  else s)

/-- PFW_HOLD_EXPIRY on the current core: the system handler has issued 512 bundles since a PFW came (19 R347). -/
def execPfwHoldExpiry (s : State) : Host.Outcome State Fault Refusal :=
  .next (if s.me.atBoundary && !s.me.shed && s.me.skipRun == 0 && s.me.sys.sh then
    match s.me.sys.nextAsync with
    | some a => s.takeAsync a
    | none => s
  else s)

/-- The PFW handler has no bundle left: the core stops as by PFACK, with a log entry of kind 2 (19 R352). -/
def State.exhaust (s : State) : State := s.stopCore.logCore s.cur 0 2 0x14

/-- The PFW handler runs on the core, with no bundle left to it (19 R352). -/
def Core.exhausted (c : Core) : Bool := c.sys.inPfw && c.sys.pfbud == 0

/-- PFBUD_EXHAUSTED on the current core (19 R352). -/
def execPfbudExhausted (s : State) : Host.Outcome State Fault Refusal :=
  .next (if s.me.atBoundary && s.me.exhausted then s.exhaust else s)

/-! ### The end of a wait -/

/-- NULLIFIER_SKIP of the bundle at the current core's pc: at a boundary where nothing else is taken, the bundle is judged against the
sc in which it would issue (07 R136; 22 R381, R388). -/
def execNullifierSkip (s : State) : Host.Outcome State Fault Refusal :=
  .next (if s.me.status == .running && !s.me.shed && s.boundary.isNone && !s.me.exhausted then
    match s.fetchBundle with
    | .ok (t, b) => if !(vectorBundle b && !s.me.vecAligned) && t.skippable b then t.skipBundle else s
    | .error _ => s
  else s)

/-- A wait has ended: the next bundle issues in the following sc, or later where the wait says so (08 R155, R162). -/
def State.endWait (s : State) : State :=
  match s.me.status with
  | .waiting _ =>
    let d := s.me.delay
    (s.modMe fun c => { c with status := .running, pc := c.waitNext, delay := 1 }).ticks s.cur d
  | _ => s

/-- One look of a waiting core, and what follows from it (08 R155). -/
def State.waitStep (s : State) (w : Wait) : State :=
  match s.look s.cur w with
  | (s, .error r) => s.takeRaise r
  | (s, .ok (true, w)) => (s.satisfy s.cur w).endWait
  | (s, .ok (false, w)) => (s.modMe fun c => { c with status := .waiting w }).tick s.cur

/-- The wait's condition is seen true now, and no trap comes before it. -/
def State.seenTrue (s : State) (w : Wait) : Bool :=
  s.me.sys.nextAsync.isNone && !s.me.shed && match s.look s.cur w with
    | (_, .ok (ok, _)) => ok
    | _ => false

/-- WAIT_SATISFIED on the current core (08 R155). -/
def execWaitSatisfied (s : State) : Host.Outcome State Fault Refusal :=
  .next (match s.me.status with
    | .waiting w => if s.seenTrue w then s.waitStep w else s
    | _ => s)

/-- HBAR_COMPLETE on the current core: every core of its hoop has arrived (08 R159). -/
def execHbarComplete (s : State) : Host.Outcome State Fault Refusal :=
  .next (match s.me.status with
    | .waiting (.hoop k) => if s.seenTrue (.hoop k) then s.waitStep (.hoop k) else s
    | _ => s)

end Sys2Proof.Machine
end

