-- ==== Sys2Proof/Machine/Dispatch.lean ====
section
/-! DEFINITION. One arm for each constructor of `Instr`, in the order of spec/opcode_table.json: one direct call of
its meaning. -/

namespace Sys2Proof.Machine

/-- The meaning of an instruction or event at a state. -/
def exec (i : Instr) (s : State) : Host.Outcome State Fault Refusal :=
  match i with
  | .nop => Sys2Proof.Machine.execNop s
  | .nullifierSkip => Sys2Proof.Machine.execNullifierSkip s
  | .br off => Sys2Proof.Machine.execBr off s
  | .bri a => Sys2Proof.Machine.execBri a s
  | .call off => Sys2Proof.Machine.execCall off s
  | .calli a => Sys2Proof.Machine.execCalli a s
  | .ret => Sys2Proof.Machine.execRet s
  | .loop lc count len => Sys2Proof.Machine.execLoop lc count len s
  | .loopi lc count len => Sys2Proof.Machine.execLoopi lc count len s
  | .mloop lc count stages len => Sys2Proof.Machine.execMloop lc count stages len s
  | .lexit lc => Sys2Proof.Machine.execLexit lc s
  | .exit => Sys2Proof.Machine.execExit s
  | .yield => Sys2Proof.Machine.execYield s
  | .hbar => Sys2Proof.Machine.execHbar s
  | .hbarComplete => Sys2Proof.Machine.execHbarComplete s
  | .waitf h n => Sys2Proof.Machine.execWaitf h n s
  | .waite h n => Sys2Proof.Machine.execWaite h n s
  | .waita addr value cond w => Sys2Proof.Machine.execWaita addr value cond w s
  | .waitb n => Sys2Proof.Machine.execWaitb n s
  | .waitq mask => Sys2Proof.Machine.execWaitq mask s
  | .drain => Sys2Proof.Machine.execDrain s
  | .waitSatisfied => Sys2Proof.Machine.execWaitSatisfied s
  | .probe base len w => Sys2Proof.Machine.execProbe base len w s
  | .spawn task pd => Sys2Proof.Machine.execSpawn task pd s
  | .spawnw task => Sys2Proof.Machine.execSpawnw task s
  | .spawnwConversion => Sys2Proof.Machine.execSpawnwConversion s
  | .spawnWaitRetry => Sys2Proof.Machine.execSpawnWaitRetry s
  | .trap imm => Sys2Proof.Machine.execTrap imm s
  | .clkdiv dom code => Sys2Proof.Machine.execClkdiv dom code s
  | .rot imm => Sys2Proof.Machine.execRot imm s
  | .tret => Sys2Proof.Machine.execTret s
  | .rte => Sys2Proof.Machine.execRte s
  | .mtsr a index => Sys2Proof.Machine.execMtsr a index s
  | .mfsr d index => Sys2Proof.Machine.execMfsr d index s
  | .halt => Sys2Proof.Machine.execHalt s
  | .pfack => Sys2Proof.Machine.execPfack s
  | .pfbudExhausted => Sys2Proof.Machine.execPfbudExhausted s
  | .pfwHoldExpiry => Sys2Proof.Machine.execPfwHoldExpiry s
  | .xinv ia len => Sys2Proof.Machine.execXinv ia len s
  | .errack a => Sys2Proof.Machine.execErrack a s
  | .ckmark a => Sys2Proof.Machine.execCkmark a s
  | .add d a b => Sys2Proof.Machine.execAdd d a b s
  | .sub d a b => Sys2Proof.Machine.execSub d a b s
  | .mul d a b => Sys2Proof.Machine.execMul d a b s
  | .mulh d a b => Sys2Proof.Machine.execMulh d a b s
  | .mulhn d a b => Sys2Proof.Machine.execMulhn d a b s
  | .div d a b => Sys2Proof.Machine.execDiv d a b s
  | .divn d a b => Sys2Proof.Machine.execDivn d a b s
  | .rem d a b => Sys2Proof.Machine.execRem d a b s
  | .and d a b => Sys2Proof.Machine.execAnd d a b s
  | .or d a b => Sys2Proof.Machine.execOr d a b s
  | .xor d a b => Sys2Proof.Machine.execXor d a b s
  | .shl d a b => Sys2Proof.Machine.execShl d a b s
  | .shr d a b => Sys2Proof.Machine.execShr d a b s
  | .sra d a b => Sys2Proof.Machine.execSra d a b s
  | .min d a b => Sys2Proof.Machine.execMin d a b s
  | .max d a b => Sys2Proof.Machine.execMax d a b s
  | .minn d a b => Sys2Proof.Machine.execMinn d a b s
  | .maxn d a b => Sys2Proof.Machine.execMaxn d a b s
  | .clz d a => Sys2Proof.Machine.execClz d a s
  | .popc d a => Sys2Proof.Machine.execPopc d a s
  | .sel d a b p => Sys2Proof.Machine.execSel d a b p s
  | .addi d a imm => Sys2Proof.Machine.execAddi d a imm s
  | .andi d a imm => Sys2Proof.Machine.execAndi d a imm s
  | .ori d a imm => Sys2Proof.Machine.execOri d a imm s
  | .xori d a imm => Sys2Proof.Machine.execXori d a imm s
  | .shli d a imm => Sys2Proof.Machine.execShli d a imm s
  | .shri d a imm => Sys2Proof.Machine.execShri d a imm s
  | .srai d a imm => Sys2Proof.Machine.execSrai d a imm s
  | .movi d imm => Sys2Proof.Machine.execMovi d imm s
  | .movh d imm => Sys2Proof.Machine.execMovh d imm s
  | .cmp pd pc a b cond => Sys2Proof.Machine.execCmp pd pc a b cond s
  | .cmpeqi pd pc a imm => Sys2Proof.Machine.execCmpeqi pd pc a imm s
  | .cmplti pd pc a imm => Sys2Proof.Machine.execCmplti pd pc a imm s
  | .cmpltni pd pc a imm => Sys2Proof.Machine.execCmpltni pd pc a imm s
  | .pand pd pa pb => Sys2Proof.Machine.execPand pd pa pb s
  | .por pd pa pb => Sys2Proof.Machine.execPor pd pa pb s
  | .pxor pd pa pb => Sys2Proof.Machine.execPxor pd pa pb s
  | .pandn pd pa pb => Sys2Proof.Machine.execPandn pd pa pb s
  | .ldl d a size imm => Sys2Proof.Machine.execLdl d a size imm s
  | .stl d a size imm => Sys2Proof.Machine.execStl d a size imm s
  | .ldsp d imm => Sys2Proof.Machine.execLdsp d imm s
  | .stsp a imm => Sys2Proof.Machine.execStsp a imm s
  | .mfc d index => Sys2Proof.Machine.execMfc d index s
  | .mtc a index => Sys2Proof.Machine.execMtc a index s
  | .mfv d v el => Sys2Proof.Machine.execMfv d v el s
  | .mtv v a el => Sys2Proof.Machine.execMtv v a el s
  | .fadd d a b => Sys2Proof.Machine.execFadd d a b s
  | .fsub d a b => Sys2Proof.Machine.execFsub d a b s
  | .fmul d a b => Sys2Proof.Machine.execFmul d a b s
  | .fma d a b c => Sys2Proof.Machine.execFma d a b c s
  | .fcvtif d a => Sys2Proof.Machine.execFcvtif d a s
  | .fcvtfi d a => Sys2Proof.Machine.execFcvtfi d a s
  | .fcmp pd pc a b cond => Sys2Proof.Machine.execFcmp pd pc a b cond s
  | .bdmov bd a => Sys2Proof.Machine.execBdmov bd a s
  | .tdld td a imm => Sys2Proof.Machine.execTdld td a imm s
  | .tdst td a imm => Sys2Proof.Machine.execTdst td a imm s
  | .tdset td field a => Sys2Proof.Machine.execTdset td field a s
  | .hset h a => Sys2Proof.Machine.execHset h a s
  | .haddr d h k => Sys2Proof.Machine.execHaddr d h k s
  | .advc h n => Sys2Proof.Machine.execAdvc h n s
  | .advp h n => Sys2Proof.Machine.execAdvp h n s
  | .chset entry a b => Sys2Proof.Machine.execChset entry a b s
  | .vadd d a b ty t => Sys2Proof.Machine.execVadd d a b ty t s
  | .vsub d a b ty t => Sys2Proof.Machine.execVsub d a b ty t s
  | .vmul d a b ty t => Sys2Proof.Machine.execVmul d a b ty t s
  | .vfma d a b ty t => Sys2Proof.Machine.execVfma d a b ty t s
  | .vfms d a b ty t => Sys2Proof.Machine.execVfms d a b ty t s
  | .vmin d a b ty t => Sys2Proof.Machine.execVmin d a b ty t s
  | .vmax d a b ty t => Sys2Proof.Machine.execVmax d a b ty t s
  | .vabs d a ty t => Sys2Proof.Machine.execVabs d a ty t s
  | .vneg d a ty t => Sys2Proof.Machine.execVneg d a ty t s
  | .vand d a b ty t => Sys2Proof.Machine.execVand d a b ty t s
  | .vor d a b ty t => Sys2Proof.Machine.execVor d a b ty t s
  | .vxor d a b ty t => Sys2Proof.Machine.execVxor d a b ty t s
  | .vshl d a b ty t => Sys2Proof.Machine.execVshl d a b ty t s
  | .vshr d a b ty t => Sys2Proof.Machine.execVshr d a b ty t s
  | .vsra d a b ty t => Sys2Proof.Machine.execVsra d a b ty t s
  | .vsel d a b ty t => Sys2Proof.Machine.execVsel d a b ty t s
  | .vcmpeq d a b ty t => Sys2Proof.Machine.execVcmpeq d a b ty t s
  | .vcmplt d a b ty t => Sys2Proof.Machine.execVcmplt d a b ty t s
  | .vcmple d a b ty t => Sys2Proof.Machine.execVcmple d a b ty t s
  | .vadds d a b ty t => Sys2Proof.Machine.execVadds d a b ty t s
  | .vmuls d a b ty t => Sys2Proof.Machine.execVmuls d a b ty t s
  | .vfmas d a b ty t => Sys2Proof.Machine.execVfmas d a b ty t s
  | .vmaxs d a b ty t => Sys2Proof.Machine.execVmaxs d a b ty t s
  | .vwmul d a b ty g => Sys2Proof.Machine.execVwmul d a b ty g s
  | .vwadd d a b ty g => Sys2Proof.Machine.execVwadd d a b ty g s
  | .vnarrow d a ty g => Sys2Proof.Machine.execVnarrow d a ty g s
  | .vcvt d a src dst t => Sys2Proof.Machine.execVcvt d a src dst t s
  | .vrsqe d a t => Sys2Proof.Machine.execVrsqe d a t s
  | .vrcpe d a t => Sys2Proof.Machine.execVrcpe d a t s
  | .vexp2e d a t => Sys2Proof.Machine.execVexp2e d a t s
  | .vlog2e d a t => Sys2Proof.Machine.execVlog2e d a t s
  | .vred d a op ty t => Sys2Proof.Machine.execVred d a op ty t s
  | .vscan d a op ty t => Sys2Proof.Machine.execVscan d a op ty t s
  | .vperm d a b ty t => Sys2Proof.Machine.execVperm d a b ty t s
  | .vshuf d a b ty t => Sys2Proof.Machine.execVshuf d a b ty t s
  | .vbcast d a b ty t => Sys2Proof.Machine.execVbcast d a b ty t s
  | .vdot d a b ty acc => Sys2Proof.Machine.execVdot d a b ty acc s
  | .vch d a b e t => Sys2Proof.Machine.execVch d a b e t s
  | .vmov d a ty t => Sys2Proof.Machine.execVmov d a ty t s
  | .vmovs d b ty t => Sys2Proof.Machine.execVmovs d b ty t s
  | .viota d ty t => Sys2Proof.Machine.execViota d ty t s
  | .vcnt d a ty t => Sys2Proof.Machine.execVcnt d a ty t s
  | .vld d a imm => Sys2Proof.Machine.execVld d a imm s
  | .vst d a imm => Sys2Proof.Machine.execVst d a imm s
  | .vldc d base count imm => Sys2Proof.Machine.execVldc d base count imm s
  | .vstc d base count imm => Sys2Proof.Machine.execVstc d base count imm s
  | .vldh d h k => Sys2Proof.Machine.execVldh d h k s
  | .vsth d h k => Sys2Proof.Machine.execVsth d h k s
  | .vwin a imm => Sys2Proof.Machine.execVwin a imm s
  | .mlease => Sys2Proof.Machine.execMlease s
  | .mrel => Sys2Proof.Machine.execMrel s
  | .omclm first n pd => Sys2Proof.Machine.execOmclm first n pd s
  | .omrel first n => Sys2Proof.Machine.execOmrel first n s
  | .mma tdA tdB z rd tb ta => Sys2Proof.Machine.execMma tdA tdB z rd tb ta s
  | .mmar tdA tdB z rd tb ta => Sys2Proof.Machine.execMmar tdA tdB z rd tb ta s
  | .mzero => Sys2Proof.Machine.execMzero s
  | .mdrain td => Sys2Proof.Machine.execMdrain td s
  | .mresume => Sys2Proof.Machine.execMresume s
  | .mstat d => Sys2Proof.Machine.execMstat d s
  | .macc td => Sys2Proof.Machine.execMacc td s
  | .chbeg pricking tdIn tdOut => Sys2Proof.Machine.execChbeg pricking tdIn tdOut s
  | .chstep n => Sys2Proof.Machine.execChstep n s
  | .chrun => Sys2Proof.Machine.execChrun s
  | .chend => Sys2Proof.Machine.execChend s
  | .chgrad tdLeft tdRight tdGrad => Sys2Proof.Machine.execChgrad tdLeft tdRight tdGrad s
  | .chabort => Sys2Proof.Machine.execChabort s
  | .copy tdD tdS hint => Sys2Proof.Machine.execCopy tdD tdS hint s
  | .copyh h tdS hint => Sys2Proof.Machine.execCopyh h tdS hint s
  | .cbatch addr value counters => Sys2Proof.Machine.execCbatch addr value counters s
  | .gather tdD tdS tdI hint => Sys2Proof.Machine.execGather tdD tdS tdI hint s
  | .scatter tdD tdS tdI hint => Sys2Proof.Machine.execScatter tdD tdS tdI hint s
  | .amo op addr value result order w => Sys2Proof.Machine.execAmo op addr value result order w s
  | .amocas addr expected new result order => Sys2Proof.Machine.execAmocas addr expected new result order s
  | .qfence mask => Sys2Proof.Machine.execQfence mask s
  | .stmap entry rec => Sys2Proof.Machine.execStmap entry rec s
  | .stflush mask => Sys2Proof.Machine.execStflush mask s
  | .stinv mask => Sys2Proof.Machine.execStinv mask s
  | .pref td hint => Sys2Proof.Machine.execPref td hint s
  | .decomp tdS tdI ratio => Sys2Proof.Machine.execDecomp tdS tdI ratio s
  | .ddict td => Sys2Proof.Machine.execDdict td s
  | .bkcmd prog engines args => Sys2Proof.Machine.execBkcmd prog engines args s
  | .bkvec td engines => Sys2Proof.Machine.execBkvec td engines s
  | .lease drow dcol n dur status => Sys2Proof.Machine.execLease drow dcol n dur status s
  | .lrel drow dcol n status => Sys2Proof.Machine.execLrel drow dcol n status s
  | .lrenew drow dcol dur status => Sys2Proof.Machine.execLrenew drow dcol dur status s
  | .lqry drow dcol d => Sys2Proof.Machine.execLqry drow dcol d s
  | .colstep group step => Sys2Proof.Machine.execColstep group step s
  | .persist tdD tdS => Sys2Proof.Machine.execPersist tdD tdS s
  | .scmrd tdD tdS => Sys2Proof.Machine.execScmrd tdD tdS s
  | .xpose d a c w t => Sys2Proof.Machine.execXpose d a c w t s
  | .xcvt d a fin fout round => Sys2Proof.Machine.execXcvt d a fin fout round s
  | .xpack d a b bty srcBf16 => Sys2Proof.Machine.execXpack d a b bty srcBf16 s
  | .xunpk d a b dstBf16 => Sys2Proof.Machine.execXunpk d a b dstBf16 s
  | .xtbl d a fn t => Sys2Proof.Machine.execXtbl d a fn t s
  | .xtld d a fn => Sys2Proof.Machine.execXtld d a fn s
  | .xtsw => Sys2Proof.Machine.execXtsw s
  | .xexp d k n1 adv => Sys2Proof.Machine.execXexp d k n1 adv s
  | .xzip d a b w => Sys2Proof.Machine.execXzip d a b w s
  | .xunzip d a w => Sys2Proof.Machine.execXunzip d a w s
  | .xexpand d a b w t => Sys2Proof.Machine.execXexpand d a b w t s
  | .xcompr d a b w t => Sys2Proof.Machine.execXcompr d a b w t s
  | .asyncTrapDelivery => Sys2Proof.Machine.execAsyncTrapDelivery s
  | .stashFillComplete ans => Sys2Proof.Machine.execStashFillComplete ans s
  | .homeAccess a => Sys2Proof.Machine.execHomeAccess a s
  | .queueCommandStart q => Sys2Proof.Machine.execQueueCommandStart q s
  | .queueCommandComplete q k => Sys2Proof.Machine.execQueueCommandComplete q k s
  | .batchComplete q => Sys2Proof.Machine.execBatchComplete q s
  | .decoderResume => Sys2Proof.Machine.execDecoderResume s
  | .arrayGrant => Sys2Proof.Machine.execArrayGrant s
  | .arrayPassComplete => Sys2Proof.Machine.execArrayPassComplete s
  | .mmarFetchReturn ans => Sys2Proof.Machine.execMmarFetchReturn ans s
  | .mmarFetchTimeout => Sys2Proof.Machine.execMmarFetchTimeout s
  | .bankCommandAccept => Sys2Proof.Machine.execBankCommandAccept s
  | .bankProgramStart => Sys2Proof.Machine.execBankProgramStart s
  | .bankProgramComplete => Sys2Proof.Machine.execBankProgramComplete s
  | .bnop => Sys2Proof.Machine.execBnop s
  | .bsetrLo g imm => Sys2Proof.Machine.execBsetrLo g imm s
  | .bsetrHi g imm => Sys2Proof.Machine.execBsetrHi g imm s
  | .bsetrAdd g imm => Sys2Proof.Machine.execBsetrAdd g imm s
  | .bseg sg gb gl => Sys2Proof.Machine.execBseg sg gb gl s
  | .bmac acc sg gv ty n1 => Sys2Proof.Machine.execBmac acc sg gv ty n1 s
  | .bmacn acc sg gv ty n1 => Sys2Proof.Machine.execBmacn acc sg gv ty n1 s
  | .bred d src => Sys2Proof.Machine.execBred d src s
  | .bredTree d => Sys2Proof.Machine.execBredTree d s
  | .bscl acc g => Sys2Proof.Machine.execBscl acc g s
  | .bcvt acc fmt => Sys2Proof.Machine.execBcvt acc fmt s
  | .bout acc go n1 => Sys2Proof.Machine.execBout acc go n1 s
  | .bclr mask => Sys2Proof.Machine.execBclr mask s
  | .bloop g => Sys2Proof.Machine.execBloop g s
  | .bend => Sys2Proof.Machine.execBend s
  | .bsig g => Sys2Proof.Machine.execBsig g s
  | .bhalt => Sys2Proof.Machine.execBhalt s
  | .bldv gv sg n1 => Sys2Proof.Machine.execBldv gv sg n1 s
  | .fabricPacket row col flits => Sys2Proof.Machine.execFabricPacket row col flits s
  | .leaseAccept => Sys2Proof.Machine.execLeaseAccept s
  | .leaseNoticeEnd => Sys2Proof.Machine.execLeaseNoticeEnd s
  | .strandRetuneDone => Sys2Proof.Machine.execStrandRetuneDone s
  | .leaseStarvationGrant => Sys2Proof.Machine.execLeaseStarvationGrant s
  | .leaseExpiry => Sys2Proof.Machine.execLeaseExpiry s
  | .dispatchDecision => Sys2Proof.Machine.execDispatchDecision s
  | .taskRetire => Sys2Proof.Machine.execTaskRetire s
  | .waitYield => Sys2Proof.Machine.execWaitYield s
  | .accountingCharge => Sys2Proof.Machine.execAccountingCharge s
  | .regStart v => Sys2Proof.Machine.execRegStart v s
  | .regKill v => Sys2Proof.Machine.execRegKill v s
  | .regUpdate v => Sys2Proof.Machine.execRegUpdate v s
  | .elogLostClear v => Sys2Proof.Machine.execElogLostClear v s
  | .systemRegisterWrite index v => Sys2Proof.Machine.execSystemRegisterWrite index v s
  | .migCtl v => Sys2Proof.Machine.execMigCtl v s
  | .migrationHoldDone => Sys2Proof.Machine.execMigrationHoldDone s
  | .migrationCopyDone => Sys2Proof.Machine.execMigrationCopyDone s
  | .migrationForward => Sys2Proof.Machine.execMigrationForward s
  | .migrationEnd => Sys2Proof.Machine.execMigrationEnd s
  | .pwCap v => Sys2Proof.Machine.execPwCap v s
  | .pwGive v => Sys2Proof.Machine.execPwGive v s
  | .pwShed v => Sys2Proof.Machine.execPwShed v s
  | .pwBo v => Sys2Proof.Machine.execPwBo v s
  | .pwLgate v => Sys2Proof.Machine.execPwLgate v s
  | .pwL2gate b v => Sys2Proof.Machine.execPwL2gate b v s
  | .localBankWakeDone bank => Sys2Proof.Machine.execLocalBankWakeDone bank s
  | .l2WayWakeDone b way => Sys2Proof.Machine.execL2WayWakeDone b way s
  | .grantPeriodEnd draw => Sys2Proof.Machine.execGrantPeriodEnd draw s
  | .tokenArrival n period => Sys2Proof.Machine.execTokenArrival n period s
  | .brownoutShed volts => Sys2Proof.Machine.execBrownoutShed volts s
  | .brownoutAllShed volts => Sys2Proof.Machine.execBrownoutAllShed volts s
  | .brownoutRestore volts => Sys2Proof.Machine.execBrownoutRestore volts s
  | .inputLoss volts => Sys2Proof.Machine.execInputLoss volts s
  | .hibernateQuiesce => Sys2Proof.Machine.execHibernateQuiesce s
  | .hibernateFlush => Sys2Proof.Machine.execHibernateFlush s
  | .hibernateDrain => Sys2Proof.Machine.execHibernateDrain s
  | .hibernateSeal => Sys2Proof.Machine.execHibernateSeal s
  | .powerOff inputPresent => Sys2Proof.Machine.execPowerOff inputPresent s
  | .powerOn volts => Sys2Proof.Machine.execPowerOn volts s
  | .flashImageWrite kind slot image => Sys2Proof.Machine.execFlashImageWrite kind slot image s
  | .hbCtlResume => Sys2Proof.Machine.execHbCtlResume s
  | .rejoinTimeout => Sys2Proof.Machine.execRejoinTimeout s
  | .hbCtlRelease => Sys2Proof.Machine.execHbCtlRelease s
  | .attCtl v => Sys2Proof.Machine.execAttCtl v s
  | .attestationDone => Sys2Proof.Machine.execAttestationDone s
  | .partCtl p v => Sys2Proof.Machine.execPartCtl p v s
  | .ostrCtl src v => Sys2Proof.Machine.execOstrCtl src v s
  | .strandPark => Sys2Proof.Machine.execStrandPark s
  | .ostrWth src v => Sys2Proof.Machine.execOstrWth src v s
  | .autoWake => Sys2Proof.Machine.execAutoWake s
  | .wakeComplete => Sys2Proof.Machine.execWakeComplete s
  | .orngHtr r v => Sys2Proof.Machine.execOrngHtr r v s
  | .orngMap r v => Sys2Proof.Machine.execOrngMap r v s
  | .lockLoopPeriod chiplet drift => Sys2Proof.Machine.execLockLoopPeriod chiplet drift s
  | .ringResettleDone => Sys2Proof.Machine.execRingResettleDone s
  | .cdrLoss => Sys2Proof.Machine.execCdrLoss s
  | .linkTraining fibre res => Sys2Proof.Machine.execLinkTraining fibre res s
  | .nonInstruction cls w => Sys2Proof.Machine.execNonInstruction cls w s
  | .crisumUnassigned w => Sys2Proof.Machine.execCrisumUnassigned w s
  | .rejoinTraffic group member step => Sys2Proof.Machine.execRejoinTraffic group member step s
  | .eventAcknowledge => Sys2Proof.Machine.execEventAcknowledge s
  | .killBySupervisor => Sys2Proof.Machine.execKillBySupervisor s
  | .supervisorPreempt => Sys2Proof.Machine.execSupervisorPreempt s
  | .inBandControlFlit peer strand amask => Sys2Proof.Machine.execInBandControlFlit peer strand amask s
  | .coordinatorTokens n period => Sys2Proof.Machine.execCoordinatorTokens n period s

end Sys2Proof.Machine
end

