-- ==== Sys2Proof/Machine/Issue.lean ====
section
/-! DEFINITION. The issue of a bundle: which trap it takes (07 R122-R125), what holds it (05 R89, R100; 10 R203), its slots in order,
and what follows it (07 R140; 08 R148, R152, R165). The meaning of an instruction is a parameter here: Step.lean gives it. -/

namespace Sys2Proof.Machine

/-- What gives an instruction its meaning. -/
abbrev Meaning := Instr → State → Host.Outcome State Fault Refusal

/-- A trap that a bundle meets: its slot, the slot's word, and what it is. -/
abbrev Met := Slot × BitVec 32 × Raise

/-- The state as one slot of a bundle executes. -/
def State.atSlot (s : State) (b : BitVec 256) (sw : SlotWord) : State :=
  { s with curSlot := sw.slot, curWord := bundleWord b sw.slot.num }

/-- A slot tried: the state after it, and what it meets instead of its effect. -/
def State.trySlot (s : State) (x : Meaning) (b : BitVec 256) (sw : SlotWord) : State × Option Met :=
  match x sw.instr { s.atSlot b sw with trial := true, met := none } with
  | .next t => (t, t.met.map fun r => (sw.slot, bundleWord b sw.slot.num, r))
  | _ => (s, none)

/-- Slots tried one after another, up to the first that meets something. -/
def State.trySlots (s : State) (x : Meaning) (b : BitVec 256) : List SlotWord → State × Option Met
  | [] => (s, none)
  | sw :: l =>
    match s.trySlot x b sw with
    | (t, some m) => (t, some m)
    | (t, none) => State.trySlots t x b l

/-- The trap of a bundle's slots that comes before every other: ILLEGAL, then PRIV, then VWIN, each of the lowest slot (07 R125). -/
def State.earlyTrap (s : State) (x : Meaning) (b : BitVec 256) (l : List SlotWord) : Option Met :=
  let all := l.filterMap fun sw => (s.trySlot x b sw).2
  [0, 1, 2].findSome? fun k => all.find? fun m => m.2.2.rank == k

/-- The precise CONVTHR check off: every other trap of a bundle comes before it (07 R125). -/
def State.withoutThreshold (s : State) : State := s.modMe fun c => { c with ctl := { c.ctl with cvthr := 0xFFFFFFFF } }

/-- The core as the bundle issues: counted for its commands, for a system handler that holds a PFW, and for the PFW handler
(06 R106; 19 R347, R352). -/
def Core.issued (c : Core) (again : Option Reissue) : Core :=
  { c with
    issue := c.issue + 1, skipRun := 0, kept := none, again := again.isSome
    reissue := match again with | some r => c.reissue.erase r | none => c.reissue
    sys := { c.sys with
      held := if c.sys.sh && c.sys.warned then c.sys.held + 1 else c.sys.held
      pfbud := if c.sys.inPfw then c.sys.pfbud - 1 else c.sys.pfbud } }

/-- A PROBE waits for an empty pipeline and empty queues (05 R100, 08 R158; log 17). -/
def State.heldBack (s : State) (l : List SlotWord) : Bool :=
  l.any fun sw => match sw.instr with
    | .probe _ _ _ => !s.me.quiet
    | _ => false

/-- Some queue holds more than it has room for (10 R203). -/
def Core.overfull (c : Core) : Bool :=
  ([.ca, .cb, .m, .bank, .dec] : List QueueId).any fun q => decide (capacity q < (c.q.get q).length)

/-- The granule that the record of an HSET lacks (05 R89, 08 R179). -/
def Core.hsetMissing (c : Core) (l : List SlotWord) : Option Nat :=
  l.findSome? fun sw => match sw.instr with
    | .hset _ a => if (c.localCheck (c.rs a).toNat 16 false).isNone then c.missing (c.rs a).toNat 16 else none
    | _ => none

/-- The granule that the loads and stores of the bundle lack, given the core after the bundle (05 R89). -/
def Core.bundleMissing (c after : Core) : Option Nat :=
  let loads := (after.loc.loads.filter fun l => l.ord == after.issue).findSome? fun l => c.missing l.addr l.len
  let stores := (after.loc.stores.filter fun t => t.issue == after.issue).findSome? fun t => c.missing t.addr t.bytes.length
  loads.orElse fun _ => stores

/-- The bundle is held for a sc: the nullifier has kept it, and does not judge it again (05 R89; 10 R203; log 77). -/
def State.hold (s : State) : State := (s.modMe fun c => { c with kept := some c.pc }).tick s.cur

/-- The core stalls for a granule (05 R89). -/
def State.fill (s : State) (g : Nat) : State := (s.modMe fun c => { c with status := .filling g }).hold

/-- The bundle takes the trap it meets. -/
def State.takeMet (s : State) (m : Met) : State := { s with curSlot := m.1, curWord := m.2.1 }.takeRaise m.2.2

/-- Results in flight become readable, with fuel for the longest latency (08 R165). -/
def State.bubble (s : State) (c : CoreId) : Nat → State
  | 0 => s
  | fuel + 1 => if (s.core c).pend.isEmpty && (s.core c).loc.loads.isEmpty then s else State.bubble (s.tick c) c fuel

/-- New clock divisors take effect after the results in flight; the bubble empties the bypass network (08 R165, 22 R382). -/
def State.changeClock (s : State) (codes : Vector (BitVec 4) 4) : State :=
  ((s.bubble s.cur 4096).tick s.cur).modMe fun c => { c with codes := codes, bypass := [] }

/-- The core after a bundle with no redirection: the loop-back or the next bundle, or, after a wait taken up again, the bundle that
followed it (08 R152; log 13). -/
def Core.next (c : Core) (again : Option Reissue) : Core :=
  match again with
  | some r => { c with pc := r.next }
  | none => c.advance

/-- The batches that a WAITB or WAITQ satisfied at its issue counts, now that the bundle has read its registers; what the bundle writes
itself comes later (07 R140; 08 R155). -/
def State.countSatisfied (s : State) : State :=
  match s.me.counting with
  | some w => (s.modMe fun c => { c with counting := none }).satisfy s.cur w
  | none => s

/-- The bundle has issued: the pc and the sc of the next one (08 R148, R150, R155, R165). -/
def State.endBundle (s : State) (again : Option Reissue) : State :=
  let s := (s.modMe fun c => { c with again := false }).countSatisfied
  let me := s.me
  match me.status with
  | .idle | .stopped => s
  | .waiting _ | .exiting =>
    let after := me.next again
    (s.setCore s.cur { after with pc := me.pc, waitNext := after.pc }).tick s.cur
  | _ =>
    match me.jump with
    | some d => (s.modMe fun c => { c with jump := none }).ticks s.cur d
    | none =>
      let s := s.setCore s.cur { me.next again with delay := 1, clkNext := none }
      match me.clkNext with
      | some codes => s.changeClock codes
      | none => s.ticks s.cur me.delay

/-- The slots of a bundle execute in order; a core that loses its task to the first of them has no more to do. -/
def runSlots (x : Meaning) (b : BitVec 256) : List SlotWord → State → Host.Outcome State Fault Refusal
  | [], s => .next s
  | sw :: l, s =>
    if s.me.status == .idle then .next s
    else match x sw.instr (s.atSlot b sw) with
      | .next t => runSlots x b l t
      | .fault f => .fault f
      | .refused r => .refused r

/-- A bundle issues, traps, or is held for another sc (07 R122, R125). -/
def State.issueBundle (s : State) (x : Meaning) (b : BitVec 256) : Host.Outcome State Fault Refusal :=
  let again := s.me.takesUp
  let pre := s.modMe fun c => c.issued again
  let slots := (bundleSlots b).filter fun sw => again.isNone || sw.slot == .k
  let live := slots.filter fun sw => s.me.rp sw.guard
  match pre.earlyTrap x b (slots.filter fun sw => s.me.rp sw.guard || s.trapsAnyway sw.instr) with
  | some m => .next (s.takeMet m)
  | none =>
    if s.heldBack live then .next s.hold
    else
      let checked := pre.trySlots x b live
      let met := (pre.withoutThreshold.trySlots x b live).2.orElse fun _ => checked.2
      match met, s.me.hsetMissing live with
      | some (.k, w, r), _ => .next (s.takeMet (.k, w, r))
      | _, some g => .next (s.fill g)
      | some m, none => .next (s.takeMet m)
      | none, none =>
        if checked.1.me.overfull then .next s.hold
        else match s.me.bundleMissing checked.1.me with
          | some g => .next (s.fill g)
          | none =>
            match runSlots x b live pre with
            | .next t => .next (t.endBundle again)
            | .fault f => .fault f
            | .refused r => .refused r

/-- A running core at a bundle boundary: what is taken there, the end of the PFW handler's budget, or its next bundle, which is fetched,
skipped or issued. -/
def State.runCore (s : State) (x : Meaning) : Host.Outcome State Fault Refusal :=
  match s.boundary with
  | some t => .next t
  | none =>
    if s.me.exhausted then .next s.exhaust
    else match s.fetchBundle with
      | .error (cls, a) => .next (s.violation s.cur cls a s.me.pc)
      | .ok (s, b) =>
        if vectorBundle b && !s.me.vecAligned then .next (s.tick s.cur)
        else if s.skippable b then .next s.skipBundle
        else s.issueBundle x b

/-- The user-class trap that a core takes at the boundary after it has drained its EXIT, if one is pending (11 R239, R240; log 29). -/
def Sys.exitAsync (y : Sys) : Option AsyncTrap := { y with asyncs := y.asyncs.filter fun a => a.cause != 0x14 }.nextAsync

/-- An exiting core drains; then its stash goes back, its open batches count, and it has exited (02 R32, R35; 04 R77; 08 R160). A
user-class trap that is pending then is taken at this boundary, and the EXIT issues again on return (04 R77, 11 R239, R240; log 29). -/
def State.exitStep (s : State) : State :=
  let c := s.me
  if !c.quiet then s.tick s.cur
  else
    let s := (((s.writeBackAll s.cur).countOpen s.cur false).countOpen s.cur true)
    if s.me.status != .exiting then s
    else match s.me.sys.exitAsync with
      | some a => s.takeAsync a
      | none => s.modMe fun c => { c with status := .exited, loc := { c.loc with granules := [] } }

/-- A core that waits: a trap or a pre-emption that abandons the wait, the end of the PFW handler's budget, or one more look (08 R155,
R157; 19 R352). -/
def State.waitCore (s : State) (w : Wait) : State :=
  match s.boundary with
  | some t => t
  | none => if s.me.exhausted then s.exhaust else s.waitStep w

/-- A halted core takes a pre-emption, nothing else (19 R352). -/
def State.haltCore (s : State) : State :=
  match s.preemptDue with
  | some (t, reason) => if s.mayPreempt t reason then s.preemptNow t reason else s.tick s.cur
  | none => s.tick s.cur

/-- The next sc of a core. A shed core does nothing (22 R388). -/
def State.issue (s : State) (x : Meaning) (c : CoreId) : Host.Outcome State Fault Refusal :=
  let s := { s with cur := c, curSlot := .k, curWord := 0, now := max s.now (s.core c).tick, trial := false, met := none }
  if s.me.shed then .next s
  else
  let s := s.runSpawns
  match s.me.status with
    | .running => s.runCore x
    | .waiting w => .next (s.waitCore w)
    | .filling g => .next (if s.me.present g then s.modMe fun c => { c with status := .running } else s.tick c)
    | .exiting => .next s.exitStep
    | .halted => .next s.haltCore
    | .idle | .exited | .stopped => .next (s.tick c)

/-- The next command of a bank engine (14 R287). -/
def State.runEngine (s : State) (x : Meaning) (e : EngineId) : Host.Outcome State Fault Refusal :=
  let s := { s with curEng := e, trial := false, met := none }
  if (s.engine e).runs then x (decodeCrisum (s.engine e).word) s else .next s

/-- What can happen to a module whose dies, HBM and optics have no power: power comes, and in recovery an image is written (25 R413, R415). -/
def unpoweredEvent (i : Instr) : Bool :=
  match i with
  | .powerOn _ | .powerOff _ | .flashImageWrite _ _ _ => true
  | _ => false

/-- One action of the agenda (log 3). -/
def State.act (s : State) (x : Meaning) (a : Action) : Host.Outcome State Fault Refusal :=
  match a with
  | .issue c => if s.powered then s.issue x c else .next s
  | .engine e => if s.powered then s.runEngine x e else .next s
  | .elapse n => .next { s with now := s.now + n }
  | .drift r d => .next (if s.powered then s.modRing r fun x => { x with detune := x.detune + d } else s)
  | .rollback k v => .next (s.raiseRollback k v)
  | .superAccess off w => .next (s.superAccess off w)
  | .event c subj i =>
    if s.powered || unpoweredEvent i then
      x i { s with cur := c, subj := subj, curSlot := .k, curWord := 0, trial := false, met := none }
    else .next s

/-- The next step: the first action of the agenda, or, where none stands there, an action of its own choice (log 3). -/
def State.stepWith (s : State) (x : Meaning) : Host.Outcome State Fault Refusal :=
  match s.agenda with
  | a :: rest => { s with agenda := rest }.act x a
  | [] => { s with choices := s.choices + 1 }.act x (Config.freeAction s.choices)

/-! ### Placing a word for the next step -/

/-- A Crisum word as the next command of bank engine 0. -/
def State.placeCommand (s : State) (w : BitVec 32) : State :=
  let e : EngineId := 0
  let s := s.modEngine e fun x => { x with cmds := x.cmds.set 0 w, ptr := 0, running := true }
  { s with agenda := .engine e :: s.agenda }

/-- The virtual and module-local address at which a placed bundle stands. -/
def placeAddr : Nat := 0x10000

/-- Where the placed bundle's page table stands: PT_BASE, past the frames it names. -/
def placeTable : Nat := 0x40000000

/-- A bundle as the next one of core 0: fetched at address 0x10000, through window 0 and the module's page table, into
frame 0 of 2 MiB. -/
def State.placeBundle (s : State) (b : BitVec 256) : State :=
  let c : CoreId := 0
  let part := (s.partOfDie 0).getD 0
  let s := if (s.partOfDie 0).isSome then s
    else { s with parts := s.parts.set 0 { (s.parts[0]) with ctl := 0x00000101 } }
  let w : Window := { va := 0, len := BitVec.ofNat 48 0x200000, ia := BitVec.ofNat 56 (s.modid.toNat * 2 ^ 48), ctl := 0xF }
  let s := s.modCore c fun x =>
    { x with
      status := .running, pc := BitVec.ofNat 64 placeAddr, shed := false, icache := [], jump := none, delay := 1, reissue := []
      sys := { x.sys with wins := x.sys.wins.set 0 w } }
  { s with
    trans := { s.trans with ptBase := BitVec.ofNat 39 placeTable, ptCtl := true, tlb := [], migState := .idle }
    hbm := (s.hbm.put placeAddr (bytesOfNat 32 b.toNat)).putNat placeTable 8 (1 + 1 * 2 ^ 2 + part * 2 ^ 8)
    agenda := .issue c :: s.agenda }

/-- A word where the next step fetches its instruction: a Crisum command for 32 bits or fewer, else a bundle. -/
def State.placeWord (s : State) (nbits w : Nat) : State :=
  if nbits ≤ 32 then s.placeCommand (BitVec.ofNat 32 w) else s.placeBundle (BitVec.ofNat 256 w)

end Sys2Proof.Machine
end

