-- ==== Sys2Proof/Machine/Step.lean ====
section
/-! DEFINITION. One step of the module (log 3), and a word placed where the next step fetches. -/

namespace Sys2Proof.Machine

/-- One step: the next action of the agenda, with the meanings of `exec`. -/
def step (s : State) : Host.Outcome State Fault Refusal := s.stepWith exec

/-- A word of the opcode table where the next step fetches and runs it: a Crisum command of bank engine 0, or a bundle of core 0. -/
def State.withFetchWord (s : State) (nbits w : Nat) : State := s.placeWord nbits w

end Sys2Proof.Machine
end

