-- ==== Sys2Proof/Safety.lean ====
section
/-! DEFINITION. What a safe run is, the invariant that claims start from, and the forms in which claims say what an instruction
leaves: a state in which the named things, and no others, have changed. -/

namespace Sys2Proof.Machine

/-! ### Runs -/

/-- The state after so many steps, or the fault or refusal that ended them. -/
def State.run (s : State) : Nat → Host.Outcome State Fault Refusal
  | 0 => .next s
  | n + 1 =>
    match step s with
    | .next t => State.run t n
    | .fault f => .fault f
    | .refused r => .refused r

/-- A run of so many steps is safe: it ends in a state. -/
def State.SafeFor (s : State) (n : Nat) : Prop := ∃ t, s.run n = .next t

/-- HBM and SCM are in their canonical form: every address once, in rising order, and no unwritten byte listed (log 2). -/
def State.memOk (s : State) : Bool := s.hbm.wf && s.scm.wf

/-! ### What an instruction leaves -/

/-- A result in flight, as the issuing slot of the current core puts it there (08 R147). -/
def State.flight (s : State) (lat : Nat) (r : Result) : Pending :=
  { readyAt := s.me.sc + lat, slot := s.curSlot.num, ord := s.me.issue, res := r }

/-- The state in which the current core, and nothing else, has changed. -/
def State.withMe (s : State) (c : Core) : State := { s with cores := s.cores.set s.cur.val c }

/-- The state in which the current core has these results in flight besides, readable so many sc after issue, and nothing else has
changed. -/
def State.delivering (s : State) (lat : Nat) (l : List Result) : State :=
  s.withMe { s.me with pend := s.me.pend ++ l.map (s.flight lat) }

/-- The state in which the next bundle of the current core is the one at a target, so many sc later, these results are in flight besides,
readable in the next sc, and nothing else has changed (08 R148). -/
def State.redirected (s : State) (target : Word) (delay : Nat) (l : List Result) : State :=
  s.withMe { s.me with pc := target, jump := some delay, pend := s.me.pend ++ l.map (s.flight 1) }

/-- The state in which the current core has a local load in flight besides, and nothing else has changed (06 R105). -/
def State.loading (s : State) (ready addr len : Nat) (d : LoadDest) : State :=
  s.withMe { s.me with loc := { s.me.loc with loads := s.me.loc.loads ++
    [{ due := s.me.sc + 2, readyAt := s.me.sc + ready, slot := s.curSlot.num, ord := s.me.issue, addr := addr, len := len, dest := d }] } }

/-- The state in which the current core has a local store in flight besides, and nothing else has changed (06 R105). -/
def State.storing (s : State) (addr : Nat) (bytes : List Byte) (half : Bool) : State :=
  s.withMe { s.me with loc := { s.me.loc with stores := s.me.loc.stores ++
    [{ due := s.me.sc + 2, slot := s.curSlot.num, issue := s.me.issue, addr := addr, bytes := bytes, half := half }] } }

/-- The state in which the current core waits on a condition that does not hold yet, and nothing else has changed (08 R155). -/
def State.waitingOn (s : State) (w : Wait) : State := s.withMe { s.me with waitSince := s.me.tick, status := .waiting w }

/-- The state in which the current core has begun a wait whose condition holds at once, and nothing else has changed (08 R155). -/
def State.waited (s : State) : State := s.withMe { s.me with waitSince := s.me.tick }

/-- The command that an instruction of the current core makes: its number, its bundle, the windows and modes of that bundle, and the
retention hint that the instruction names, if it names one (05 R99, 06 R106, 04 R75). -/
def State.commandOf (s : State) (kind : CmdKind) (batch : Option (Bool × Nat × Nat)) (hint : Option Nat := none) : Cmd :=
  { id := s.me.q.nextId, issue := s.me.issue, kind := kind, batch := batch, num := s.me.mx.numM, wins := s.me.sys.wins
    fmode := s.me.ctl.fmode, lfsr := s.me.ctl.lfsr, hint := hint }

/-- The state in which a command stands at the end of the current core's m queue, and nothing else has changed (12 R252). -/
def State.queuedM (s : State) (kind : CmdKind) : State :=
  s.withMe { s.me with
    q := { s.me.q with m := s.me.q.m ++ [s.commandOf kind none], nextId := s.me.q.nextId + 1 }
    mx := { s.me.mx with numM := s.me.mx.numM + 1 } }

/-- The state in which a command stands at the end of the current core's bank queue, and nothing else has changed (10 R222). -/
def State.queuedBank (s : State) (kind : CmdKind) : State :=
  s.withMe { s.me with q := { s.me.q with bank := s.me.q.bank ++ [s.commandOf kind none], nextId := s.me.q.nextId + 1 } }

/-- The queues with the open batch of the issuing C slot begun if it was not, and one command more counted in it (10 R204). -/
def State.joined (s : State) : Queues :=
  let cb := s.curSlot == .cb
  let q := s.me.q.withOpen cb
  q.modBatch cb (q.openNum cb) fun b => { b with count := b.count + 1 }

/-- The place in its batch of a command that the issuing C slot queues now (10 R204). -/
def State.placeInBatch (s : State) : Bool × Nat × Nat :=
  let cb := s.curSlot == .cb
  let q := s.me.q.withOpen cb
  (cb, q.openNum cb, ((q.batch cb (q.openNum cb)).map (·.count)).getD 0)

/-- The state in which a command stands at the end of a queue of the current core as a member of the issuing slot's open batch, and
nothing else has changed (10 R203, R204). -/
def State.queued (s : State) (i : QueueId) (kind : CmdKind) (hint : Option Nat := none) : State :=
  s.withMe { s.me with
    q := { s.joined.put i (s.joined.get i ++ [s.commandOf kind (some s.placeInBatch) hint]) with nextId := s.me.q.nextId + 1 } }

/-- The copy queue of the issuing slot (10 R203). -/
def State.copyQueue (s : State) : QueueId := if s.curSlot == .cb then .cb else .ca

/-- Every one of these vector register names can be used (03 R47). -/
def Core.usable (c : Core) (l : List Nat) : Prop := ∀ n ∈ l, n < 32 ∨ (0 < c.ctl.rsize.toNat ∧ c.ctl.rbase.toNat + c.ctl.rsize.toNat ≤ 1536)

end Sys2Proof.Machine
end

