-- ==== Sys2Proof/Certificates/Slice0/Obligations.lean ====
section
/-! DEFINITION. The statements for the provers. Each docstring says what it formalises; OBLIGATIONS.json cites the rules. -/

open Sys2Proof Sys2Proof.Machine

/-! ### The S slot -/

/-- ADD to XOR, the shifts, MIN to MAXN and SEL deliver their value of R166 to s_d with the latency of R147; nothing else changes. -/
def Sys2Proof.Machine.RegisterFormsDeliver : Prop :=
  ∀ (s : State) (d a b : BitVec 5) (p : BitVec 4),
    exec (.add d a b) s = .next (s.delivering 1 [.s d (s.me.rs a + s.me.rs b)]) ∧
    exec (.sub d a b) s = .next (s.delivering 1 [.s d (s.me.rs a - s.me.rs b)]) ∧
    exec (.mul d a b) s = .next (s.delivering 3 [.s d (s.me.rs a * s.me.rs b)]) ∧
    exec (.mulh d a b) s = .next (s.delivering 3 [.s d (BitVec.ofInt 64 ((s.me.rs a).toInt * (s.me.rs b).toInt / 2 ^ 64))]) ∧
    exec (.mulhn d a b) s = .next (s.delivering 3 [.s d (BitVec.ofNat 64 ((s.me.rs a).toNat * (s.me.rs b).toNat / 2 ^ 64))]) ∧
    exec (.and d a b) s = .next (s.delivering 1 [.s d (s.me.rs a &&& s.me.rs b)]) ∧
    exec (.or d a b) s = .next (s.delivering 1 [.s d (s.me.rs a ||| s.me.rs b)]) ∧
    exec (.xor d a b) s = .next (s.delivering 1 [.s d (s.me.rs a ^^^ s.me.rs b)]) ∧
    exec (.shl d a b) s = .next (s.delivering 1 [.s d (s.me.rs a <<< ((s.me.rs b).toNat % 64))]) ∧
    exec (.shr d a b) s = .next (s.delivering 1 [.s d (s.me.rs a >>> ((s.me.rs b).toNat % 64))]) ∧
    exec (.sra d a b) s = .next (s.delivering 1 [.s d ((s.me.rs a).sshiftRight ((s.me.rs b).toNat % 64))]) ∧
    exec (.min d a b) s = .next (s.delivering 1 [.s d (if (s.me.rs a).toInt < (s.me.rs b).toInt then s.me.rs a else s.me.rs b)]) ∧
    exec (.max d a b) s = .next (s.delivering 1 [.s d (if (s.me.rs a).toInt < (s.me.rs b).toInt then s.me.rs b else s.me.rs a)]) ∧
    exec (.minn d a b) s = .next (s.delivering 1 [.s d (if (s.me.rs a).toNat < (s.me.rs b).toNat then s.me.rs a else s.me.rs b)]) ∧
    exec (.maxn d a b) s = .next (s.delivering 1 [.s d (if (s.me.rs a).toNat < (s.me.rs b).toNat then s.me.rs b else s.me.rs a)]) ∧
    exec (.sel d a b p) s = .next (s.delivering 1 [.s d (if s.me.rp p then s.me.rs a else s.me.rs b)])

/-- DIV, DIVN and REM never trap: the special cases of R167, and otherwise the quotient and the remainder that truncate toward zero. -/
def Sys2Proof.Machine.DivisionDelivers : Prop :=
  ∀ (s : State) (d a b : BitVec 5), ∃ q qn r : Word,
    exec (.div d a b) s = .next (s.delivering 24 [.s d q]) ∧
    exec (.divn d a b) s = .next (s.delivering 24 [.s d qn]) ∧
    exec (.rem d a b) s = .next (s.delivering 24 [.s d r]) ∧
    (s.me.rs b = 0 → q = BitVec.allOnes 64 ∧ qn = BitVec.allOnes 64 ∧ r = s.me.rs a) ∧
    (s.me.rs a = BitVec.intMin 64 → s.me.rs b = BitVec.allOnes 64 → q = BitVec.intMin 64 ∧ r = 0) ∧
    (s.me.rs b ≠ 0 → ¬(s.me.rs a = BitVec.intMin 64 ∧ s.me.rs b = BitVec.allOnes 64) →
      q.toInt = (s.me.rs a).toInt.tdiv (s.me.rs b).toInt ∧ r.toInt = (s.me.rs a).toInt.tmod (s.me.rs b).toInt) ∧
    (s.me.rs b ≠ 0 → qn.toNat = (s.me.rs a).toNat / (s.me.rs b).toNat)

/-- CLZ delivers the number of zero bits above the highest set one, 64 for zero, and POPC the number of set bits. -/
def Sys2Proof.Machine.BitCountsDeliver : Prop :=
  ∀ (s : State) (d a : BitVec 5), ∃ z k : Nat,
    exec (.clz d a) s = .next (s.delivering 1 [.s d (BitVec.ofNat 64 z)]) ∧
    exec (.popc d a) s = .next (s.delivering 1 [.s d (BitVec.ofNat 64 k)]) ∧
    (s.me.rs a = 0 → z = 64) ∧
    (s.me.rs a ≠ 0 → z < 64 ∧ 2 ^ (63 - z) ≤ (s.me.rs a).toNat ∧ (s.me.rs a).toNat < 2 ^ (64 - z)) ∧
    k = (List.range 64).countP fun i => (s.me.rs a).getLsbD i

/-- Division and the bit counts deliver their values. -/
def Obligations.DivisionAndBitCountsDeliver : Prop := DivisionDelivers ∧ BitCountsDeliver

/-- The immediate forms deliver f(s_a, imm) with the extensions of R126 one sc later; nothing else changes. -/
def Sys2Proof.Machine.ImmediateFormsDeliver : Prop :=
  ∀ (s : State) (d a : BitVec 5) (imm : BitVec 12) (k : BitVec 6) (w : BitVec 17),
    exec (.addi d a imm) s = .next (s.delivering 1 [.s d (s.me.rs a + imm.signExtend 64)]) ∧
    exec (.andi d a imm) s = .next (s.delivering 1 [.s d (s.me.rs a &&& imm.setWidth 64)]) ∧
    exec (.ori d a imm) s = .next (s.delivering 1 [.s d (s.me.rs a ||| imm.setWidth 64)]) ∧
    exec (.xori d a imm) s = .next (s.delivering 1 [.s d (s.me.rs a ^^^ imm.setWidth 64)]) ∧
    exec (.shli d a k) s = .next (s.delivering 1 [.s d (s.me.rs a <<< k.toNat)]) ∧
    exec (.shri d a k) s = .next (s.delivering 1 [.s d (s.me.rs a >>> k.toNat)]) ∧
    exec (.srai d a k) s = .next (s.delivering 1 [.s d ((s.me.rs a).sshiftRight k.toNat)]) ∧
    exec (.movi d w) s = .next (s.delivering 1 [.s d (w.signExtend 64)]) ∧
    exec (.movh d w) s = .next (s.delivering 1 [.s d ((s.me.rs d <<< 17) ||| w.setWidth 64)])

/-- The integer arithmetic of the S slot in its register and its immediate forms. -/
def Obligations.IntegerArithmeticDelivers : Prop := RegisterFormsDeliver ∧ ImmediateFormsDeliver

/-- The ten conditions of CMP, as R130 names them. -/
def Sys2Proof.Machine.cmpSpec (cond : Cond) (a b : Word) : Prop :=
  match cond with
  | .eq => a = b
  | .ne => a ≠ b
  | .lt => a.toInt < b.toInt
  | .ge => b.toInt ≤ a.toInt
  | .ltn => a.toNat < b.toNat
  | .gen => b.toNat ≤ a.toNat
  | .le => a.toInt ≤ b.toInt
  | .gt => b.toInt < a.toInt
  | .len => a.toNat ≤ b.toNat
  | .gtn => b.toNat < a.toNat

/-- The compares deliver the condition to pd and then its complement to pc, and the predicate operations their value, one sc later;
nothing else changes. -/
def Obligations.ComparesAndPredicatesDeliver : Prop :=
  ∀ (s : State) (pd pc pa pb : BitVec 4) (a b : BitVec 5) (cond : Cond) (imm : BitVec 9), ∃ c e l ln : Bool,
    exec (.cmp pd pc a b cond) s = .next (s.delivering 1 [.p pd c, .p pc !c]) ∧
    exec (.cmpeqi pd pc a imm) s = .next (s.delivering 1 [.p pd e, .p pc !e]) ∧
    exec (.cmplti pd pc a imm) s = .next (s.delivering 1 [.p pd l, .p pc !l]) ∧
    exec (.cmpltni pd pc a imm) s = .next (s.delivering 1 [.p pd ln, .p pc !ln]) ∧
    exec (.pand pd pa pb) s = .next (s.delivering 1 [.p pd (s.me.rp pa && s.me.rp pb)]) ∧
    exec (.por pd pa pb) s = .next (s.delivering 1 [.p pd (s.me.rp pa || s.me.rp pb)]) ∧
    exec (.pxor pd pa pb) s = .next (s.delivering 1 [.p pd (s.me.rp pa ^^ s.me.rp pb)]) ∧
    exec (.pandn pd pa pb) s = .next (s.delivering 1 [.p pd (s.me.rp pa && !s.me.rp pb)]) ∧
    (c = true ↔ cmpSpec cond (s.me.rs a) (s.me.rs b)) ∧
    (e = true ↔ s.me.rs a = imm.signExtend 64) ∧
    (l = true ↔ (s.me.rs a).toInt < imm.toInt) ∧
    (ln = true ↔ (s.me.rs a).toNat < imm.toNat)

/-- Bytes of an access size of LDL and STL. -/
def Sys2Proof.Machine.sizeSpec : Size → Nat
  | .n8 | .i8 => 1
  | .n16 | .i16 => 2
  | .n32 | .i32 => 4
  | .d64 => 8

/-- LDL and STL at A = s_a + sext(imm9), where the access meets no violation: a load of the size's bytes that reads at issue + 2 and
delivers at issue + 4, a store of the low bytes of s_d; nothing else changes. An access that meets one raises it with its address, and one
past 1 MiB meets LOCAL_RANGE (1); one in the scratchpad, off its gated banks, meets none. -/
def Sys2Proof.Machine.LocalMovesDeliver : Prop :=
  ∀ (s : State) (d a : BitVec 5) (size : Size) (imm : BitVec 9) (cls : Nat),
    (s.me.localCheck (s.me.rs a + imm.signExtend 64).toNat (sizeSpec size) false = some cls →
      exec (.ldl d a size imm) s = .next (s.raise (.violation cls (s.me.rs a + imm.signExtend 64).toNat))) ∧
    (s.me.localCheck (s.me.rs a + imm.signExtend 64).toNat (sizeSpec size) true = some cls →
      exec (.stl d a size imm) s = .next (s.raise (.violation cls (s.me.rs a + imm.signExtend 64).toNat))) ∧
    (∀ x n w, 0 < n → 2 ^ 20 < x + n → s.me.localCheck x n w = some 1) ∧
    (∀ x n w, x + n ≤ s.me.stashBase → x + n ≤ 2 ^ 20 → s.me.gatedSpan x n = false → s.me.localCheck x n w = none) ∧
    (∀ x n w, 0 < n → x + n ≤ 2 ^ 20 → s.me.gatedSpan x n = false → s.me.stashBase ≤ x → s.me.stashEntry x = none →
      s.me.localCheck x n w = some 2) ∧
    (s.me.localCheck (s.me.rs a + imm.signExtend 64).toNat (sizeSpec size) false = none →
      exec (.ldl d a size imm) s = .next (s.loading 4 (s.me.rs a + imm.signExtend 64).toNat (sizeSpec size)
        (.s d (size = .i8 ∨ size = .i16 ∨ size = .i32)))) ∧
    (s.me.localCheck (s.me.rs a + imm.signExtend 64).toNat (sizeSpec size) true = none →
      exec (.stl d a size imm) s = .next (s.storing (s.me.rs a + imm.signExtend 64).toNat
        (bytesOfNat (sizeSpec size) (s.me.rs d).toNat) false))

/-- What a load delivers of the bytes it has read: LDL their little-endian number, zero-extended or sign-extended from its length; a vector
load and TDLD the whole register; HSET the handle of a good record, while one that has turned bad since its issue leaves the handle as it
was (the model's choice, log 52). -/
def Sys2Proof.Machine.LoadsDeliverTheirBytes : Prop :=
  ∀ (l : LocalLoad) (bs : List Byte) (r : BitVec 5) (ph : Nat) (td : BitVec 6) (h : BitVec 4) (top : Nat),
    (∀ i, (hi : i < bs.length) → natOfBytes bs / 256 ^ i % 256 = bs[i].toNat) ∧ natOfBytes bs < 256 ^ bs.length ∧
    (bs.length = l.len → l.len = 1 ∨ l.len = 2 ∨ l.len = 4 ∨ l.len = 8 →
      (l.dest = .s r false → l.result bs = .s r ((BitVec.ofNat (8 * l.len) (natOfBytes bs)).setWidth 64)) ∧
      (l.dest = .s r true → l.result bs = .s r ((BitVec.ofNat (8 * l.len) (natOfBytes bs)).signExtend 64))) ∧
    (l.dest = .vec ph → l.result bs = .vec ph (BitVec.ofNat 4096 (natOfBytes bs)) false) ∧
    (l.dest = .td td → l.result bs = .td td (BitVec.ofNat 256 (natOfBytes bs))) ∧
    (∀ v, l.dest = .handle h top → handleOf top (natOfBytes bs) = some v → l.result bs = .handle h v) ∧
    (∀ (c : Core) (p : Pending), l.dest = .handle h top → handleOf top (natOfBytes bs) = none →
      (c.commit { p with res := l.result bs }).handles = c.handles)

/-- A store into the scratchpad writes its bytes, and no other byte of any memory: of that core's local memory and spill area, of another
core's, of the clusters' operand memories and side-areas, of the engines' vector buffers, of HBM and of SCM. -/
def Obligations.LocalStoreWritesItsBytes : Prop :=
  ∀ (s : State) (c : CoreId) (st : LocalStore), st.half = false → st.bytes ≠ [] →
    st.addr + st.bytes.length ≤ (s.core c).stashBase → (s.core c).loc.lmem.wf = true →
    let t := s.performStore c st
    (∀ i, (h : i < st.bytes.length) → (t.core c).loc.lmem.get (st.addr + i) = st.bytes[i]) ∧
    (∀ x, x < st.addr ∨ st.addr + st.bytes.length ≤ x → (t.core c).loc.lmem.get x = (s.core c).loc.lmem.get x) ∧
    (t.core c).s = (s.core c).s ∧ (t.core c).p = (s.core c).p ∧ (t.core c).v = (s.core c).v ∧
    (t.core c).ctl = (s.core c).ctl ∧ (t.core c).sys = (s.core c).sys ∧ (t.core c).loc.spill = (s.core c).loc.spill ∧
    (∀ d, d ≠ c → t.core d = s.core d) ∧ t.clusters = s.clusters ∧ t.engines = s.engines ∧ t.hbm = s.hbm ∧ t.scm = s.scm

/-- LDSP and STSP at spill offset 8·imm11 inside the declared bytes; beyond them they raise SPILL with the offset and the limit. -/
def Sys2Proof.Machine.SpillMovesDeliver : Prop :=
  ∀ (s : State) (d a : BitVec 5) (imm : BitVec 11),
    (8 * imm.toNat + 8 ≤ s.me.loc.spillLimit →
      exec (.ldsp d imm) s = .next (s.delivering 1 [.s d (BitVec.ofNat 64 (natOfBytes (s.me.loc.spill.bytes (8 * imm.toNat) 8)))]) ∧
      exec (.stsp a imm) s = .next (s.delivering 1 [.spill (8 * imm.toNat) (s.me.rs a)])) ∧
    (s.me.loc.spillLimit < 8 * imm.toNat + 8 →
      exec (.ldsp d imm) s = .next (s.raise (.trap 0x04 (BitVec.ofNat 64 (8 * imm.toNat)) (BitVec.ofNat 64 s.me.loc.spillLimit))) ∧
      exec (.stsp a imm) s = .next (s.raise (.trap 0x04 (BitVec.ofNat 64 (8 * imm.toNat)) (BitVec.ofNat 64 s.me.loc.spillLimit))))

/-- Loads and stores of a core in its local memory and its spill area, and what a load delivers. -/
def Obligations.LocalAndSpillMovesDeliver : Prop := LocalMovesDeliver ∧ SpillMovesDeliver ∧ LoadsDeliverTheirBytes

/-- MFC and MTC reach a user control register; an index that names none raises ILLEGAL, and an MTC that R47 refuses VWIN. -/
def Sys2Proof.Machine.ControlRegisterMoves : Prop :=
  ∀ (s : State) (d a : BitVec 5) (index : BitVec 12),
    (∀ v, s.ctlRead s.cur index.toNat = some v → exec (.mfc d index) s = .next (s.delivering 1 [.s d v])) ∧
    (∀ v, s.ctlRead s.cur index.toNat = some v → ctlLegal index.toNat (s.me.rs a) = true →
      exec (.mtc a index) s = .next (s.delivering 1 [.ctrl index.toNat (s.me.rs a)])) ∧
    (∀ v, s.ctlRead s.cur index.toNat = some v → ctlLegal index.toNat (s.me.rs a) = false →
      exec (.mtc a index) s = .next (s.raise (.trap 0x03 (s.me.rs a) 0))) ∧
    (s.ctlRead s.cur index.toNat = none →
      exec (.mfc d index) s = .next (s.raise s.illegal) ∧ exec (.mtc a index) s = .next (s.raise s.illegal))

/-- MFV and MTV on a usable vector register: element `el` of 32 bits out of it, or the whole register with that element replaced. -/
def Sys2Proof.Machine.VectorElementMoves : Prop :=
  ∀ (s : State) (d a : BitVec 5) (v : BitVec 6) (el : BitVec 7), s.me.usable [v.toNat] → ∃ w : VecReg,
    exec (.mfv d v el) s = .next (s.delivering 3 [.s d (BitVec.ofNat 64 (elem (s.me.rv v.toNat) 32 el.toNat))]) ∧
    exec (.mtv v a el) s = .next (s.delivering 2 [.vec (s.me.phys v.toNat) w false]) ∧
    elem w 32 el.toNat = (s.me.rs a).toNat % 2 ^ 32 ∧
    ∀ i, i < 128 → i ≠ el.toNat → elem w 32 i = elem (s.me.rv v.toNat) 32 i

/-- Moves between scalar registers and control registers or vector elements. -/
def Obligations.RegisterMovesDeliver : Prop := ControlRegisterMoves ∧ VectorElementMoves

/-- The f32 value in bits [31:0] of a scalar, after input flushing (R175). -/
def Sys2Proof.Machine.f32Of (c : Core) (r : BitVec 5) : Num :=
  FFmt.f32.value (flushIn c.ctl.fmode (.flt .f32)) ((c.rs r).toNat % 2 ^ 32)

/-- The f32 pattern of a number, rounded once under fmode.rm and flushed, zero-extended (R175). -/
def Sys2Proof.Machine.f32Result (c : Core) (x : Num) : Word :=
  BitVec.ofNat 64 (FFmt.f32.res (modeRM c.ctl.fmode) (flushOut c.ctl.fmode (.flt .f32)) x)

/-- The scalar floating instructions deliver the exact result rounded once, four sc later; FCMP its condition two sc later. -/
def Obligations.ScalarFloatDelivers : Prop :=
  ∀ (s : State) (d a b c : BitVec 5) (pd pc : BitVec 4) (cond : FCond),
    let rd := (modeRM s.me.ctl.fmode).isRD
    exec (.fadd d a b) s = .next (s.delivering 4 [.s d (f32Result s.me ((f32Of s.me a).add rd (f32Of s.me b)))]) ∧
    exec (.fsub d a b) s = .next (s.delivering 4 [.s d (f32Result s.me ((f32Of s.me a).add rd (f32Of s.me b).neg))]) ∧
    exec (.fmul d a b) s = .next (s.delivering 4 [.s d (f32Result s.me ((f32Of s.me a).mul (f32Of s.me b)))]) ∧
    exec (.fma d a b c) s = .next (s.delivering 4
      [.s d (f32Result s.me (((f32Of s.me a).mul (f32Of s.me b)).add rd (f32Of s.me c)))]) ∧
    exec (.fcvtif d a) s = .next (s.delivering 4 [.s d (f32Result s.me (.ofInt (s.me.rs a).toInt))]) ∧
    exec (.fcvtfi d a) s = .next (s.delivering 4
      [.s d (BitVec.ofNat 64 (intConv 64 true (.mode (modeRM s.me.ctl.fmode)) (f32Of s.me a)).bits)]) ∧
    exec (.fcmp pd pc a b cond) s = .next (s.delivering 2
      [.p pd (fcmpHolds cond (f32Of s.me a) (f32Of s.me b)), .p pc !(fcmpHolds cond (f32Of s.me a) (f32Of s.me b))])

/-- BDMOV, TDSET, CHSET, TDLD and TDST where nothing refuses them, BDMOV's trap, the TDESC of a misaligned TDLD or TDST and the violations
that they meet. -/
def Sys2Proof.Machine.BondAndDescriptorMoves : Prop :=
  ∀ (s : State) (bd : BitVec 4) (td : BitVec 6) (e : BitVec 3) (a b : BitVec 5) (imm : BitVec 11) (f : TdField),
    (1 ≤ (s.me.rs a).toNat → (s.me.rs a).toNat ≤ 512 →
      exec (.bdmov bd a) s = .next (s.delivering 1 [.bd bd ((s.me.rs a).setWidth 16)])) ∧
    (s.me.rs a = 0 ∨ 512 < (s.me.rs a).toNat → exec (.bdmov bd a) s = .next (s.raise (.trap 0x07 (s.me.rs a) 0))) ∧
    exec (.tdset td f a) s = .next (s.delivering 1 [.tdField td f (s.me.rs a)]) ∧
    exec (.chset e a b) s = .next (s.delivering 1 [.ch e (if b = 0 then BitVec.allOnes 64 else s.me.rs b) (s.me.rs a)]) ∧
    ((s.me.rs a + 32 * imm.setWidth 64).toNat % 32 = 0 →
      (s.me.localCheck (s.me.rs a + 32 * imm.setWidth 64).toNat 32 false = none →
        exec (.tdld td a imm) s = .next (s.loading 3 (s.me.rs a + 32 * imm.setWidth 64).toNat 32 (.td td))) ∧
      (s.me.localCheck (s.me.rs a + 32 * imm.setWidth 64).toNat 32 true = none →
        exec (.tdst td a imm) s = .next (s.storing (s.me.rs a + 32 * imm.setWidth 64).toNat
          (bytesOfNat 32 s.me.td[td.toNat].toNat) false))) ∧
    ((s.me.rs a + 32 * imm.setWidth 64).toNat % 32 ≠ 0 →
      exec (.tdld td a imm) s = .next (s.raise (.trap 0x07 (td.setWidth 64) 0)) ∧
      exec (.tdst td a imm) s = .next (s.raise (.trap 0x07 (td.setWidth 64) 0))) ∧
    (∀ cls, (s.me.rs a + 32 * imm.setWidth 64).toNat % 32 = 0 →
      (s.me.localCheck (s.me.rs a + 32 * imm.setWidth 64).toNat 32 false = some cls →
        exec (.tdld td a imm) s = .next (s.raise (.violation cls (s.me.rs a + 32 * imm.setWidth 64).toNat))) ∧
      (s.me.localCheck (s.me.rs a + 32 * imm.setWidth 64).toNat 32 true = some cls →
        exec (.tdst td a imm) s = .next (s.raise (.violation cls (s.me.rs a + 32 * imm.setWidth 64).toNat))))

/-- HADDR, ADVC and ADVP on a configured handle: the slot's address, and the advance of an index by no more than is filled or free. -/
def Sys2Proof.Machine.HandleMoves : Prop :=
  ∀ (s : State) (d : BitVec 5) (h : BitVec 4) (k n : BitVec 10) (x : Handle), s.me.handles[h.toNat] = some x →
    exec (.haddr d h k) s = .next (s.delivering 1
      [.s d (BitVec.ofNat 64 (x.base + (x.cons + k.toNat) % x.slotCount * x.slotBytes))]) ∧
    (n.toNat ≤ x.filled → exec (.advc h n) s = .next (s.delivering 1 [.advance h false n.toNat])) ∧
    (x.filled < n.toNat → exec (.advc h n) s = .next (s.raise (.trap 0x06 (h.setWidth 64) 0))) ∧
    (h ≠ 15 → n.toNat ≤ x.slotCount - x.filled → exec (.advp h n) s = .next (s.delivering 1 [.advance h true n.toNat])) ∧
    (h = 15 ∨ x.slotCount - x.filled < n.toNat → exec (.advp h n) s = .next (s.raise (.trap 0x06 (h.setWidth 64) 0)))

/-- HADDR, ADVC and ADVP raise HANDLE on a handle that is not configured; HSET does for a misaligned record, for one out of range, and while
an incomplete command names its handle, and a record that local memory does not hold is a violation. -/
def Sys2Proof.Machine.HandleTraps : Prop :=
  ∀ (s : State) (d a : BitVec 5) (h : BitVec 4) (k n : BitVec 10) (cls : Nat),
    let out : Host.Outcome State Fault Refusal := .next (s.raise (.trap 0x06 (h.setWidth 64) 0))
    let at_ := (s.me.rs a).toNat
    (s.me.handles[h.toNat] = none → exec (.haddr d h k) s = out ∧ exec (.advc h n) s = out ∧ exec (.advp h n) s = out) ∧
    (at_ % 16 ≠ 0 → exec (.hset h a) s = out) ∧
    (at_ % 16 = 0 → s.me.localCheck at_ 16 false = some cls → exec (.hset h a) s = .next (s.raise (.violation cls at_))) ∧
    (at_ % 16 = 0 → s.me.localCheck at_ 16 false = none →
      s.hsetRecord a = none ∨ (s.me.q.all.any fun k => k.kind.names h) = true → exec (.hset h a) s = out)

/-- HSET with an aligned record that local memory holds in range, where no incomplete command names the handle: the record is read two sc
later, as a load, and the handle that a good one makes is configured three sc later. -/
def Sys2Proof.Machine.HandleSetDelivers : Prop :=
  ∀ (s : State) (h : BitVec 4) (a : BitVec 5) (x : Handle) (l : LocalLoad) (bs : List Byte) (v : Handle) (p : Pending),
    (s.me.rs a).toNat % 16 = 0 → s.me.localCheck (s.me.rs a).toNat 16 false = none → s.hsetRecord a = some x →
    (s.me.q.all.any fun k => k.kind.names h) = false →
    exec (.hset h a) s = .next (s.loading 3 (s.me.rs a).toNat 16 (.handle h s.me.stashBase)) ∧
    (l.dest = .handle h s.me.stashBase → handleOf s.me.stashBase (natOfBytes bs) = some v → l.result bs = .handle h v) ∧
    ((s.me.commit { p with res := .handle h v }).handles[h.toNat] = some v) ∧
    x.base % 512 = 0 ∧ x.slotBytes ≠ 0 ∧ x.slotBytes % 512 = 0 ∧ 0 < x.slotCount ∧ x.slotCount ≤ 1024 ∧
    x.prod < 2 * x.slotCount ∧ x.cons < 2 * x.slotCount ∧ x.filled ≤ x.slotCount ∧
    x.base + x.slotBytes * x.slotCount ≤ s.me.stashBase

/-- The bond, descriptor, chain-table and handle instructions of the S slot. -/
def Obligations.DescriptorAndHandleMovesDeliver : Prop := BondAndDescriptorMoves ∧ HandleMoves ∧ HandleSetDelivers ∧ HandleTraps

/-- A scalar result becomes readable in its sc and in no earlier one; one to s0, like a predicate to p0, is discarded: s0 reads zero and
p0 reads one, always. No other register of the core changes with it. -/
def Obligations.ResultsBecomeReadable : Prop :=
  ∀ (s : State) (r q : BitVec 5) (p : BitVec 4) (v : Word) (b : Bool),
    s.me.pend = [] → s.me.loc.loads = [] → s.me.loc.stores = [] → s.me.cyc.toNat + 1 < 2 ^ 64 →
    let t := (s.delivering 1 [.s r v]).tick s.cur
    let u := (s.delivering 1 [.p p b]).tick s.cur
    (s.delivering 1 [.s r v]).me.rs q = s.me.rs q ∧
    t.me.rs q = (if q = 0 then 0 else if q = r then v else s.me.rs q) ∧
    t.me.p = s.me.p ∧ t.me.v = s.me.v ∧ t.me.td = s.me.td ∧ t.me.ctl = s.me.ctl ∧ t.me.sys = s.me.sys ∧
    t.me.loc.lmem = s.me.loc.lmem ∧ t.me.pend = [] ∧
    (u.me.rp p = if p = 0 then true else b) ∧ (∀ x, x ≠ p → u.me.rp x = s.me.rp x) ∧ u.me.s = s.me.s

/-! ### The K slot -/

/-- The branch family: the target, its delay, and ln for the calls; a register target that is no bundle address, and a relative one beyond
48 bits, raise ILLEGAL. Nothing else changes. -/
def Obligations.BranchesRedirect : Prop :=
  ∀ (s : State) (off : BitVec 22) (a : BitVec 5),
    let good := fun (w : Word) => w.toNat % 32 = 0 ∧ w.toNat < 2 ^ 48
    let ln : Result := .ctrl 0x01B (s.me.pc + 32)
    let rel := s.me.pc + 32 * off.signExtend 64
    (rel.toNat < 2 ^ 48 → exec (.br off) s = .next (s.redirected rel 1 []) ∧ exec (.call off) s = .next (s.redirected rel 1 [ln])) ∧
    (2 ^ 48 ≤ rel.toNat → exec (.br off) s = .next (s.raise s.illegal) ∧ exec (.call off) s = .next (s.raise s.illegal)) ∧
    (good (s.me.rs a) → exec (.bri a) s = .next (s.redirected (s.me.rs a) 3 []) ∧
      exec (.calli a) s = .next (s.redirected (s.me.rs a) 3 [ln])) ∧
    (good s.me.ctl.ln → exec .ret s = .next (s.redirected s.me.ctl.ln 3 [])) ∧
    (¬good (s.me.rs a) → exec (.bri a) s = .next (s.raise s.illegal) ∧ exec (.calli a) s = .next (s.raise s.illegal)) ∧
    (¬good s.me.ctl.ln → exec .ret s = .next (s.raise s.illegal))

/-- The record that a loop instruction makes: active, from the next bundle to the end, started after every other. -/
def Sys2Proof.Machine.loopStarted (c : Core) (len : Nat) (modulo : Bool) (stages : Nat) : LoopRec :=
  { active := true, start := c.pc + 32, stop := c.pc + BitVec.ofNat 64 (32 * len), modulo := modulo, stages := stages, order := c.nextOrder }

/-- LOOP and LOOPI with a length above 0: with a count of 0 the body is skipped and the counter is 0; otherwise the record is made and the
counter loaded. A length of 0 raises ILLEGAL. -/
def Sys2Proof.Machine.LoopsStart : Prop :=
  ∀ (s : State) (lc : BitVec 2) (r : BitVec 5) (len : BitVec 15) (count len10 : BitVec 10),
    let past := fun (n : Nat) => s.me.pc + BitVec.ofNat 64 (32 * n) + 32
    let made := fun (n : Nat) => s.withMe { s.me with loops := s.me.loops.set lc.toNat (loopStarted s.me n false 1) }
    (0 < len.toNat → (s.me.rs r).toNat % 2 ^ 32 = 0 →
      exec (.loop lc r len) s = .next (s.redirected (past len.toNat) 1 [.ctrl (0x020 + lc.toNat) 0])) ∧
    (0 < len.toNat → (s.me.rs r).toNat % 2 ^ 32 ≠ 0 →
      exec (.loop lc r len) s = .next ((made len.toNat).redirected (s.me.pc + 32) 1
        [.ctrl (0x020 + lc.toNat) (BitVec.ofNat 64 ((s.me.rs r).toNat % 2 ^ 32))])) ∧
    (0 < len10.toNat → count = 0 →
      exec (.loopi lc count len10) s = .next (s.redirected (past len10.toNat) 1 [.ctrl (0x020 + lc.toNat) 0])) ∧
    (0 < len10.toNat → count ≠ 0 →
      exec (.loopi lc count len10) s = .next ((made len10.toNat).redirected (s.me.pc + 32) 1
        [.ctrl (0x020 + lc.toNat) (BitVec.ofNat 64 count.toNat)])) ∧
    (len = 0 → exec (.loop lc r len) s = .next (s.raise s.illegal)) ∧
    (len10 = 0 → exec (.loopi lc count len10) s = .next (s.raise s.illegal))

/-- MLOOP of S stages: the record is modulo, the counter is the count plus S − 1, and the stage predicates begin with p8 alone. It is
ILLEGAL with a length of 0, more than 8 stages, a count above 2^32 − S, or beside another active modulo record (log 14). -/
def Sys2Proof.Machine.ModuloLoopStarts : Prop :=
  ∀ (s : State) (lc : BitVec 2) (r : BitVec 5) (st : BitVec 4) (len : BitVec 11),
    let n := (s.me.rs r).toNat % 2 ^ 32
    let other := ∃ k : Fin 4, k.val ≠ lc.toNat ∧ (s.me.loops[k]).active = true ∧ (s.me.loops[k]).modulo = true
    let bad := len = 0 ∨ 8 < st.toNat + 1 ∨ 2 ^ 32 - (st.toNat + 1) < n ∨ other
    (¬bad → n = 0 → exec (.mloop lc r st len) s =
      .next (s.redirected (s.me.pc + BitVec.ofNat 64 (32 * len.toNat) + 32) 1 [.ctrl (0x020 + lc.toNat) 0])) ∧
    (¬bad → n ≠ 0 → exec (.mloop lc r st len) s =
      .next ((s.withMe { s.me with loops := s.me.loops.set lc.toNat (loopStarted s.me len.toNat true (st.toNat + 1)) }).redirected
        (s.me.pc + 32) 1 (.ctrl (0x020 + lc.toNat) (BitVec.ofNat 64 (n + st.toNat)) ::
          (List.range 8).map fun i => .p (BitVec.ofNat 4 (8 + i)) (i == 0)))) ∧
    (bad → exec (.mloop lc r st len) s = .next (s.raise s.illegal))

/-- LEXIT of an active record clears it and every record started after it, clears the counter and goes past its end; of an inactive one
it changes nothing. ROT delivers its rotation. -/
def Sys2Proof.Machine.LoopExitAndRotation : Prop :=
  ∀ (s : State) (lc : BitVec 2) (imm : BitVec 10),
    let r := s.me.loops[lc.toFin]
    (r.active = true → exec (.lexit lc) s =
      .next ((s.withMe { s.me with loops := s.me.loops.map fun x => if r.order ≤ x.order then { x with active := false } else x }).redirected
        (r.stop + 32) 1 [.ctrl (0x020 + lc.toNat) 0])) ∧
    (r.active = false → exec (.lexit lc) s = .next s) ∧
    exec (.rot imm) s = .next (s.delivering 1 [.rot imm.toNat])

/-- The loop instructions and ROT. -/
def Obligations.LoopsStartAndEnd : Prop := LoopsStart ∧ ModuloLoopStarts ∧ LoopExitAndRotation

/-- Loop-back after a bundle: where the most recently started record that the bundle ends counts above 1, the counter goes down by one and
the body starts again; a modulo body also shifts its stage predicates, sets p8 while iterations remain, and rotates the names. -/
def Sys2Proof.Machine.LoopBackIterates : Prop :=
  ∀ (c : Core) (n : Fin 4), (c.loops[n]).active = true → (c.loops[n]).maskU = false → (c.loops[n]).maskS = false →
    (c.loops[n]).stop = c.pc → (∀ m : Fin 4, m ≠ n → (c.loops[m]).active = true → (c.loops[m]).order < (c.loops[n]).order) →
    1 < (c.ctl.lc[n]).toNat →
    let t := c.advance
    t.pc = (c.loops[n]).start ∧ t.ctl.lc[n] = c.ctl.lc[n] - 1 ∧ (∀ m : Fin 4, m ≠ n → t.ctl.lc[m] = c.ctl.lc[m]) ∧
    t.loops = c.loops ∧ t.s = c.s ∧ t.v = c.v ∧ t.loc = c.loc ∧ t.sys = c.sys ∧
    ((c.loops[n]).modulo = false → t.p = c.p ∧ t.ctl.rrb = c.ctl.rrb) ∧
    ((c.loops[n]).modulo = true →
      (∀ i : Fin 16, t.p[i] = if i.val < 8 then c.p[i] else if i.val = 8 then decide ((c.loops[n]).stages - 1 < (c.ctl.lc[n]).toNat - 1) else c.p[i.val - 1]) ∧
      (c.ctl.rsize = 0 → t.ctl.rrb = c.ctl.rrb) ∧
      (0 < c.ctl.rsize.toNat → c.ctl.rsize.toNat ≤ 1024 →
        t.ctl.rrb.toNat = (((c.ctl.rrb.toNat : Int) - c.ctl.rstep.toNat) % c.ctl.rsize.toNat).toNat))

/-- The fall-out of a loop-back: where the most recently started record that the bundle ends counts 1 or less, its counter becomes 0, the
record becomes inactive, nothing else changes, and the next one out is resolved in the same way; where no active record ends there, but for
those that a handler's entry has masked, the next bundle follows and nothing else changes. -/
def Sys2Proof.Machine.LoopBackFallsOut : Prop :=
  ∀ (c : Core) (n : Fin 4),
    let ends := fun (m : Fin 4) => (c.loops[m]).active = true ∧ (c.loops[m]).maskU = false ∧ (c.loops[m]).maskS = false ∧ (c.loops[m]).stop = c.pc
    (ends n → (∀ m, m ≠ n → ends m → (c.loops[m]).order < (c.loops[n]).order) → (c.ctl.lc[n]).toNat ≤ 1 →
      c.advance = Core.advance { c with
        ctl := { c.ctl with lc := c.ctl.lc.set n 0 }, loops := c.loops.set n { c.loops[n] with active := false } }) ∧
    ((∀ m, ¬ ends m) → c.advance = { c with pc := c.pc + 32 })

/-- Loop-back and fall-out at the end bundle of the active records. -/
def Obligations.LoopBackRepeats : Prop := LoopBackIterates ∧ LoopBackFallsOut

/-- The waits on handles, batches, queues and DRAIN: where the condition holds at issue the wait is over, otherwise the core waits on it;
nothing else changes. What a counted batch applies (R77) waits for the bundle's reads (R140). WAITF and WAITE of an unconfigured handle raise
HANDLE. -/
def Sys2Proof.Machine.QueueWaitsSample : Prop :=
  ∀ (s : State) (h : BitVec 4) (n : BitVec 10) (k : BitVec 6) (q : QMask) (x : Handle),
    let counting := fun (w : Wait) => s.waited.withMe { s.waited.me with counting := some w }
    (s.me.handles[h.toNat] = none →
      exec (.waitf h n) s = .next (s.raise (.trap 0x06 (h.setWidth 64) 0)) ∧
      exec (.waite h n) s = .next (s.raise (.trap 0x06 (h.setWidth 64) 0))) ∧
    (s.me.handles[h.toNat] = some x → n.toNat ≤ x.slotCount →
      exec (.waitf h n) s = .next (if n.toNat ≤ x.filled then s.waited else s.waitingOn (.filled h n.toNat)) ∧
      exec (.waite h n) s = .next (if n.toNat ≤ x.slotCount - x.filled then s.waited else s.waitingOn (.free h n.toNat))) ∧
    (s.me.handles[h.toNat] = some x → x.slotCount < n.toNat →
      exec (.waitf h n) s = .next (s.raise (.trap 0x06 (h.setWidth 64) 0)) ∧
      exec (.waite h n) s = .next (s.raise (.trap 0x06 (h.setWidth 64) 0))) ∧
    exec (.waitb k) s = .next (if s.me.incompleteBatches ≤ k.toNat then counting (.batches k.toNat) else s.waitingOn (.batches k.toNat)) ∧
    exec (.waitq q) s = .next (if s.me.queuesDone q then counting (.queues q) else s.waitingOn (.queues q)) ∧
    (∀ t : State, t.me.counting = some (.batches k.toNat) → t.countSatisfied =
      ((t.withMe { t.me with counting := none }).countOpen t.cur false).countOpen t.cur true) ∧
    (∀ t : State, t.me.counting = some (.queues q) →
      let u := t.withMe { t.me with counting := none }
      let v := if q.ca then u.countOpen t.cur false else u
      t.countSatisfied = if q.cb then v.countOpen t.cur true else v) ∧
    (∀ t : State, t.me.counting = none → t.countSatisfied = t) ∧
    exec .drain s = .next (if s.me.drained then s.waited else s.waitingOn .drain)

/-- HBAR: the core arrives, unless it takes up a wait in which it had arrived already, and goes on at once only where every core of its hoop
has. -/
def Sys2Proof.Machine.HoopBarrierArrives : Prop :=
  ∀ (s : State),
    let t := if s.me.again then s else s.withMe { s.me with
      hbarCount := s.me.hbarCount + 1, arrivals := (s.me.tick, s.me.tick + 2 * s.me.scTicks) :: s.me.arrivals.take 1 }
    exec .hbar s = .next (if t.waited.hoopArrived s.cur t.me.hbarCount then t.waited else t.waitingOn (.hoop t.me.hbarCount))

/-- WAITA on an aligned word that the windows let it read: it goes on where the word meets the condition, and otherwise waits with the
first value it has read; the words compare in the width of R156. -/
def Sys2Proof.Machine.WordWaitSamples : Prop :=
  ∀ (s t : State) (addr value : BitVec 5) (cond : WCond) (w : Width) (ia : Nat) (bs : List Byte),
    let n := match w with | .w4 => 4 | .w8 => 8
    let x := BitVec.ofNat 64 (natOfBytes bs)
    ((s.me.rs addr).toNat % n ≠ 0 → exec (.waita addr value cond w) s = .next (s.raise (.violation 8 (s.me.rs addr).toNat))) ∧
    ((s.me.rs addr).toNat % n = 0 → translate s.me.sys.wins { r := true } (s.me.rs addr).toNat = .ok ia →
    (s.readLine (.core s.cur) ia n).isOk = true → s.waited.readLine (.core s.cur) ia n = .ok (t, bs) →
    exec (.waita addr value cond w) s = .next (if condHolds cond w x (s.me.rs value) none then t
      else t.modMe fun c => { c with status := .waiting (.word ia (s.me.rs value) cond w (some x) (s.me.rs addr)) })) ∧
    (cond = .eq → w = .w8 → condHolds cond w x (s.me.rs value) none = (x == s.me.rs value)) ∧
    (cond = .eq → w = .w4 → condHolds cond w x (s.me.rs value) none = (x.setWidth 32 == (s.me.rs value).setWidth 32)) ∧
    (cond = .chg → condHolds cond w x (s.me.rs value) none = false)

/-- Every wait of the K slot at its issue. -/
def Obligations.WaitsSampleAtIssue : Prop := QueueWaitsSample ∧ HoopBarrierArrives ∧ WordWaitSamples

/-- PROBE, EXIT and NOP: a probe that finds nothing amiss changes no state but the count of open choices and what the translation units
hold, EXIT ends the issue of the core, and NOP changes nothing. -/
def Sys2Proof.Machine.ProbeExitAndNop : Prop :=
  ∀ (s : State) (base len : BitVec 5) (w : Bool),
    ((s.me.rs len).toNat = 0 → exec (.probe base len w) s = .next { s with choices := s.choices + 1 }) ∧
    ((s.me.rs len).toNat ≠ 0 → (s.me.rs base).toNat + (s.me.rs len).toNat ≤ 2 ^ 48 →
      (∀ va ∈ probePieces (s.me.rs base).toNat (s.me.rs len).toNat, s.probePiece w va = none) →
      ∃ tlb, exec (.probe base len w) s = .next { s with choices := s.choices + 1, trans := { s.trans with tlb := tlb } }) ∧
    (2 ^ 48 < (s.me.rs base).toNat + (s.me.rs len).toNat → (s.me.rs len).toNat ≠ 0 →
      exec (.probe base len w) s =
        .next ({ s with choices := s.choices + 1 }.raise (.violation clsWindow (s.me.rs base).toNat))) ∧
    exec .exit s = .next (s.withMe { s.me with status := .exiting }) ∧
    exec .nop s = .next s

/-- SPAWN, where the core's earlier stores have performed, delivers its accept bit sixteen sc later, and counts a spawn that is not accepted;
before that it waits for its turn while the bundles go on. A descriptor that cannot be read is a violation. SPAWNW goes on when the spawn is
accepted and waits while the dispatcher lacks room. -/
def Sys2Proof.Machine.SpawnsSubmit : Prop :=
  ∀ (s t : State) (task : BitVec 5) (pd : BitVec 4) (r : Submission),
    let f := s.flushStores s.cur
    let va := s.me.rs task
    let w := Wait.spawn va
    let answer := fun (t : State) (b : Bool) => t.withMe { t.me with
      pend := t.me.pend ++ [{ readyAt := max (f.me.sc + 16) (t.me.sc + 1), slot := Slot.k.num, ord := f.me.issue, res := .p pd b }] }
    (f.me.drained = true → f.me.spawns = [] →
      f.submit va (.core f.cur) f.me.sys.wins f.me.ctl.region.toNat ((f.taskOf f.cur).map (·.va)) = (t, r) →
      (r = .accepted → exec (.spawn task pd) s = .next (answer t true)) ∧
      (∀ code, r = .lacking ∨ r = .failed code →
        exec (.spawn task pd) s = .next (answer (t.charge t.me.ctl.region.toNat 0xD8 1) false)) ∧
      (∀ cls addr, r = .violation cls addr → exec (.spawn task pd) s = .next (t.raise (.violation cls addr)))) ∧
    (f.me.drained = false ∨ f.me.spawns ≠ [] → exec (.spawn task pd) s = .next (f.withMe { f.me with
      spawns := f.me.spawns ++ [{ issue := f.me.issue, pc := f.me.pc, task := va, pd := pd, readyAt := f.me.sc + 16 }] })) ∧
    (f.waited.look f.cur w = (t, .ok (true, w)) → exec (.spawnw task) s = .next (t.satisfy t.cur w)) ∧
    (f.waited.look f.cur w = (t, .ok (false, w)) → exec (.spawnw task) s = .next (t.modMe fun c => { c with status := .waiting w })) ∧
    (∀ m, f.waited.look f.cur w = (t, .error m) → exec (.spawnw task) s = .next (t.raise m))

/-- CLKDIV with a code below 7 whose divisors R18 allows asks for it; one that is reserved, or that R18 forbids, raises ILLEGAL. -/
def Sys2Proof.Machine.ClockRequests : Prop :=
  ∀ (s : State) (dom : Domain) (code : BitVec 4),
    let asked := s.me.asked.set (domIdx dom) code
    let codes := codesOf asked s.me.granted
    (code.toNat < 7 → codesLegal codes = true →
      exec (.clkdiv dom code) s = .next (s.withMe { s.me with asked := asked, clkNext := some codes })) ∧
    (7 ≤ code.toNat ∨ codesLegal codes = false → exec (.clkdiv dom code) s = .next (s.raise s.illegal))

/-- PROBE, EXIT, NOP, the spawns and CLKDIV. -/
def Obligations.ProbesSpawnsAndClocksAct : Prop := ProbeExitAndNop ∧ SpawnsSubmit ∧ ClockRequests

/-! ### Traps and the system instructions -/

/-- What an instruction meets outside a trial is taken: a trap at its own bundle, SWTRAP at the bundle that would issue next. -/
def Sys2Proof.Machine.RaisedTrapsAreTaken : Prop :=
  ∀ (s : State) (cause : Nat) (t0 t1 : Word) (imm : BitVec 16), s.trial = false →
    (cause ≠ 0x13 → s.raise (.trap cause t0 t1) = s.takeTrap s.cur s.curSlot.num cause true t0 t1 s.me.pc) ∧
    exec (.trap imm) s = .next ((s.modMe (·.advance)).takeTrap s.cur s.curSlot.num 0x13 true (imm.setWidth 64) 0 s.me.advance.pc)

/-- A user-class trap of a core in user mode, outside handlers, with a handler entry: the record stands in the scratchpad (tcause, zero,
tbaddr, tinfo0, tinfo1), uret and tstat.uh are written, the core goes to the entry, three sc pass, and mode, the system trap registers
and every other core keep their values. A record in a bank that is gated or waking is a violation. -/
def Obligations.UserTrapEntry : Prop :=
  ∀ (s : State) (c : CoreId) (slot cause : Nat) (sync : Bool) (t0 t1 tbaddr : Word),
    let x := s.core c
    (cause ≠ 0x0E ∧ cause ≠ 0x14 ∧ cause ≠ 0x15) → x.sys.mode = false → x.sys.uh = false → s.userEntry c ≠ 0 →
    let t := s.takeTrap c slot cause sync t0 t1 tbaddr
    let y := t.core c
    (x.gatedSpan x.sys.trapRec 32 = true → t = s.violation c 1 x.sys.trapRec tbaddr) ∧
    (x.gatedSpan x.sys.trapRec 32 = false → x.pend = [] → x.loc.loads = [] → x.loc.stores = [] → x.loc.lmem.wf = true →
      x.sys.trapRec + 32 ≤ x.stashBase → x.cyc.toNat + 3 < 2 ^ 64 →
    y.loc.lmem.bytes x.sys.trapRec 32 =
      bytesOfNat 4 (cause % 256 + slot % 8 * 2 ^ 8 + (if sync then 2 ^ 11 else 0)) ++ bytesOfNat 4 0
        ++ bytesOfNat 8 tbaddr.toNat ++ bytesOfNat 8 t0.toNat ++ bytesOfNat 8 t1.toNat ∧
    (∀ a, a < x.sys.trapRec ∨ x.sys.trapRec + 32 ≤ a → y.loc.lmem.get a = x.loc.lmem.get a) ∧
    y.pc = s.userEntry c ∧ y.sys = { x.sys with uret := tbaddr, uh := true } ∧ y.cyc = x.cyc + 3 ∧ y.bypass = [] ∧
    y.s = x.s ∧ y.p = x.p ∧ y.v = x.v ∧ y.td = x.td ∧ y.ctl = x.ctl ∧
    (∀ d, d ≠ c → t.core d = s.core d) ∧ t.hbm = s.hbm ∧ t.scm = s.scm ∧ t.tasks = s.tasks)

/-- A system-class trap, or any trap in privileged mode outside a user handler, of a core outside a system handler: tcause, tbaddr, tinfo0 and tinfo1 are written,
tstat.pm takes the mode, tstat.sh and privileged mode are set, the core goes to shentry, and three sc pass. -/
def Obligations.SystemTrapEntry : Prop :=
  ∀ (s : State) (c : CoreId) (slot cause : Nat) (sync : Bool) (t0 t1 tbaddr : Word),
    let x := s.core c
    (cause = 0x0E ∨ cause = 0x14 ∨ cause = 0x15 ∨ (x.sys.mode = true ∧ (sync = false ∨ x.sys.uh = false))) → x.sys.sh = false →
    cause < 256 →
    x.pend = [] → x.loc.loads = [] → x.loc.stores = [] → x.cyc.toNat + 3 < 2 ^ 64 →
    let t := s.takeTrap c slot cause sync t0 t1 tbaddr
    let y := t.core c
    y.pc = x.sys.shentry ∧
    y.sys.tcause.toNat = cause + slot % 8 * 2 ^ 8 + (if sync then 2 ^ 11 else 0) + (if x.sys.uh then 2 ^ 12 else 0) ∧
    y.sys.tbaddr = tbaddr ∧ y.sys.tinfo0 = t0 ∧ y.sys.tinfo1 = t1 ∧ y.sys.pm = x.sys.mode ∧ y.sys.sh = true ∧ y.sys.mode = true ∧
    y.sys.uh = x.sys.uh ∧ y.sys.uret = x.sys.uret ∧ y.sys.wins = x.sys.wins ∧ y.sys.ksc = x.sys.ksc ∧
    y.cyc = x.cyc + 3 ∧ y.s = x.s ∧ y.p = x.p ∧ y.v = x.v ∧ y.td = x.td ∧ y.ctl = x.ctl ∧ y.loc.lmem = x.loc.lmem ∧
    (∀ d, d ≠ c → t.core d = s.core d) ∧ t.hbm = s.hbm ∧ t.scm = s.scm ∧ t.tasks = s.tasks

/-- A synchronous user-class trap inside a user handler, in either mode, and every other synchronous trap of the system class or of
privileged mode inside a system handler, end in a fatal context error. -/
def Sys2Proof.Machine.NestedTrapsAreFatal : Prop :=
  ∀ (s : State) (c : CoreId) (slot cause : Nat) (t0 t1 tbaddr : Word),
    (systemCause cause = false → (s.core c).sys.uh = true →
      s.takeTrap c slot cause true t0 t1 tbaddr = s.fatal c 0x20 tbaddr (BitVec.ofNat 64 (0x10000 + cause)) 0) ∧
    (systemCause cause = true ∨ ((s.core c).sys.mode = true ∧ (s.core c).sys.uh = false) → (s.core c).sys.sh = true →
      s.takeTrap c slot cause true t0 t1 tbaddr = s.fatal c 0x20 tbaddr (BitVec.ofNat 64 (0x20000 + cause)) 0)

/-- What becomes of a trap that an instruction meets. -/
def Obligations.RaisedAndNestedTraps : Prop := RaisedTrapsAreTaken ∧ NestedTrapsAreFatal

/-- TRET in a user handler goes to uret and clears tstat.uh for the next bundle; outside one it is ILLEGAL. RTE in privileged mode and
a system handler goes to tbaddr, and mode := tstat.pm and tstat.sh := 0 for the next bundle. -/
def Obligations.TrapReturns : Prop :=
  ∀ (s : State),
    (s.me.sys.uh = true → exec .tret s = .next (s.redirected s.me.sys.uret 3 [.tret])) ∧
    (s.me.sys.uh = false → exec .tret s = .next (s.raise s.illegal)) ∧
    (s.me.sys.mode = true → s.me.sys.sh = true → exec .rte s = .next (s.redirected s.me.sys.tbaddr 3 [.rte])) ∧
    (∀ p : Pending, (s.me.commit { p with res := .tret }).sys = { s.me.sys with uh := false }) ∧
    (∀ p : Pending, (s.me.commit { p with res := .rte }).sys = { s.me.sys with mode := s.me.sys.pm, sh := false, held := 0, inPfw := false })

/-- In user mode each privileged instruction raises PRIV with its slot word, and nothing else: no register, no memory and no system
register is written. -/
def Obligations.PrivilegedInstructionsNeedTheMode : Prop :=
  ∀ (s : State) (a b : BitVec 5) (d e : BitVec 6) (index : BitVec 17), s.me.sys.mode = false →
    let out : Host.Outcome State Fault Refusal := .next (s.raise (.trap 0x02 (s.curWord.setWidth 64) 0))
    exec .rte s = out ∧ exec (.mtsr a index) s = out ∧ exec (.mfsr a index) s = out ∧ exec .halt s = out ∧ exec .pfack s = out ∧
    exec (.xinv a b) s = out ∧ exec (.errack a) s = out ∧ exec (.ckmark a) s = out ∧ exec (.persist d e) s = out ∧ exec (.scmrd d e) s = out

/-- MTSR and MFSR in privileged mode: a core-local write governs the next bundle, a module-shared one, by a task with the supervisor
attribute, performs at once, and what is read is readable in the next bundle. An index that names no system register raises ILLEGAL. -/
def Sys2Proof.Machine.SystemRegisterMoves : Prop :=
  ∀ (s : State) (a d : BitVec 5) (index : BitVec 17), s.me.sys.mode = true →
    (∀ v, sharedIndex index = false → s.sysLocalRead s.cur index.toNat = some v →
      exec (.mtsr a index) s = .next (s.delivering 1 [.sys index.toNat (s.me.rs a)]) ∧
      exec (.mfsr d index) s = .next ({ s with choices := s.choices + 1 }.delivering 1 [.s d v])) ∧
    (∀ v, sharedIndex index = true → s.superTask = true → s.sharedRead index.toNat = some v →
      exec (.mtsr a index) s = .next (s.sharedWrite index.toNat (s.me.rs a) true) ∧
      exec (.mfsr d index) s = .next ({ s with choices := s.choices + 1 }.delivering 1 [.s d v])) ∧
    ((sharedIndex index = true → s.superTask = true) → s.sysRead index = none → exec (.mtsr a index) s = .next (s.raise s.illegal) ∧ exec (.mfsr d index) s = .next (s.raise s.illegal))

/-- ERRACK, CKMARK, HALT and PFACK in privileged mode: the error log's tail moves up to s_a and no further than its head; the task keeps the
mark; the core halts and the supervisor complex hears of it; in the PFW handler the core stops for the sequencer. -/
def Sys2Proof.Machine.SystemCallsAct : Prop :=
  ∀ (s : State) (a : BitVec 5) (t : Task), s.me.sys.mode = true →
    (∃ v : Word, exec (.errack a) s = .next { s with elog := { s.elog with tail := v } } ∧
      v.toNat = min (max s.elog.tail.toNat (s.me.rs a).toNat) s.elog.head.toNat) ∧
    (s.taskOf s.cur = some t → exec (.ckmark a) s = .next { s with tasks := s.tasks.map fun x =>
      if x.va = t.va then { x with ckmark := s.me.rs a } else x }) ∧
    (s.taskOf s.cur = none → exec (.ckmark a) s = .next (s.withMe { s.me with sys := { s.me.sys with ckmark := s.me.rs a } })) ∧
    (s.me.sys.inPfw = false → exec .halt s = .next { s.withMe { s.me with status := .halted } with
      supEvents := s.supEvents ++ [.halt s.cur.val] }) ∧
    (s.me.sys.inPfw = true → exec .halt s = .next s.stopCore ∧ exec .pfack s = .next s.stopCore)

/-- The system-register moves and the other privileged instructions in privileged mode. -/
def Obligations.SystemInstructionsAct : Prop := SystemRegisterMoves ∧ SystemCallsAct

/-! ### The V slot -/

/-- The state in which a vector result for a name is in flight, a latency of the vector clock domain after issue (22 R381). -/
def Sys2Proof.Machine.State.vectored (s : State) (lat : Nat) (d : BitVec 6) (v : VecReg) (t : Bool) : State :=
  s.delivering (lat * s.me.vecScale) [.vec (s.me.phys d.toNat) v t]

/-- A vector register by its name, as an instruction that issues now reads it. -/
def Sys2Proof.Machine.State.vr (s : State) (n : BitVec 6) : VecReg := s.me.readPhys (s.me.phys n.toNat)

/-- The element-wise arithmetic on usable registers delivers, four vector cycles later, the register whose elements are the operation of
R185 on the elements of a, b and d; nothing else changes. -/
def Obligations.VectorArithmeticDelivers : Prop :=
  ∀ (s : State) (d a b : BitVec 6) (ty : Ty) (t : Bool), s.me.usable [d.toNat, a.toNat, b.toNat] →
    let out := fun (op : LaneOp) (x y : BitVec 6) => (.next (s.vectored 4 d (lanes (tyBits ty) (op.apply s.me.ctl.fmode ty)
      (s.vr x) (s.vr y) (s.vr d)) t) : Host.Outcome State Fault Refusal)
    exec (.vadd d a b ty t) s = out opAdd a b ∧ exec (.vsub d a b ty t) s = out opSub a b ∧ exec (.vmul d a b ty t) s = out opMul a b ∧
    exec (.vfma d a b ty t) s = out opFma a b ∧ exec (.vfms d a b ty t) s = out opFms a b ∧ exec (.vmin d a b ty t) s = out opMin a b ∧
    exec (.vmax d a b ty t) s = out opMax a b ∧ exec (.vabs d a ty t) s = out opAbs a a ∧ exec (.vneg d a ty t) s = out opNeg a a

/-- On the integer types an element of a vector operation is that of the exact integers, modulo 2^w. -/
def Obligations.VectorIntegerElements : Prop :=
  ∀ (m : BitVec 12) (ty : Ty) (a b d : VecReg) (i : Nat), ty.isInt = true → i < elemCount (tyBits ty) →
    let w := tyBits ty
    let x := tyInt ty (elem a w i)
    let y := tyInt ty (elem b w i)
    let z := tyInt ty (elem d w i)
    let el := fun (op : LaneOp) => (elem (lanes w (op.apply m ty) a b d) w i : Int)
    el opAdd = (x + y) % 2 ^ w ∧ el opSub = (x - y) % 2 ^ w ∧ el opMul = x * y % 2 ^ w ∧ el opFma = (x * y + z) % 2 ^ w ∧
    el opFms = (z - x * y) % 2 ^ w ∧ el opMin = min x y % 2 ^ w ∧ el opMax = max x y % 2 ^ w ∧ el opNeg = -x % 2 ^ w ∧
    el opAbs = |x| % 2 ^ w

/-- The bitwise operations, the shifts, the compares and VSEL on usable registers, four vector cycles later; nothing else changes. -/
def Obligations.VectorBitsAndComparesDeliver : Prop :=
  ∀ (s : State) (d a b : BitVec 6) (ty : Ty) (t : Bool), s.me.usable [d.toNat, a.toNat, b.toNat] →
    let w := tyBits ty
    let m := s.me.ctl.fmode
    let out := fun (f : Nat → Nat → Nat → Nat) =>
      (.next (s.vectored 4 d (lanes w f (s.vr a) (s.vr b) (s.vr d)) t) : Host.Outcome State Fault Refusal)
    let mask := fun (f : Nat → Nat → Bool) => out fun x y _ => if f x y then 2 ^ w - 1 else 0
    exec (.vand d a b ty t) s = .next (s.vectored 4 d (s.vr a &&& s.vr b) t) ∧
    exec (.vor d a b ty t) s = .next (s.vectored 4 d (s.vr a ||| s.vr b) t) ∧
    exec (.vxor d a b ty t) s = .next (s.vectored 4 d (s.vr a ^^^ s.vr b) t) ∧
    exec (.vshl d a b ty t) s = out (fun x k _ => if w ≤ k then 0 else x * 2 ^ k % 2 ^ w) ∧
    exec (.vshr d a b ty t) s = out (fun x k _ => if w ≤ k then 0 else x / 2 ^ k) ∧
    exec (.vsra d a b ty t) s = out (fun x k _ => patternOf w (signedOf w x / 2 ^ min k (w - 1))) ∧
    exec (.vsel d a b ty t) s = out (fun x y z => if z ≠ 0 then x else y) ∧
    exec (.vcmpeq d a b ty t) s = mask (elEq m ty) ∧
    exec (.vcmplt d a b ty t) s = mask (elLt m ty) ∧
    exec (.vcmple d a b ty t) s = mask (fun x y => elLt m ty x y || elEq m ty x y)

/-- The forms with a scalar in place of b, VBCAST, the moves, VIOTA and VCNT on usable registers; nothing else changes. -/
def Obligations.VectorScalarFormsAndMovesDeliver : Prop :=
  ∀ (s : State) (d a : BitVec 6) (b : BitVec 5) (ty : Ty) (t : Bool), s.me.usable [d.toNat, a.toNat] →
    let w := tyBits ty
    let x := (s.me.rs b).toNat % 2 ^ w
    let i := (s.me.rs b).toNat
    let out := fun (op : LaneOp) => (.next (s.vectored 4 d (lanes w (fun p _ r => op.apply s.me.ctl.fmode ty p x r)
      (s.vr a) (s.vr a) (s.vr d)) t) : Host.Outcome State Fault Refusal)
    exec (.vadds d a b ty t) s = out opAdd ∧ exec (.vmuls d a b ty t) s = out opMul ∧ exec (.vfmas d a b ty t) s = out opFma ∧
    exec (.vmaxs d a b ty t) s = out opMax ∧
    exec (.vbcast d a b ty t) s = .next (s.vectored 4 d
      (vecOf w (List.replicate (elemCount w) (if i < elemCount w then elem (s.vr a) w i else 0))) t) ∧
    exec (.vmov d a ty t) s = .next (s.vectored 4 d (s.vr a) t) ∧
    exec (.vmovs d b ty t) s = .next (s.vectored 4 d (vecOf w (List.replicate (elemCount w) x)) t) ∧
    exec (.viota d ty t) s = .next (s.vectored 4 d (vecOf w ((List.range (elemCount w)).map (iotaElem ty))) t) ∧
    exec (.vcnt d a ty t) s = .next (s.vectored 8 d (vecOf 32 [(elems (s.vr a) w).countP (· != 0)]) t)

/-- The widening instructions put wide element i into register d + i mod k at position i div k; VDOT, VRED and VSCAN deliver the sums and
trees of R81; VPERM and VSHUF permute. Nothing else changes. -/
def Sys2Proof.Machine.VectorWideningReductionsAndPermutes : Prop :=
  ∀ (s : State) (d a b : BitVec 6) (ty : Ty) (g : Group) (op : RedOp) (acc t : Bool),
    let w := tyBits ty
    let m := s.me.ctl.fmode
    let wide := fun (op : LaneOp) => List.zipWith (wideOp op m ty g) (elems (s.vr a) w) (elems (s.vr b) w)
    let spread := fun (l : List Nat) => (.next (s.delivering (5 * s.me.vecScale) ((List.range g.count).map fun r =>
      .vec (s.me.phys (d.toNat + r)) (vecOf (wideElt ty g).width (everyKth g.count r l)) false)) : Host.Outcome State Fault Refusal)
    (s.me.usable ((List.range g.count).map (d.toNat + ·) ++ [a.toNat, b.toNat]) →
      exec (.vwmul d a b ty g) s = spread (wide opMul) ∧ exec (.vwadd d a b ty g) s = spread (wide opAdd)) ∧
    (s.me.usable [d.toNat, a.toNat] →
      exec (.vred d a op ty t) s = .next (s.vectored 8 d (vecOf w (pairTree (redNode m op ty) 9 (elems (s.vr a) w))) t) ∧
      exec (.vscan d a op ty t) s = .next (s.vectored 8 d (vecOf w (scanLanes m op ty (elems (s.vr a) w))) t)) ∧
    (s.me.usable [d.toNat, a.toNat, b.toNat] →
      exec (.vdot d a b ty acc) s = .next (s.vectored 5 d (dotVec m ty acc (s.vr a) (s.vr b) (s.vr d)) false) ∧
      exec (.vperm d a b ty t) s = .next (s.vectored 6 d (permVec w (s.vr a) (s.vr b)) t) ∧
      exec (.vshuf d a b ty t) s = .next (s.vectored 6 d (shufVec w (s.vr a) (s.vr b) (s.vr d)) t))

/-- The scan of a list of at most 512 numbers under an associative operation is the list of its inclusive prefixes. -/
def Sys2Proof.Machine.ScanGivesInclusivePrefixes : Prop :=
  ∀ (op : Nat → Nat → Nat) (xs : List Nat), (∀ x y z, op (op x y) z = op x (op y z)) → xs.length ≤ 512 →
    (scanSteps op 9 1 xs).length = xs.length ∧
    ∀ i, (h : i < xs.length) → (scanSteps op 9 1 xs)[i]? = some ((xs.take (i + 1)).tail.foldl op (xs[0]'(by omega)))

/-- Widening, reductions, scans and permutes of the V slot. -/
def Obligations.WideningReductionsAndScansDeliver : Prop := VectorWideningReductionsAndPermutes ∧ ScanGivesInclusivePrefixes

/-- The estimates of a usable f32 register deliver six vector cycles later. VCVT and VNARROW, where no counter passes the threshold,
deliver their elements, add their counts for later bundles, and step the LFSR if stochastic rounding samples it. -/
def Sys2Proof.Machine.EstimatesAndConversionsDeliver : Prop :=
  ∀ (s : State) (d a : BitVec 6) (src dst : Ty) (g : Group) (t : Bool),
    let m := s.me.ctl.fmode
    let est := fun (f : Sys2Proof.Machine.Num → Sys2Proof.Machine.Num) => (.next (s.vectored 6 d (vecOf 32 ((elems (s.vr a) 32).map fun x =>
      FFmt.f32.res .rne (flushOut m (.flt .f32)) (f (elValue m .f32 x)))) t) : Host.Outcome State Fault Refusal)
    (s.me.usable [d.toNat, a.toNat] →
      exec (.vrsqe d a t) s = est rsqe ∧ exec (.vrcpe d a t) s = est rcpe ∧ exec (.vexp2e d a t) s = est exp2e ∧
      exec (.vlog2e d a t) s = est log2e ∧
      (s.convTrap (convCounts (s.vcvtConv a src dst)) = none →
        exec (.vcvt d a src dst t) s = .next (((s.vectored 4 d (vecOf (tyBits dst) ((s.vcvtConv a src dst).map (·.bits))) t).emitCounts
          (convCounts (s.vcvtConv a src dst))).stepLfsr (modeSR m)))) ∧
    (s.me.usable (d.toNat :: (List.range g.count).map (a.toNat + ·)) → s.convTrap (convCounts (s.vnarrowConv a src g)) = none →
      exec (.vnarrow d a src g) s = .next (((s.vectored 4 d (vecOf (tyBits src) ((s.vnarrowConv a src g).map (·.bits))) false).emitCounts
        (convCounts (s.vnarrowConv a src g))).stepLfsr (modeSR m)))

/-- A counted conversion whose increments make no counter exceed cvthr meets no CONVTHR; otherwise it meets one that names its slot and the
lowest counter that passes. -/
def Sys2Proof.Machine.ConversionThresholdIsPrecise : Prop :=
  ∀ (s : State) (n : Nat × Nat × Nat),
    let after := fun (k : Nat) => min 0xFFFFFFFF (s.me.running k + pick3 n k)
    let pass := fun (k : Nat) => 0 < pick3 n k ∧ s.me.ctl.cvthr.toNat < after k
    ((∀ k, k < 3 → ¬pass k) → s.convTrap n = none) ∧
    (∀ k, k < 3 → pass k → (∀ j, j < k → ¬pass j) →
      s.convTrap n = some (.trap 0x0D (BitVec.ofNat 64 (s.curSlot.num + k * 16)) 0))

/-- The estimates and the counted conversions of the V slot, and when CONVTHR comes before them. -/
def Obligations.ConversionsDeliverAndCount : Prop := EstimatesAndConversionsDeliver ∧ ConversionThresholdIsPrecise

/-- VCH with a legal entry on usable registers, and VWIN with a base that R47 allows; VCH with an illegal entry raises ILLEGAL. -/
def Sys2Proof.Machine.ChainedOperationAndWindow : Prop :=
  ∀ (s : State) (d a b : BitVec 6) (e : BitVec 3) (t : Bool) (r : BitVec 5) (imm : BitVec 11),
    let entry := s.me.ch[e.toNat]
    let base := s.me.rs r + imm.signExtend 64
    (∀ ty, chLegal entry = true → chTy entry = some ty → s.me.usable [d.toNat, a.toNat, b.toNat] →
      exec (.vch d a b e t) s = .next (s.vectored 8 d
        (lanes (tyBits ty) (chElem s.me.ctl.fmode ty entry) (s.vr a) (s.vr b) (s.vr d)) t)) ∧
    (chLegal entry = false → exec (.vch d a b e t) s = .next (s.raise s.illegal)) ∧
    (base.toNat % 32 = 0 → base.toNat ≤ 1504 → exec (.vwin r imm) s = .next (s.delivering 1 [.vwb (base.setWidth 11)])) ∧
    (base.toNat % 32 ≠ 0 ∨ 1504 < base.toNat → exec (.vwin r imm) s = .next (s.raise (.trap 0x03 base 0)))

/-- The vector loads and stores of a usable register where the local access meets no violation: the addresses and lengths of R199 to R201; a
store takes the first bytes of the register. VLDH and VSTH raise HANDLE on an unconfigured handle, and VSTH on h15. -/
def Obligations.VectorLocalMovesDeliver : Prop :=
  ∀ (s : State) (d : BitVec 6) (a c : BitVec 5) (imm : BitVec 11) (imm6 : BitVec 6) (h : BitVec 4) (k : BitVec 10) (x : Handle),
    s.me.usable [d.toNat] →
    let ready := 2 + 3 * s.me.vecScale
    let at_ := (s.me.rs a + 512 * imm.signExtend 64).toNat
    let atC := (s.me.rs a + 512 * imm6.setWidth 64).toNat
    let w := 32 / 2 ^ ((s.me.rs c).toNat % 4)
    let count := min ((s.me.rs c).toNat / 4) (4096 / w)
    let n := (count * w + 7) / 8
    let row := fun (i : Nat) => x.base + (i + k.toNat / (x.slotBytes / 512)) % x.slotCount * x.slotBytes + 512 * (k.toNat % (x.slotBytes / 512))
    let phys := s.me.phys d.toNat
    (s.me.localCheck at_ 512 false = none → exec (.vld d a imm) s = .next (s.loading ready at_ 512 (.vec phys))) ∧
    (s.me.localCheck at_ 512 true = none → exec (.vst d a imm) s = .next (s.storing at_ ((vecBytes (s.vr d)).take 512) false)) ∧
    (n ≠ 0 → s.me.localCheck atC n false = none → exec (.vldc d a c imm6) s = .next (s.loading ready atC n (.vec phys))) ∧
    (n = 0 → exec (.vldc d a c imm6) s = .next (s.delivering ready [.vec phys 0 false])) ∧
    (n ≠ 0 → s.me.localCheck atC n true = none →
      exec (.vstc d a c imm6) s = .next (s.storing atC ((vecBytes (s.vr d)).take n) (w = 4 ∧ count % 2 = 1))) ∧
    (n = 0 → exec (.vstc d a c imm6) s = .next s) ∧
    (s.me.handles[h.toNat] = some x → s.me.localCheck (row x.cons) 512 false = none →
      exec (.vldh d h k) s = .next (s.loading ready (row x.cons) 512 (.vec phys))) ∧
    (s.me.handles[h.toNat] = some x → h ≠ 15 → s.me.localCheck (row x.prod) 512 true = none →
      exec (.vsth d h k) s = .next (s.storing (row x.prod) ((vecBytes (s.vr d)).take 512) false)) ∧
    (s.me.handles[h.toNat] = none → exec (.vldh d h k) s = .next (s.raise (.trap 0x06 (h.setWidth 64) 0))) ∧
    (s.me.handles[h.toNat] = none ∨ h = 15 → exec (.vsth d h k) s = .next (s.raise (.trap 0x06 (h.setWidth 64) 0)))

/-- The registers that an instruction of the V and X slots, MFV or MTV names, in the order in which they are judged; none for the other
instructions, and for the four that an earlier check refuses: VCH of an illegal entry, XCVT of b4, XTBL of an inactive function, XPACK with b = d. -/
def Sys2Proof.Machine.State.vectorNames (s : State) : Instr → List Nat
  | .vadd d a b _ _ | .vsub d a b _ _ | .vmul d a b _ _ | .vfma d a b _ _ | .vfms d a b _ _ | .vmin d a b _ _ | .vmax d a b _ _
  | .vand d a b _ _ | .vor d a b _ _ | .vxor d a b _ _ | .vshl d a b _ _ | .vshr d a b _ _ | .vsra d a b _ _ | .vsel d a b _ _
  | .vcmpeq d a b _ _ | .vcmplt d a b _ _ | .vcmple d a b _ _ | .vperm d a b _ _ | .vshuf d a b _ _ | .vdot d a b _ _
  | .xexpand d a b _ _ | .xcompr d a b _ _ => [d.toNat, a.toNat, b.toNat]
  | .vabs d a _ _ | .vneg d a _ _ | .vadds d a _ _ _ | .vmuls d a _ _ _ | .vfmas d a _ _ _ | .vmaxs d a _ _ _ | .vcvt d a _ _ _
  | .vrsqe d a _ | .vrcpe d a _ | .vexp2e d a _ | .vlog2e d a _ | .vred d a _ _ _ | .vscan d a _ _ _ | .vbcast d a _ _ _ | .vmov d a _ _
  | .vcnt d a _ _ | .xpose d a _ _ _ => [d.toNat, a.toNat]
  | .vmovs d _ _ _ | .viota d _ _ | .vld d _ _ | .vst d _ _ | .vldc d _ _ _ | .vstc d _ _ _ | .vldh d _ _ | .vsth d _ _
  | .mfv _ d _ | .mtv d _ _ => [d.toNat]
  | .vwmul d a b _ g | .vwadd d a b _ g => (List.range g.count).map (d.toNat + ·) ++ [a.toNat, b.toNat]
  | .vnarrow d a _ g => d.toNat :: (List.range g.count).map (a.toNat + ·)
  | .vch d a b e _ => if chLegal s.me.ch[e.toNat] then [d.toNat, a.toNat, b.toNat] else []
  | .xzip d a b _ => [d.toNat, d.toNat + 1, a.toNat, b.toNat]
  | .xunzip d a _ => [a.toNat, a.toNat + 1, d.toNat, d.toNat + 1]
  | .xcvt d a fin fout _ => if (fmtElt fin).isSome && (fmtElt fout).isSome then [d.toNat, a.toNat] else []
  | .xpack d a b _ bf => if b = d then [] else d.toNat :: b.toNat :: (List.range (packGroup bf).count).map (a.toNat + ·)
  | .xunpk d a b bf => (List.range (packGroup bf).count).map (d.toNat + ·) ++ [a.toNat, b.toNat]
  | .xtld d a _ => d.toNat :: (List.range 4).map (a.toNat + ·)
  | .xtbl d a fn _ => if (s.me.xs.active[fn.toNat]).isSome then [d.toNat, a.toNat] else []
  | .xexp d _ n1 _ => (List.range (n1.toNat + 1)).map (d.toNat + ·)
  | _ => []

/-- Using a rotating name, of a destination or of a source, while the region is empty or leaves the file raises VWIN with the first such name,
on every instruction of the V and X slots and on MFV and MTV. Which of several it names is the model's choice (log 22). -/
def Sys2Proof.Machine.UnusableNamesRaiseVwin : Prop :=
  ∀ (s : State) (i : Instr) (n : Nat),
    (s.me.ctl.rsize = 0 ∨ 1536 < s.me.ctl.rbase.toNat + s.me.ctl.rsize.toNat) →
    (s.vectorNames i).find? (fun n => decide (32 ≤ n)) = some n →
    exec i s = .next (s.raise (.trap 0x03 (BitVec.ofNat 64 n) 0))

/-- VCH, VWIN and the use of register names. -/
def Obligations.ChainsAndWindowsOfNames : Prop := ChainedOperationAndWindow ∧ UnusableNamesRaiseVwin

/-! ### The X slot -/

/-- The transforms on usable registers: XPOSE, XZIP, XUNZIP, XEXPAND and XCOMPR; nothing else changes. -/
def Sys2Proof.Machine.RearrangementsDeliver : Prop :=
  ∀ (s : State) (d a b : BitVec 6) (c : BitVec 3) (w : XW) (t : Bool),
    let n := xwBits w
    let out := fun (names : List Nat) (lat : Nat) (l : List VecReg) => (.next (s.delivering (lat * s.me.vecScale)
      ((names.zip l).map fun p => .vec (s.me.phys p.1) p.2 false)) : Host.Outcome State Fault Refusal)
    let z := zipAbout (elems (s.vr a) n) (elems (s.vr b) n)
    let u := elems (s.vr a) n ++ elems (s.me.rv (a.toNat + 1)) n
    (s.me.usable [d.toNat, a.toNat] → exec (.xpose d a c w t) s = .next (s.vectored 8 d (xposeVec n (2 ^ c.toNat) (s.vr a)) t)) ∧
    (s.me.usable [d.toNat, d.toNat + 1, a.toNat, b.toNat] →
      exec (.xzip d a b w) s = out [d.toNat, d.toNat + 1] 4 [vecOf n (z.take (elemCount n)), vecOf n (z.drop (elemCount n))]) ∧
    (s.me.usable [d.toNat, d.toNat + 1, a.toNat, a.toNat + 1] →
      exec (.xunzip d a w) s = out [d.toNat, d.toNat + 1] 4 [vecOf n (everyKth 2 0 u), vecOf n (everyKth 2 1 u)]) ∧
    (s.me.usable [d.toNat, a.toNat, b.toNat] →
      exec (.xexpand d a b w t) s = .next (s.vectored 6 d (vecOf n (expandList (elems (s.vr a) n) (elems (s.vr b) n))) t) ∧
      exec (.xcompr d a b w t) s = .next (s.vectored 6 d (vecOf n (comprList (elems (s.vr a) n) (elems (s.vr b) n))) t))

/-- XCVT between formats other than b4, XPACK and XUNPK on usable registers, where no counter passes the threshold. -/
def Sys2Proof.Machine.FormatConversionsDeliver : Prop :=
  ∀ (s : State) (d a b : BitVec 6) (fin fout : Fmt) (src dst : Elt) (r : XRound) (bty : BitVec 2) (bf : Bool),
    let m := s.me.ctl.fmode
    let k := (packGroup bf).count
    (fmtElt fin = some src → fmtElt fout = some dst → s.me.usable [d.toNat, a.toNat] →
      s.convTrap (convCounts (s.xcvtConv a src dst r)) = none →
      exec (.xcvt d a fin fout r) s = .next (((s.vectored 4 d (vecOf dst.width ((s.xcvtConv a src dst r).map (·.bits))) false).emitCounts
        (convCounts (s.xcvtConv a src dst r))).stepLfsr (xcvtSamples m r))) ∧
    (s.trapXpack d a b bty.toNat bf = none →
      let l := s.xpackBlocks a bty.toNat bf
      exec (.xpack d a b bty bf) s = .next (((s.delivering (6 * s.me.vecScale)
        [.vec (s.me.phys d.toNat) (vecOf 4 (l.flatMap fun x => x.2.1.map (·.bits))) false,
         .vec (s.me.phys b.toNat) (vecOf 8 (l.map (·.1))) false]).emitCounts (convCounts (l.flatMap (·.2.2)))).stepLfsr (modeSR m))) ∧
    (s.me.usable ((List.range k).map (d.toNat + ·) ++ [a.toNat, b.toNat]) →
      ∃ l : List Nat, l.length = 512 ∧
        (∀ i, i < 512 → l[i]? = some ((packElt bf).res .rne false
          (b4Value (elem (s.vr b) 8 (i / 32)) (elem (s.vr a) 4 i) (m.getLsbD 10) (.ofNat 1)))) ∧
        exec (.xunpk d a b bf) s = .next (s.delivering (6 * s.me.vecScale) ((List.range k).map fun r =>
          .vec (s.me.phys (d.toNat + r)) (vecOf (packElt bf).width (everyKth k r l)) false)))

/-- The rearranging and the converting instructions of the X slot. -/
def Obligations.TransformsDeliver : Prop := RearrangementsDeliver ∧ FormatConversionsDeliver

/-- The tables and the decoder FIFO: XTLD writes one function of the shadow bank, XTSW makes the shadow bank active for later bundles, XTBL
looks the elements up in an active function and is ILLEGAL without one, and XEXP reads the rows of the oldest slot of h15 into consecutive
registers and, with t, advances it; it raises HANDLE where h15 is not configured, is empty or has no such rows. -/
def Obligations.TablesAndExpansionDeliver : Prop :=
  ∀ (s : State) (d a k : BitVec 6) (fn : BitVec 4) (n1 : BitVec 3) (t : Bool) (f : TableFn) (h : Handle),
    (s.me.usable (d.toNat :: (List.range 4).map (a.toNat + ·)) →
      exec (.xtld d a fn) s = .next (s.delivering 1
        [.shadow fn (tableOf (s.vr d) ((List.range 4).map fun i => s.me.rv (a.toNat + i)))])) ∧
    exec .xtsw s = .next (s.delivering 1 [.tables s.me.xs.shadow]) ∧
    (s.me.xs.active[fn.toNat] = some f → s.me.usable [d.toNat, a.toNat] →
      exec (.xtbl d a fn t) s = .next (s.vectored 6 d (vecOf (packElt f.bf16).width
        ((elems (s.vr a) (packElt f.bf16).width).map (tableElem s.me.ctl.fmode f (packElt f.bf16)))) t)) ∧
    (s.me.xs.active[fn.toNat] = none → exec (.xtbl d a fn t) s = .next (s.raise s.illegal)) ∧
    (let bad := s.me.handles[15] = none ∨
      ∃ h, s.me.handles[15] = some h ∧ (h.filled = 0 ∨ h.slotBytes / 512 < k.toNat + n1.toNat + 1);
      s.me.usable ((List.range (n1.toNat + 1)).map (d.toNat + ·)) → bad →
        exec (.xexp d k n1 t) s = .next (s.raise (.trap 0x06 15 0))) ∧
    (s.trapXexp d k n1 = none → s.me.handles[15] = some h →
      let at_ := h.base + h.cons % h.slotCount * h.slotBytes + 512 * k.toNat
      let rows := (List.range (n1.toNat + 1)).foldl (fun (u : State) j =>
        u.loading (6 * s.me.vecScale) (at_ + 512 * j) 512 (.vec (s.me.phys (d.toNat + j)))) s
      exec (.xexp d k n1 t) s = .next (if t then rows.delivering 1 [.advance 15 false 1] else rows))

/-! ### The M slot -/

/-- OMCLM claims its range of slots when each is free or its own already: the answer is 1, the slots are owned, those that were not read
zero in elements and side-area, and no other slot changes. With one slot in other hands, or released by
the core while its commands name it, nothing is claimed and the answer is 0. OMREL
ends the right to name its slots for later bundles. A range outside 1 to 63 slots below 64 raises OMSLOT. -/
def Obligations.SlotsAreClaimedAndReleased : Prop :=
  ∀ (s : State) (first n : BitVec 6) (pd : BitVec 4),
    let cl := clusterOf s.cur
    let mine := fun (i : Nat) => first.toNat ≤ i ∧ i < first.toNat + n.toNat
    let open_ := ∀ i, mine i → s.slotOwner cl i = none ∨ (s.slotOwner cl i = some s.cur ∧ s.me.claims i = true)
    (0 < n.toNat → first.toNat + n.toNat ≤ 64 → open_ → (s.cluster cl).omem.wf = true → (s.cluster cl).side.wf = true →
      ∃ t, exec (.omclm first n pd) s = .next t ∧
      t.me.pend = s.me.pend ++ [s.flight 1 (.names first.toNat n.toNat true), s.flight 2 (.p pd true)] ∧
      (∀ i : Fin 64, (t.cluster cl).owner[i] = if mine i then some s.cur else (s.cluster cl).owner[i]) ∧
      (∀ i x, mine i → s.slotOwner cl i = none → 32768 * i ≤ x → x < 32768 * (i + 1) → (t.cluster cl).omem.get x = 0) ∧
      (∀ i x, mine i → s.slotOwner cl i = none → 2048 * i ≤ x → x < 2048 * (i + 1) → (t.cluster cl).side.get x = 0) ∧
      (∀ i x, (¬mine i ∨ s.slotOwner cl i = some s.cur) → 32768 * i ≤ x → x < 32768 * (i + 1) →
        (t.cluster cl).omem.get x = (s.cluster cl).omem.get x) ∧
      (∀ i x, (¬mine i ∨ s.slotOwner cl i = some s.cur) → 2048 * i ≤ x → x < 2048 * (i + 1) →
        (t.cluster cl).side.get x = (s.cluster cl).side.get x) ∧
      (∀ d, d ≠ cl → t.cluster d = s.cluster d) ∧ t = { s with clusters := t.clusters, cores := t.cores } ∧
      t.me = { s.me with pend := t.me.pend } ∧ ∀ d, d ≠ s.cur → t.core d = s.core d) ∧
    (0 < n.toNat → first.toNat + n.toNat ≤ 64 → ¬open_ → exec (.omclm first n pd) s = .next (s.delivering 2 [.p pd false])) ∧
    (0 < n.toNat → first.toNat + n.toNat ≤ 64 →
      exec (.omrel first n) s = .next (s.delivering 1 [.names first.toNat n.toNat false])) ∧
    (n.toNat = 0 ∨ 64 < first.toNat + n.toNat →
      exec (.omclm first n pd) s = .next (s.raise (.trap 0x0A (BitVec.ofNat 64 first.toNat) 0)) ∧
      exec (.omrel first n) s = .next (s.raise (.trap 0x0A (BitVec.ofNat 64 first.toNat) 0)))

/-- The array commands enter the m queue with what their bundle gave them: MMA and MMAR, with their descriptors checked, with the task's
redundant mode joined to their own; MZERO, MACC and MDRAIN; MREL with its marker, which abandons a suspended MMAR. MLEASE makes the core a
contender, with a P no smaller than the least of the other contenders that have a ready pass. MRESUME sends a suspended MMAR on; MSTAT delivers its word. -/
def Obligations.ArrayCommandsQueue : Prop :=
  ∀ (s : State) (a b td : BitVec 6) (z rd tb ta : Bool) (d : BitVec 5),
    let cl := clusterOf s.cur
    let double := rd || ((s.taskOf s.cur).map (·.rdDefault)).getD false
    let tickets := ((s.regionOf s.cur).map (·.mtickets)).getD 0
    (s.trapMma a b tb ta [2] = none →
      exec (.mma a b z rd tb ta) s = .next ((s.queuedM (.mma (s.me.opnd a) (s.me.opnd b) z double tb ta false)).refreshArray cl)) ∧
    (s.trapMma a b tb ta [2, 3, 7] = none →
      exec (.mmar a b z rd tb ta) s = .next ((s.queuedM (.mma (s.me.opnd a) (s.me.opnd b) z double tb ta true)).refreshArray cl)) ∧
    (∀ sp, s.trapMma a b tb ta sp = none → s.me.mx.contender.isSome = true) ∧
    exec .mzero s = .next (s.queuedM .mzero) ∧
    (s.trapMacc td = none → exec (.macc td) s = .next (s.queuedM (.macc (s.me.opnd td)))) ∧
    (s.trapMdrain td = none → exec (.mdrain td) s = .next (s.queuedM (.mdrain (s.me.opnd td)))) ∧
    (tickets ≠ 0 → s.me.mx.contender = none → exec .mlease s = .next ((s.joinArbiter s.cur).delivering 1 [.contender (some tickets)])) ∧
    (∀ p, (∃ e ∈ s.rivals s.cur, (s.core e).mx.passVal = p) → (∀ e ∈ s.rivals s.cur, p ≤ (s.core e).mx.passVal) →
      s.joinArbiter s.cur = s.withMe { s.me with mx := { s.me.mx with passVal := max s.me.mx.passVal p } }) ∧
    (s.rivals s.cur = [] → s.joinArbiter s.cur = s) ∧
    (∀ e : CoreId, e ∈ s.rivals s.cur ↔ clusterOf e = cl ∧ e ≠ s.cur ∧ (s.core e).contends = true ∧ s.readyPass e = true) ∧
    (tickets ≠ 0 → s.me.mx.contender.isSome = true → exec .mlease s = .next s) ∧
    (tickets = 0 → exec .mlease s = .next (s.raise (.trap 0x09 0 0))) ∧
    (s.me.suspendedMmar = none → exec .mrel s = .next ((s.delivering 1 [.contender none]).queuedM .mrel)) ∧
    (∀ k, s.me.suspendedMmar = some k → exec .mrel s = .next ((((s.withMe (Core.modCmd { s.me with mx := { s.me.mx with chk := false } } k.id
      fun x => { x with phase := .performed })).refreshArray cl).delivering 1 [.contender none]).queuedM .mrel)) ∧
    (s.me.suspendedMmar = none → exec .mresume s = .next s) ∧
    (∀ k, s.me.suspendedMmar = some k → exec .mresume s =
      .next (s.withMe (s.me.modCmd k.id fun x => { x with phase := .queued, got := [] }))) ∧
    exec (.mstat d) s = .next (s.delivering 2 [.s d (BitVec.ofNat 64 s.mstat)])

/-- A pass over an integer pair adds to each word of a plane, modulo 2^32, the sum of the products of A's row and B's column over the
pass's values of k; a pass that begins afresh starts from zero. -/
def Sys2Proof.Machine.IntegerPassAccumulates : Prop :=
  ∀ (first flush : Bool) (av bv : Array Sys2Proof.Machine.Num) (total k0 kn i j : Nat) (plane : Vector (BitVec 32) 16384),
    (hi : i < 128) → (hj : j < 128) →
    ((mmaPlane true first flush av bv false false total k0 kn plane)[128 * i + j]'(by omega)).toInt
      = ((if first then 0 else (plane[128 * i + j]'(by omega)).toInt)
          + ((List.range kn).map fun q =>
              (av.getD (i * total + (k0 + q)) .nan).toInt * (bv.getD ((k0 + q) * 128 + j) .nan).toInt).sum).bmod (2 ^ 32)

/-- The exact value of a finite number. -/
def Sys2Proof.Machine.numVal : Sys2Proof.Machine.Num → ℚ
  | .fin neg n d => (if neg then -1 else 1) * (n : ℚ) / (d : ℚ)
  | _ => 0

/-- The sum of a group's products, before its one rounding, is exact; one product that is NaN makes it NaN. -/
def Sys2Proof.Machine.GroupSumsAreExact : Prop :=
  ∀ (l : List (Sys2Proof.Machine.Num × Sys2Proof.Machine.Num)),
    ((∀ p ∈ l, (∃ neg n d, p.1 = .fin neg n d ∧ 0 < d) ∧ ∃ neg n d, p.2 = .fin neg n d ∧ 0 < d) →
      ∃ neg n d, dotExact l = .fin neg n d ∧ 0 < d ∧ numVal (dotExact l) = (l.map fun p => numVal p.1 * numVal p.2).sum) ∧
    ((∃ p ∈ l, p.1.mul p.2 = .nan) → dotExact l = .nan)

/-- A pass over a floating pair: each word of a plane takes its groups of four values of k in increasing order; of each the exact sum is rounded
once to f32 and added with one rounding, both to nearest even; a pass that begins afresh starts from +0, and with fo32 a subnormal result
becomes the zero of its sign. -/
def Sys2Proof.Machine.FloatingPassAccumulates : Prop :=
  ∀ (first flush : Bool) (av bv : Array Sys2Proof.Machine.Num) (total k0 groups i j : Nat) (plane : Vector (BitVec 32) 16384),
    (hi : i < 128) → (hj : j < 128) →
    let code : Sys2Proof.Machine.Num → Nat := fun x => FFmt.f32.res .rne false x
    let val := fun (c : Nat) => FFmt.f32.value false c
    let pair := fun (k : Nat) => (av.getD (i * total + k) .nan, bv.getD (k * 128 + j) .nan)
    let group : Nat → Nat → Nat := fun acc g => code ((val acc).add false (val (code (dotExact ((List.range 4).map fun q => pair (k0 + (4 * g + q)))))))
    let x : Nat := (List.range groups).foldl group (if first then 0 else (plane[128 * i + j]'(by omega)).toNat)
    (mmaPlane false first flush av bv false false total k0 (4 * groups) plane)[128 * i + j]'(by omega)
      = BitVec.ofNat 32 (if flush && decide (x % 0x8000_0000 < 0x80_0000) then x / 0x8000_0000 * 0x8000_0000 else x)

/-- What a pass of the array adds to its planes. -/
def Obligations.PassesAccumulate : Prop := IntegerPassAccumulates ∧ FloatingPassAccumulates ∧ GroupSumsAreExact

/-- CHBEG opens a chain with its pricking, aborting an open one that it does not keep, or keeps the open one's progress; CHSTEP and CHRUN put
their steps into the m queue and count them issued; CHEND, once all are issued, puts the final conversion there and closes the chain; CHABORT
closes it, with the steps that have not started gone and one in progress stopping at its next pass boundary; CHGRAD queues a gradient. CHSTEP
of no step, and CHSTEP, CHRUN or CHEND with no chain open, are ILLEGAL. -/
def Obligations.ChainCommandsQueue : Prop :=
  ∀ (s : State) (r : BitVec 5) (i o l g : BitVec 6) (n : BitVec 4) (p : Pricking),
    let h := s.me.mx.chain
    let cl := clusterOf s.cur
    let withChain := fun (s : State) (h : Chain) => s.withMe { s.me with mx := { s.me.mx with chain := h } }
    let steps := fun (k : Nat) => (h.pk.steps.drop h.issued).take k
    let links := fun (k : Nat) => (steps k).map fun e => (s.me.td[(BitVec.ofNat 6 e.td).toNat], s.me.bond e.bdIn, s.me.bond e.bdOut)
    let after := fun (k : Nat) => (((steps k).getLast?.map fun e => s.me.bond e.bdOut).getD h.rPrev : Nat)
    let aborted := (s.withMe (s.me.abortChain (s.passRunning s.cur))).refreshArray cl
    let issued := fun (k : Nat) => (withChain (s.queuedM (.chain h.gen h.pk h.tdIn h.issued (links k)))
      { h with issued := h.issued + (steps k).length, rPrev := after k }).refreshArray cl
    (s.trapChbeg r i o = none → s.readPricking (s.me.rs r).toNat = .ok p → h.keeps p = true →
      exec (.chbeg r i o) s = .next (withChain s { h with pk := p, tdIn := s.me.opnd i, tdOut := s.me.opnd o })) ∧
    (s.trapChbeg r i o = none → s.readPricking (s.me.rs r).toNat = .ok p → h.keeps p = false →
      exec (.chbeg r i o) s = .next (withChain aborted
        { isOpen := true, gen := aborted.me.mx.chain.gen + 1, pk := p, tdIn := s.me.opnd i, tdOut := s.me.opnd o })) ∧
    (∀ m, s.trapChbeg r i o = some m → exec (.chbeg r i o) s = .next (s.raise m)) ∧
    (h.isOpen = false → ∀ running, s.me.abortChain running = s.me) ∧
    (h.isOpen = true → ∀ running, let c := s.me.abortChain running
      c.mx.chain = { h with isOpen := false } ∧ c = { s.me with mx := { s.me.mx with chain := c.mx.chain }, q := { s.me.q with m := c.q.m } } ∧
      (∀ k ∈ c.q.m, k.kind.isStep = true → if running then k.abort = true else k.phase = .performed) ∧
      c.q.m.map (·.id) = (s.me.q.m.filter fun k => !(k.kind.isStep && k.phase == .queued)).map (·.id)) ∧
    (0 < n.toNat → n.toNat ≤ 8 → s.trapChain n.toNat = none → exec (.chstep n) s = .next (issued n.toNat)) ∧
    (s.trapChain 8 = none → exec .chrun s = .next (issued 8)) ∧
    (h.isOpen = true → h.pk.steps.length ≤ h.issued →
      exec .chend s = .next (withChain (s.queuedM (.chend h.pk h.tdOut)) { h with isOpen := false })) ∧
    (h.isOpen = true → h.issued < h.pk.steps.length → exec .chend s = .next (s.raise (.trap 0x07 (BitVec.ofNat 64 h.issued) 0))) ∧
    exec .chabort s = .next aborted ∧
    (s.trapChgrad l o g = none → exec (.chgrad l o g) s = .next ((s.queuedM (.chgrad (s.me.opnd l) (s.me.opnd o) (s.me.opnd g)
      (s.me.bond (tdBdIn s.me.td[g.toNat])) (s.me.bond (tdBdOut s.me.td[g.toNat])))).refreshArray cl)) ∧
    (n.toNat = 0 ∨ 8 < n.toNat ∨ h.isOpen = false → exec (.chstep n) s = .next (s.raise s.illegal)) ∧
    (h.isOpen = false → exec .chrun s = .next (s.raise s.illegal) ∧ exec .chend s = .next (s.raise s.illegal))

/-! ### The C slots -/

/-- The copies, the atomics, the collective step and the decoder's commands enter their queues as members of the open batch of their slot,
with the retention hint that they name; a copy that rounds stochastically steps the LFSR; indices that cannot be read are reported when the
queue starts the command. In privileged mode PERSIST and SCMRD enter as raw copies. -/
def Obligations.MemoryCommandsQueue : Prop :=
  ∀ (s : State) (d src idx : BitVec 6) (h : BitVec 4) (hint : Hint) (op : BitVec 4) (va v e r : BitVec 5) (o : Order) (w : Width)
    (x : Handle) (l : List Int) (cls addr : Nat),
    let q := s.copyQueue
    let code := some hint.code.toNat
    let sampled := copySamples s.me.ctl.fmode s.me.td[d.toNat] s.me.td[src.toNat]
    let result := if r = 0 then none else some (s.me.rs r)
    let failing := fun (t : State) => t.withMe (t.me.modCmd s.me.q.nextId fun k => { k with fail := some (1, cls, addr) })
    (s.trapCopy d src copyDests copySources = none → exec (.copy d src hint) s =
      .next ((s.queued q (.copy (s.me.opnd d) (s.me.opnd src) false false) code).stepLfsr sampled)) ∧
    (s.tdCheck src copySources = none → s.trapCopyh h src = none → s.me.handles[h.toNat] = some x → exec (.copyh h src hint) s =
      .next (s.queued q (.copyh h ((x.prod + s.me.copyhs h) % (2 * x.slotCount)) (s.me.opnd src)) code)) ∧
    (s.trapRows d src idx src d copyDests tableSpaces = none →
      (s.indicesAtIssue idx = .ok l → exec (.gather d src idx hint) s =
        .next ((s.queued q (.gather (s.me.opnd d) (s.me.opnd src) l) code).stepLfsr sampled)) ∧
      (s.indicesAtIssue idx = .error (cls, addr) → exec (.gather d src idx hint) s =
        .next ((failing (s.queued q (.gather (s.me.opnd d) (s.me.opnd src) []) code)).stepLfsr sampled))) ∧
    (s.trapRows d src idx d src tableSpaces copySources = none →
      (s.indicesAtIssue idx = .ok l → exec (.scatter d src idx hint) s =
        .next ((s.queued q (.scatter (s.me.opnd d) (s.me.opnd src) l) code).stepLfsr sampled)) ∧
      (s.indicesAtIssue idx = .error (cls, addr) → exec (.scatter d src idx hint) s =
        .next ((failing (s.queued q (.scatter (s.me.opnd d) (s.me.opnd src) []) code)).stepLfsr sampled))) ∧
    (s.me.sys.mode = true → s.trapCopy d src [8] copySources = none → s.trapScm d src = none → exec (.persist d src) s =
      .next ((s.queued q (.copy (s.me.opnd d) (s.me.opnd src) true false)).stepLfsr sampled)) ∧
    (s.me.sys.mode = true → s.trapCopy d src copyDests [8] = none → s.trapScm d src = none → exec (.scmrd d src) s =
      .next ((s.queued q (.copy (s.me.opnd d) (s.me.opnd src) false true)).stepLfsr sampled)) ∧
    (op.toNat ≤ 9 → ¬(op.toNat = 9 ∧ w = .w8) → exec (.amo op va v r o w) s = .next (s.queued q (.amo op (s.me.rs va)
      (match w with | .w4 => ((s.me.rs v).setWidth 32).setWidth 64 | .w8 => s.me.rs v) result o w))) ∧
    (9 < op.toNat ∨ (op.toNat = 9 ∧ w = .w8) → exec (.amo op va v r o w) s = .next (s.raise s.illegal)) ∧
    exec (.amocas va e v r o) s = .next (s.queued q (.amocas (s.me.rs va) (s.me.rs e) (s.me.rs v) result o)) ∧
    exec (.colstep d v) s = .next (s.queued q (.colstep d (s.me.rs v))) ∧
    (s.trapDecomp d src = none → s.me.handles[15] = some x → tdSpace s.me.td[src.toNat] ≠ 0 → tdSpace s.me.td[src.toNat] ≠ 4 →
      exec (.decomp d src op) s = .next (s.queued .dec (.decomp s.me.td[d.toNat] s.me.td[src.toNat] none (op.toNat + 1) x))) ∧
    (s.trapDecomp d src = none → s.me.handles[15] = some x → (tdSpace s.me.td[src.toNat] = 0 ∨ tdSpace s.me.td[src.toNat] = 4) →
      (s.indicesAtIssue src = .ok l → exec (.decomp d src op) s =
        .next (s.queued .dec (.decomp s.me.td[d.toNat] s.me.td[src.toNat] (some (l.map Int.toNat)) (op.toNat + 1) x))) ∧
      (s.indicesAtIssue src = .error (cls, addr) → exec (.decomp d src op) s =
        .next (failing (s.queued .dec (.decomp s.me.td[d.toNat] s.me.td[src.toNat] none (op.toNat + 1) x))))) ∧
    (s.trapDdict d = none → exec (.ddict d) s = .next (s.queued .dec (.ddict (s.me.opnd d))))

/-- CBATCH closes the open batch of its queue, opens the next, and enters the queue; QFENCE puts one joining entry into each queue it
names; PREF, where every line can be brought in, changes only what the translation units and the L2 hold and what regions are charged, and
else discards the prefetch and logs the first violation; the bank commands enter the bank queue, and BANK stops one with a bad engine set. -/
def Sys2Proof.Machine.BatchFenceAndBankCommandsQueue : Prop :=
  ∀ (s : State) (va v a b : BitVec 5) (counters : Bool) (m : QMask) (td : BitVec 6) (hint : Hint) (p : Nat × Nat),
    let cb := s.curSlot == .cb
    let q := s.me.q.withOpen cb
    let num := q.openNum cb
    let closed := q.modBatch cb num fun x => { x with closed := true }
    let next := if cb then { closed with nextBatchB := num + 1 } else { closed with nextBatchA := num + 1 }
    let at_ := if va = 0 then none else some (s.me.rs va)
    (∃ t, exec (.cbatch va v counters) s = .next t ∧ t = s.withMe t.me ∧ t.me = { s.me with q := t.me.q } ∧
      t.me.q.batches = next.batches ∧ t.me.q.openNum cb = num + 1 ∧ t.me.q.openNum (!cb) = s.me.q.openNum (!cb) ∧
      t.me.q.get s.copyQueue = s.me.q.get s.copyQueue ++
        [s.commandOf (.cbatch num at_ ((s.me.rs v).setWidth 32) counters) none] ∧
      ∀ k, k ≠ s.copyQueue → t.me.q.get k = s.me.q.get k) ∧
    (∃ t, exec (.qfence m) s = .next t ∧ t = { s.withMe t.me with nextFence := s.nextFence + 1 } ∧
      (∀ k, (t.me.q.get k).map (·.kind) = (s.me.q.get k).map (·.kind) ++ if k ∈ maskList m then [.qfence s.nextFence] else []) ∧
      t.me = { s.me with q := t.me.q, mx := { s.me.mx with numM := t.me.mx.numM } }) ∧
    (s.tdCheck td [3, 7] = none →
      let l := s.pieces s.cur s.me.sys.wins { r := true } (s.me.opnd td)
      ((∀ x ∈ l, s.prefPiece (.core s.cur) x.1 = none) → ∃ t, exec (.pref td hint) s = .next t ∧
        t = { s with trans := { s.trans with tlb := t.trans.tlb }, l2 := t.l2, charges := t.charges, choices := t.choices }) ∧
      (l.findSome? (fun x => s.prefPiece (.core s.cur) x.1) = some p → exec (.pref td hint) s =
        .next ({ s with choices := s.choices + 1 }.logViolation s.cur p.1 p.2))) ∧
    (engineSet (s.me.rs b) = some p → (s.me.rs a).toNat % 4 = 0 →
      exec (.bkcmd a b v) s = .next (s.queuedBank (.bkcmd (s.me.rs a) p.1 p.2 (s.me.rs v)))) ∧
    (engineSet (s.me.rs b) = none ∨ (s.me.rs a).toNat % 4 ≠ 0 →
      exec (.bkcmd a b v) s = .next (s.raise (.trap 0x17 (s.me.rs b) (s.me.rs a)))) ∧
    (s.trapBkvec td b = none → engineSet (s.me.rs b) = some p →
      exec (.bkvec td b) s = .next (s.queuedBank (.bkvec (s.me.opnd td) p.1 p.2))) ∧
    (engineSet (s.me.rs b) = some p → 0 < p.2 ∧ p.1 + p.2 ≤ 512)

/-- STMAP of a record that its checks pass makes the entry for the next bundle, or, with a length of 0, ends it, and an entry that it replaces
has its dirty bytes written back first; STFLUSH puts the bytes that are dirty in present granules of the entries it names into the copy queue;
STINV drops their granules, with the stores to them that are in flight. -/
def Sys2Proof.Machine.StashControlsAct : Prop :=
  ∀ (s : State) (j : BitVec 3) (rec : BitVec 5) (mask : BitVec 8) (ia : Nat) (w : Bool),
    let r := s.stmapRecord rec
    let f := s.flushStores s.cur
    (∀ x, s.meetsStmap j rec = some x → exec (.stmap j rec) s = .next (s.raise x)) ∧
    (s.meetsStmap j rec = none →
      let t := match s.me.loc.map[j.toNat] with
        | some old => s.retireEntry s.cur old
        | none => s
      (r.len = 0 → exec (.stmap j rec) s = .next (t.delivering 1 [.stash j none])) ∧
      (r.len ≠ 0 → s.me.stashWindow r = .ok (ia, w) → exec (.stmap j rec) s = .next (t.delivering 1
        [.stash j (some { lbase := r.lbase, va := r.va, ia := ia, len := r.len, write := r.write && w })]))) ∧
    (s.me.loc.map[j.toNat] = none → s.meetsStmap j rec = s.trapStmap j rec) ∧
    (∃ l, exec (.stflush mask) s = .next (f.queued f.copyQueue (.stflush l)) ∧
      ∀ at_ b, (at_, b) ∈ l ↔ ∃ e ∈ f.me.maskedEntries mask, ∃ g ∈ f.me.loc.granules, e.lbase ≤ g.base ∧ g.base < e.lbase + e.len ∧
        ∃ base i, f.me.granuleIa g = some base ∧ i < 4096 ∧ g.dirty.getLsbD i = true ∧ at_ = base + i ∧ b = f.me.loc.lmem.get (g.base + i)) ∧
    (∃ t, exec (.stinv mask) s = .next t ∧ t = s.withMe t.me ∧
      (∀ e ∈ s.me.maskedEntries mask, (∀ g ∈ t.me.loc.granules, g.base < e.lbase ∨ e.lbase + e.len ≤ g.base) ∧
        ∀ x ∈ t.me.loc.stores, x.issue < s.me.issue → x.inEntry e = false) ∧
      t.me.loc.map = s.me.loc.map ∧ t.me.s = s.me.s ∧ t.me.q = s.me.q)

/-- Batches, fences, prefetches, the stash and the bank queue. -/
def Obligations.BatchStashAndBankCommandsAct : Prop := BatchFenceAndBankCommandsQueue ∧ StashControlsAct

/-! ### The bank engines -/

/-- The state in which the current bank engine, and nothing else, has changed. -/
def Sys2Proof.Machine.State.withEng (s : State) (x : Engine) : State := { s with engines := s.engines.set s.curEng.val x }

/-- The current engine as it goes on to its next command word, so many of its cycles later. -/
def Sys2Proof.Machine.Engine.then_ (x : Engine) (n : Nat) : Engine := { x with ptr := x.ptr + 1, cycles := x.cycles + n }

/-- The Crisum commands on registers, segments, loops and accumulators of the current engine; nothing else changes but what a fault or the
program's end does (R298, R299). That a BEND outside every loop goes on to the next word is the model's choice (log 34). -/
def Obligations.EngineCommandsAct : Prop :=
  ∀ (s : State) (g gl : BitVec 4) (a b : BitVec 2) (imm : BitVec 16) (mask : BitVec 4) (fmt : BFmt) (w : BitVec 32),
    let x := s.eng
    let next := fun (y : Engine) => (.next (s.withEng (y.then_ 1)) : Host.Outcome State Fault Refusal)
    let reg := fun (v : BitVec 32) => next { x with g := x.g.set g.toNat v }
    let acc := fun (v : AccSet) => next { x with acc := x.acc.set a.toNat v }
    let f32 := fun (v : BitVec 32) => FFmt.f32.value false v.toNat
    let code := fun (v : Sys2Proof.Machine.Num) => BitVec.ofNat 32 (FFmt.f32.res .rne false v)
    let base := (x.g[g.toNat]).toNat
    let len := (x.g[gl.toNat]).toNat
    let limit := (s.engJob.map (·.ilen)).getD 0
    exec .bnop s = next x ∧
    exec (.bsetrLo g imm) s = reg (imm.setWidth 32) ∧
    exec (.bsetrHi g imm) s = reg (imm ++ (x.g[g.toNat]).setWidth 16) ∧
    exec (.bsetrAdd g imm) s = reg (x.g[g.toNat] + imm.signExtend 32) ∧
    (base % 128 = 0 → len % 128 = 0 → base + len ≤ limit →
      exec (.bseg a g gl) s = next { x with sg := x.sg.set a.toNat { base := base, len := len, pos := 0 } }) ∧
    (base % 128 ≠ 0 ∨ len % 128 ≠ 0 ∨ limit < base + len → exec (.bseg a g gl) s = .next (s.engineEnd s.curEng 2)) ∧
    (x.g[g.toNat] ≠ 0 → exec (.bloop g) s =
      .next (s.withEng { x with ptr := x.ptr + 1, loops := (x.ptr + 1, (x.g[g.toNat]).toNat) :: x.loops })) ∧
    (x.g[g.toNat] = 0 → exec (.bloop g) s = .next (s.withEng { x with ptr := matchingEnd x.cmds 1024 (x.ptr + 1) 0 })) ∧
    (∀ start n rest, x.loops = (start, n) :: rest → 1 < n →
      exec .bend s = .next (s.withEng { x with ptr := start, loops := (start, n - 1) :: rest })) ∧
    (∀ start n rest, x.loops = (start, n) :: rest → n ≤ 1 →
      exec .bend s = .next (s.withEng { x with ptr := x.ptr + 1, loops := rest })) ∧
    (x.loops = [] → exec .bend s = .next (s.withEng { x with ptr := x.ptr + 1 })) ∧
    exec (.bclr mask) s = next { x with acc := Vector.ofFn fun i : Fin 4 => if mask.getLsbD i.val then {} else x.acc[i] } ∧
    exec (.bred a b) s = acc ⟨Vector.ofFn fun l : Fin 64 =>
      code ((f32 (x.acc[a.toNat]).lanes[l]).add false (f32 (x.acc[b.toNat]).lanes[l])), .f32⟩ ∧
    (∃ v : BitVec 32, exec (.bredTree a) s = acc ⟨Vector.ofFn fun l : Fin 64 => if l.val = 0 then v else 0, .f32⟩ ∧
      [v.toNat] = pairTree (fun p q => FFmt.f32.res .rne false ((FFmt.f32.value false p).add false (FFmt.f32.value false q))) 6
        ((x.acc[a.toNat]).lanes.toList.map (·.toNat))) ∧
    exec (.bscl a g) s = acc ⟨(x.acc[a.toNat]).lanes.map fun v => code ((f32 v).mul (f32 x.g[g.toNat])), .f32⟩ ∧
    (let t := match fmt with | .f32 => FFmt.f32 | .bf16 => FFmt.bf16 | .f16 => FFmt.f16
      exec (.bcvt a fmt) s = acc { lanes := (x.acc[a.toNat]).lanes.map fun v => code (t.value false (t.res .rne false (f32 v))), tag := fmt }) ∧
    exec .bhalt s = .next ((s.withEng (x.then_ 1)).engineEnd s.curEng 0) ∧
    exec (.crisumUnassigned w) s = .next (s.engineEnd s.curEng 1)

/-- One beat: it needs 128 bytes of its segment and, for b4, 8 scale bytes of the segment after it, and as many elements of the vector buffer as
it has columns (BSPAN, BVBUF). It adds to each of the 64 lanes, with one rounding, the exact sum of its columns' products rounded once; the
vector index goes on by the columns, and the segments by their bytes. -/
def Sys2Proof.Machine.BeatsAccumulate : Prop :=
  ∀ (s : State) (a sg : BitVec 2) (g : BitVec 4) (ty : BTy) (x : Engine) (bs sc : List Byte) (n : Nat),
    let cols := match ty with | .bf16 => 1 | .e4m3 => 2 | .e5m2 => 2 | .b4 => 4
    let t := x.sg[sg.toNat]
    let u := x.sg[(sg + 1).toNat]
    let v := (x.g[g.toNat]).toNat
    let byte := fun (i : Nat) => (bs.getD i 0).toNat
    let el := fun (i : Nat) => match ty with
      | .bf16 => FFmt.bf16.value false (byte (2 * i) + 256 * byte (2 * i + 1))
      | .e4m3 => FFmt.e4m3.value false (byte i)
      | .e5m2 => FFmt.e5m2.value false (byte i)
      | .b4 => b4Value (sc.getD (i / 32) 0).toNat (byte (i / 2) / 16 ^ (i % 2) % 16) false (.ofNat 1)
    let code := fun (z : Sys2Proof.Machine.Num) => FFmt.f32.res .rne false z
    let val := fun (c : Nat) => FFmt.f32.value false c
    let vec := fun (q : Nat) => FFmt.bf16.value false (natOfBytes (x.vbuf.bytes (2 * (v + q)) 2))
    let scaled := ty = .b4 → u.pos + 8 ≤ u.len ∧ s.engInput (u.base + u.pos) 8 = .ok sc
    (t.pos + 128 ≤ t.len → v + cols ≤ 8192 → s.engInput (t.base + t.pos) 128 = .ok bs → bs.length = 128 → scaled →
      ∃ y, s.beat a sg g ty x = .ok y ∧
        (∀ l : Fin 64, (y.acc[a.toNat]).lanes[l] = BitVec.ofNat 32 (code ((val ((x.acc[a.toNat]).lanes[l]).toNat).add false
          (val (code (dotExact ((List.range cols).map fun q => (el (l.val * cols + q), vec q)))))))) ∧
        (∀ k : Fin 4, k.val ≠ a.toNat → y.acc[k] = x.acc[k]) ∧
        y.g = x.g.set g.toNat (x.g[g.toNat] + BitVec.ofNat 32 cols) ∧
        (ty ≠ .b4 → y.sg = x.sg.set sg.toNat { t with pos := t.pos + 128 }) ∧
        (ty = .b4 → y.sg = (x.sg.set sg.toNat { t with pos := t.pos + 128 }).set (sg + 1).toNat { u with pos := u.pos + 8 }) ∧
        y.vbuf = x.vbuf ∧ y.ptr = x.ptr ∧ y.loops = x.loops) ∧
    (t.len < t.pos + 128 → s.beat a sg g ty x = .error 3) ∧
    (t.pos + 128 ≤ t.len → 8192 < v + cols → s.beat a sg g ty x = .error 4) ∧
    (t.pos + 128 ≤ t.len → v + cols ≤ 8192 → s.engInput (t.base + t.pos) 128 = .ok bs → ty = .b4 → u.len < u.pos + 8 →
      s.beat a sg g ty x = .error 3) ∧
    s.beats a sg g ty 0 x = .ok x ∧
    (∀ y, s.beat a sg g ty x = .ok y → s.beats a sg g ty (n + 1) x = s.beats a sg g ty n y) ∧
    (∀ e, s.beat a sg g ty x = .error e → s.beats a sg g ty (n + 1) x = .error e)

/-- BMAC and BMACN multiply their beats into an accumulator set and step the vector index and the segments; BMACN clears the set first.
BLDV fills the vector buffer from a segment; one whose read faults leaves the buffer as it was (the model's choice, log 34). BOUT sends its
lanes as accesses of the engine and steps the output offset, but holds while the die of the scratchpad it writes is shed; BSIG, once every
BOUT write of the engine has performed, sends one atomic addition to sigctr (R295, R297, R298, R303). -/
def Sys2Proof.Machine.EngineStreams : Prop :=
  ∀ (s : State) (a sg : BitVec 2) (g : BitVec 4) (ty : BTy) (n : BitVec 10) (m : BitVec 6) (j : BankJob) (y : Engine) (bs : List Byte)
    (ia : Nat),
    let x := s.eng
    let cleared : Engine := { x with acc := x.acc.set a.toNat {} }
    let tagged := fun (y : Engine) => { y with acc := y.acc.set a.toNat { y.acc[a.toNat] with tag := .f32 } }
    let v := (x.g[g.toNat]).toNat
    let t := x.sg[sg.toNat]
    let len := 128 * (n.toNat + 1)
    let size := match (x.acc[a.toNat]).tag with | .f32 => 4 | .bf16 => 2 | .f16 => 2
    let out := (m.toNat + 1) * size
    let sig := fun (j : BankJob) (ia : Nat) =>
      ({ owner := .engine s.curEng.val j.id, target := .global ia, op := .amo 0 4 v none, whole := true, requester := j.who
         va := j.args.toNat + 0x34 } : Access)
    (s.beats a sg g ty (n.toNat + 1) x = .ok y → exec (.bmac a sg g ty n) s = .next (s.withEng { tagged y with
      ptr := x.ptr + 1, cycles := (tagged y).cycles + (n.toNat + 1) })) ∧
    (s.beats a sg g ty (n.toNat + 1) cleared = .ok y → exec (.bmacn a sg g ty n) s = .next (s.withEng { tagged y with
      ptr := x.ptr + 1, cycles := (tagged y).cycles + (n.toNat + 1) })) ∧
    (∀ e, s.beats a sg g ty (n.toNat + 1) x = .error e → exec (.bmac a sg g ty n) s = .next (s.engineEnd s.curEng e)) ∧
    (∀ e, s.beats a sg g ty (n.toNat + 1) cleared = .error e → exec (.bmacn a sg g ty n) s = .next (s.engineEnd s.curEng e)) ∧
    (v % 128 = 0 → v + len ≤ 16384 → t.pos + len ≤ t.len → s.engInput (t.base + t.pos) len = .ok bs →
      exec (.bldv g sg n) s = .next (s.withEng (Engine.then_ { x with
        sg := x.sg.set sg.toNat { t with pos := t.pos + len }, g := x.g.set g.toNat (x.g[g.toNat] + BitVec.ofNat 32 len)
        vbuf := x.vbuf.put v bs } (n.toNat + 1)))) ∧
    (v % 128 ≠ 0 ∨ 16384 < v + len → exec (.bldv g sg n) s = .next (s.engineEnd s.curEng 4)) ∧
    (v % 128 = 0 → v + len ≤ 16384 → t.len < t.pos + len → exec (.bldv g sg n) s = .next (s.engineEnd s.curEng 3)) ∧
    (∀ e, v % 128 = 0 → v + len ≤ 16384 → t.pos + len ≤ t.len → s.engInput (t.base + t.pos) len = .error e →
      exec (.bldv g sg n) s = .next (s.engineEnd s.curEng e)) ∧
    (s.engJob = some j → v % size = 0 → v + out ≤ j.olen → s.outHeld j = false →
      (let l := writeAccesses (.engine s.curEng.val j.id) j.who (Mem.put [] 0 ((x.acc[a.toNat]).out (m.toNat + 1)))
        (j.outPieces j.core s.curEng.val v out)
      exec (.bout a g m) s = .next ({ s with accesses := s.accesses ++ l }.withEng
        (Engine.then_ { x with g := x.g.set g.toNat (x.g[g.toNat] + BitVec.ofNat 32 out) } 1)))) ∧
    (s.engJob = some j → v % size = 0 → v + out ≤ j.olen → s.outHeld j = true → exec (.bout a g m) s = .next s) ∧
    (s.engJob = some j → v % size ≠ 0 ∨ j.olen < v + out → exec (.bout a g m) s = .next (s.engineEnd s.curEng 5)) ∧
    (s.engJob = some j → s.outputs s.curEng = false → translate j.wins { w := true } (j.args.toNat + 0x34) = .ok ia →
      exec (.bsig g) s = .next ({ s with accesses := s.accesses ++ [sig j ia] }.withEng (x.then_ 1))) ∧
    (∀ e, s.engJob = some j → s.outputs s.curEng = false → translate j.wins { w := true } (j.args.toNat + 0x34) = .error e →
      exec (.bsig g) s = .next ((s.logJobViolation j e (j.args.toNat + 0x34)).engineEnd s.curEng 7)) ∧
    (s.engJob = some j → s.outputs s.curEng = true → exec (.bsig g) s = .next s)

/-- The streams of an engine: its beats, its vector buffer and its outputs. -/
def Obligations.EngineStreamsAndOutputs : Prop := EngineStreams ∧ BeatsAccumulate

/-! ### The events of a core and of its queues -/

/-- The nullifier: where nothing else is taken at the boundary and the bundle would issue in this sc, a skippable bundle is skipped, and every
fourth one after the fourth of a run costs an sc; one that is not skippable stays (R136, R137, R138; 22 R381, R388). That one which was kept
and then held is not judged again is the model's choice (log 77). -/
def Sys2Proof.Machine.NullifierSkips : Prop :=
  ∀ (s t : State) (b : BitVec 256),
    let l := (decodeBundle b).filter fun sw => sw.instr != .nop
    let free := s.me.status = .running ∧ s.me.shed = false ∧ s.boundary = none ∧ s.me.exhausted = false
    let due := free ∧ s.fetchBundle = .ok (t, b) ∧ (vectorBundle b = true → s.me.vecAligned = true)
    let u := t.withMe { t.me.pass with skipRun := t.me.skipRun + 1 }
    (due → t.skippable b = true → exec .nullifierSkip s = .next (if 4 < u.me.skipRun ∧ u.me.skipRun % 4 = 1 then u.tick u.cur else u)) ∧
    (due → t.skippable b = false → exec .nullifierSkip s = .next s) ∧
    (¬ free → exec .nullifierSkip s = .next s) ∧
    (s.fetchBundle = .ok (t, b) → vectorBundle b = true → s.me.vecAligned = false → exec .nullifierSkip s = .next s) ∧
    (t.skippable b = true ↔ t.me.kept ≠ some t.me.pc ∧ l ≠ [] ∧ ∀ sw ∈ l, sw.guard ≠ 0 ∧ t.me.pPrev[sw.guard.toNat] = false ∧ (∀ c w, sw.instr ≠ .nonInstruction c w) ∧
      (t.me.sys.mode = false → Instr.privileged sw.instr = false)) ∧
    (vectorBundle b = true ↔ ∃ sw ∈ l, sw.slot = .va ∨ sw.slot = .vb ∨ sw.slot = .x) ∧
    (t.me.takesUp = none → t.me.pass = t.me.advance)

/-- The asynchronous traps: PFW before all others, then the older, then the lower cause; a system handler holds back all but a PFW under which
it has issued 512 bundles, whose handler then loses its state, and a user handler the user-class ones. A wait is abandoned, and tbaddr names
the bundle at the pc (R343, R344, R347, R349). That tstat.uh holds the user-class ones back in privileged mode too is the model's choice
(log 48). -/
def Sys2Proof.Machine.TrapsAreDelivered : Prop :=
  ∀ (s : State) (a b : AsyncTrap) (x : Task),
    let y := s.me.sys
    let due := s.me.atBoundary = true ∧ s.me.shed = false ∧ s.me.skipRun = 0
    let u := s.withMe { s.me.abandonWait with sys := { y with asyncs := y.asyncs.erase a } }
    let lost := if y.sh then u.modTask x.va fun t => { t with resumable := false } else u
    let open_ := fun (b : AsyncTrap) => if b.cause = 0x14 then y.sh = false ∨ 512 ≤ y.held else y.sh = false ∧ y.uh = false
    (due → y.nextAsync = some a → a.cause ≠ 0x14 → s.preemptDue = none →
      exec .asyncTrapDelivery s = .next (u.takeTrap s.cur 0 a.cause false a.tinfo0 a.tinfo1 s.me.pc)) ∧
    (due → y.nextAsync = some a → a.cause = 0x14 → s.taskOf s.cur = some x →
      exec .asyncTrapDelivery s = .next (lost.takeTrap s.cur 0 a.cause false a.tinfo0 a.tinfo1 s.me.pc)) ∧
    (due → y.nextAsync = some a → y.sh = true → s.taskOf s.cur = some x →
      exec .pfwHoldExpiry s = .next (lost.takeTrap s.cur 0 0x14 false a.tinfo0 a.tinfo1 s.me.pc) ∧ 512 ≤ y.held) ∧
    (due → y.nextAsync = some a → a.cause ≠ 0x14 → s.preemptDue.isSome = true → exec .asyncTrapDelivery s = .next s) ∧
    (¬ due ∨ y.nextAsync = none → exec .asyncTrapDelivery s = .next s ∧ exec .pfwHoldExpiry s = .next s) ∧
    (y.sh = false → exec .pfwHoldExpiry s = .next s) ∧
    (y.nextAsync = some a → a ∈ y.asyncs ∧ open_ a) ∧
    (y.nextAsync = some a → b ∈ y.asyncs → open_ b → (b.cause = 0x14 → a.cause = 0x14) ∧
      ((a.cause = 0x14 ↔ b.cause = 0x14) → a.since ≤ b.since ∧ (a.since = b.since → a.cause ≤ b.cause))) ∧
    (y.nextAsync = none → b ∈ y.asyncs → ¬ open_ b)

/-- The PFW handler's budget: with no bundle left its core stops as by PFACK, waiting or not, and the log says so (R352). -/
def Sys2Proof.Machine.HandlerBudgetEnds : Prop :=
  ∀ (s : State),
    let due := s.me.atBoundary = true ∧ s.me.sys.inPfw = true ∧ s.me.sys.pfbud = 0
    (due → exec .pfbudExhausted s = .next
      (((s.withMe { s.me with status := .stopped, pc := s.me.sys.tbaddr, jump := none }).delivering 1 [.rte]).logCore s.cur 0 2 0x14)) ∧
    (¬ due → exec .pfbudExhausted s = .next s)

/-- The end of a wait: where its condition is seen true and no trap comes first, what it leaves behind takes effect and the bundle after it
issues; a barrier is over once every core of the hoop has arrived (R155, R159, R162). -/
def Sys2Proof.Machine.WaitsEnd : Prop :=
  ∀ (s t : State) (w v : Wait) (k : Nat),
    let due := s.me.sys.nextAsync = none ∧ s.me.shed = false
    let ended := fun (t : State) => (t.withMe { t.me with status := .running, pc := t.me.waitNext, delay := 1 }).ticks t.cur t.me.delay
    (s.me.status = .waiting w → due → s.look s.cur w = (t, .ok (true, v)) → exec .waitSatisfied s = .next (t.satisfy t.cur v).endWait) ∧
    (s.me.status = .waiting (.hoop k) → due → s.hoopArrived s.cur k = true →
      exec .waitSatisfied s = .next (ended s) ∧ exec .hbarComplete s = .next (ended s)) ∧
    (s.me.status = .waiting .drain → due → s.me.drained = true → exec .waitSatisfied s = .next (ended s)) ∧
    (s.me.status = .waiting w → s.look s.cur w = (t, .ok (false, v)) → exec .waitSatisfied s = .next s ∧ exec .hbarComplete s = .next s) ∧
    (∀ r, s.me.status = .waiting w → s.look s.cur w = (t, .error r) → exec .waitSatisfied s = .next s) ∧
    (¬ due ∨ (∀ w, s.me.status ≠ .waiting w) → exec .waitSatisfied s = .next s ∧ exec .hbarComplete s = .next s) ∧
    ((∀ k, s.me.status ≠ .waiting (.hoop k)) → exec .hbarComplete s = .next s) ∧
    (t.me.status = .waiting v → t.endWait = ended t)

/-- A pre-emption that is asked for is taken at once where every core of the task stands at a boundary that allows it, and at the first that
does otherwise; a SPAWNW that has waited 4,096 sc gives up its place, a wait past its threshold does where the task or its region allows it,
and YIELD asks for one where a Ready task of this level or above would fit the hoop (R37, R41, R161, R365, R367). That its rival must fit the hoop's own cores is log 42, when a
boundary allows it log 60. -/
def Sys2Proof.Machine.HoopsAreGivenUp : Prop :=
  ∀ (s : State) (x : Task) (r : Region) (w : Wait) (child : Word) (n i : Nat),
    let left := x.kind ≠ 0 ∨ x.state ≠ .running ∨ x.preempt.isSome = true ∨ s.leaving x = true ∨ s.halted x = true
    let late := 4096 ≤ (s.me.tick - s.me.waitSince) / s.me.scTicks
    let thr := (if r.wyThr = 0 then 100 else r.wyThr) * usTicks
    let rival := ∃ r ∈ s.tasks, r.kind = 0 ∧ r.queued = true ∧ s.level x ≤ s.level r ∧ (s.region r.region).isSome = true ∧
      (s.findHoop r x.cores.contains x.cores).isSome = true
    (s.taskOf s.cur = some x → s.hib.state = .run → s.me.shed = false → s.me.status = .waiting (.spawn child) → late →
      exec .spawnwConversion s = .next (s.requestPreempt x preemptSpawn)) ∧
    (s.me.status = .waiting (.spawn child) → ¬ late → exec .spawnwConversion s = .next s) ∧
    ((∀ child, s.me.status ≠ .waiting (.spawn child)) ∨ s.taskOf s.cur = none ∨ s.hib.state ≠ .run ∨ s.me.shed = true →
      exec .spawnwConversion s = .next s) ∧
    (s.taskOf s.cur = some x → s.region x.region = some r → s.me.status = .waiting w → s.me.shed = false → s.hib.state = .run →
      x.waitYield = true ∨ r.wy = true → s.me.waitSince + thr < s.now → exec .waitYield s = .next (s.requestPreempt x preemptWait)) ∧
    (s.taskOf s.cur = some x → s.region x.region = some r → (x.waitYield = false ∧ r.wy = false) ∨ s.now ≤ s.me.waitSince + thr →
      exec .waitYield s = .next s) ∧
    (s.taskOf s.cur = none ∨ (∀ w, s.me.status ≠ .waiting w) ∨ s.me.shed = true ∨ s.hib.state ≠ .run → exec .waitYield s = .next s) ∧
    (s.taskOf s.cur = some x → rival → exec .yield s = .next (s.modTask x.va fun t => { t with preempt := some preemptYield })) ∧
    (s.taskOf s.cur = some x → ¬ rival → exec .yield s = .next s) ∧
    (s.taskOf s.cur = none → exec .yield s = .next s) ∧
    (left → s.requestPreempt x n = s) ∧
    (¬ left → s.mayPreempt x n = true → s.requestPreempt x n = s.preemptNow x n) ∧
    (¬ left → s.mayPreempt x n = false → s.requestPreempt x n =
      x.cores.foldl (fun s c => s.refreshArray (clusterOf c)) (s.modTask x.va fun t => { t with preempt := some n })) ∧
    (s.converting x = some (i, child) → s.preemptNow x preemptSpawn = (s.convert x i child).flushCharges x.region) ∧
    (n ≠ preemptSpawn ∨ s.converting x = none → s.preemptNow x n = ((s.chargeTask x).preempted x n).flushCharges x.region)

/-- The spawn-wait list: every waiter that has not ended is retried, one whose retry would have been taken before all others and then in the
order of joining; a child that is taken makes its parent Ready, one that fails its checks or meets a violation kills it (R367). That a child
which could be taken is left where its parent would have no ready entry, and is then retried first, is the model's choice (log 37). -/
def Sys2Proof.Machine.SpawnWaitersAreRetried : Prop :=
  ∀ (s u v : State) (x : Task) (c : Word) (wins : Vector Window 8) (r : Submission),
    (s.hib.state = .run → exec .spawnWaitRetry s = .next (s.spawnWaiters.foldl
      (fun t p => if (t.task p.1.va).isSome = true ∧ t.task p.2 = none then t.retrySpawn p.1 p.2 else t) s)) ∧
    (s.hib.state ≠ .run → exec .spawnWaitRetry s = .next s) ∧
    ((x, c) ∈ s.spawnWaiters ↔ x ∈ s.tasks ∧ x.state = .spawnWait c) ∧
    s.spawnWaiters.Pairwise (fun p q => (q.1.retryFirst = true → p.1.retryFirst = true) ∧
      (p.1.retryFirst = q.1.retryFirst → p.1.readySeq ≤ q.1.readySeq)) ∧
    (s.winset x.region = (u, wins) → u.submit c (u.forTask x) wins x.region (some x.va) = (v, r) →
      (r = .accepted → v.readyRoom = true → s.retrySpawn x c = v.makeReady x.va .preempted) ∧
      (r = .accepted → v.readyRoom = false → s.retrySpawn x c = u.modTask x.va fun t => { t with retryFirst := true }) ∧
      (r = .lacking → s.retrySpawn x c = v) ∧
      (∀ code, r = .failed code → s.retrySpawn x c = (v.logModule c.toNat x.va 2 causeFatal).killParent x code c) ∧
      (∀ cls addr, r = .violation cls addr → s.retrySpawn x c = (v.logModuleViolation cls addr x.va).killParent x cls c))

/-- A trap whose slot word encodes no instruction of its slot, and XINV in privileged mode: ILLEGAL or PRIV with the word, and cached
translations of the ranges gone. -/
def Sys2Proof.Machine.NonInstructionsTrap : Prop :=
  ∀ (s : State) (cls : SlotClass) (w : BitVec 32) (i l : BitVec 5),
    let ia := (s.me.rs i).toNat % 2 ^ 56
    (∃ cause, exec (.nonInstruction cls w) s = .next (s.raise (.trap cause (w.setWidth 64) 0)) ∧
      (s.me.sys.mode = true → cause = 1) ∧ (cause = 1 ∨ cause = 2)) ∧
    (s.me.sys.mode = true → s.onModule ia = true → ∃ tlb, exec (.xinv i l) s = .next { s with trans := { s.trans with tlb := tlb } } ∧
      (s.me.rs l = 0 → tlb = []) ∧
      ∀ p, p ∈ tlb ↔ p ∈ s.trans.tlb ∧ s.me.rs l ≠ 0 ∧
        ((cachedRange p.1 + 1) * 2 ^ 21 ≤ iaLocal ia ∨ iaLocal ia + (s.me.rs l).toNat ≤ cachedRange p.1 * 2 ^ 21)) ∧
    (s.me.sys.mode = true → s.onModule ia = false → s.isTrained (iaModule ia) = true → exec (.xinv i l) s = .next s) ∧
    (s.me.sys.mode = true → s.onModule ia = false → s.isTrained (iaModule ia) = false →
      exec (.xinv i l) s = .next (s.raise (.violation 9 ia)))

/-- What happens to a core between and instead of instructions. -/
def Obligations.CoreEventsAct : Prop :=
  NullifierSkips ∧ TrapsAreDelivered ∧ HandlerBudgetEnds ∧ WaitsEnd ∧ HoopsAreGivenUp ∧ SpawnWaitersAreRetried ∧ NonInstructionsTrap

/-- The next command of a queue starts: a copy queue's, the array's, the decoder's, and a joining entry performs once every command before it
in every named queue is complete (R107, R109, R238, R252). Where a queue has none to start nothing changes, and on a core that sleeps, its die
shed or the module past QUIESCE, only an MREL marker performs (R436). -/
def Sys2Proof.Machine.QueueCommandsStart : Prop :=
  ∀ (s : State) (q : QueueId) (x : Cmd),
    let c := s.cur
    (s.asleep c = false ∨ x.kind = .mrel → s.me.nextCmd q = some x →
      (q = .ca ∨ q = .cb → exec (.queueCommandStart q) s = .next ((s.startCopy c q x).refreshArray (clusterOf c))) ∧
      (q = .m → exec (.queueCommandStart q) s = .next ((s.startMatrix c x).refreshArray (clusterOf c))) ∧
      (q = .dec → exec (.queueCommandStart q) s = .next (s.startDecoder c x)) ∧
      (∀ id, q = .bank → x.kind = .qfence id → exec (.queueCommandStart q) s = .next (if s.me.fenceMet id then s.setPerformed c x.id else s)) ∧
      (q = .bank → (∀ id, x.kind ≠ .qfence id) → exec (.queueCommandStart q) s = .next s)) ∧
    (s.asleep c = false → s.me.nextCmd .m = some x → x.kind = .mzero → s.me.slotsFilled x = true →
      exec (.queueCommandStart .m) s = .next ((s.withMe ({ s.me with mx := { s.me.mx with
        plane := Vector.replicate 16384 0, check := Vector.replicate 16384 0, chk := true } }.modCmd x.id fun y =>
          { y with phase := .performed })).refreshArray (clusterOf c))) ∧
    (s.me.nextCmd .m = some x → x.kind = .mrel → s.me.slotsFilled x = true → exec (.queueCommandStart .m) s =
      .next ((s.withMe (s.me.modCmd x.id fun y => { y with phase := .performed })).refreshArray (clusterOf c))) ∧
    (s.asleep c = true → s.me.nextCmd q = some x → x.kind ≠ .mrel → exec (.queueCommandStart q) s = .next s) ∧
    (s.me.nextCmd q = none → exec (.queueCommandStart q) s = .next s)

/-- A command that has performed leaves its queue, a COPYH in the order of its handle's reservations (R213, R214; that it stays there until
those before it have left is the model's choice, log 30); a CBATCH leaves with its
batch, whose increments are applied and whose failure takes effect where no record reports it (R77, R205, R206). -/
def Sys2Proof.Machine.QueueCommandsComplete : Prop :=
  ∀ (s : State) (q : QueueId) (k num : Nat) (x : Cmd) (b : Batch) (va : Option Word) (v : BitVec 32) (cn : Bool) (l : List Cmd),
    let c := s.cur
    let leaves := (∀ n y z w, x.kind ≠ .cbatch n y z w) ∧ (∀ n y z w, x.kind ≠ .bkcmd n y z w) ∧ (∀ n y z, x.kind ≠ .bkvec n y z)
    ((s.me.q.get q)[k]? = some x → x.phase = .performed → s.me.reservedBefore x = false → leaves →
      exec (.queueCommandComplete q k) s = .next (s.retireCmd c q x)) ∧
    ((s.me.q.get q)[k]? = some x → x.phase ≠ .performed ∨ s.me.reservedBefore x = true ∨ ¬ leaves →
      exec (.queueCommandComplete q k) s = .next s) ∧
    ((s.me.q.get q)[k]? = none → exec (.queueCommandComplete q k) s = .next s) ∧
    (let t := s.withMe (s.me.dropCmd x.id);
      s.me.q.get q = x :: l → x.kind = .cbatch num va v cn → x.phase = .performed →
        (t.me.q.batch (q == .cb) num = some b →
          (let u := (t.applyBatch c b).modCore c fun y => y.dropBatch b.cb b.num;
            exec (.batchComplete q) s = .next (if va.isSome then u else u.resolveBatch c b))) ∧
        (t.me.q.batch (q == .cb) num = none → exec (.batchComplete q) s = .next t)) ∧
    (s.me.q.get q = x :: l → x.phase ≠ .performed ∨ (∀ n y z w, x.kind ≠ .cbatch n y z w) → exec (.batchComplete q) s = .next s) ∧
    (s.me.q.get q = [] → exec (.batchComplete q) s = .next s)

/-- A home performs what reaches it: an access of the module's own queues and engines, in parts or whole; a request of a peer while the
module answers its peers, or of the supervisor complex while that runs: a read or a write within one line, after the recall of the line, where
the page admits it; one of the supervisor complex that the page refuses is logged; and a peer's home recalls the granules of its lines while
the module answers its peers (R90, R97, R102, R104; 21 R375; 23 R401). -/
def Sys2Proof.Machine.HomesPerform : Prop :=
  ∀ (s : State) (i off len n : Nat) (ans : PeerAnswer) (a : Access) (ia : BitVec 56) (bs : List Byte) (req : Incoming) (w : Bool) (p : Page)
    (who : Requester),
    let t := s.performPending i off len ans
    (∀ cl, s.accesses[i]? = some a → ownerCluster a.owner = some cl → exec (.homeAccess (.pending i off len ans)) s = .next (t.refreshArray cl)) ∧
    (s.accesses[i]? = some a → ownerCluster a.owner = none → exec (.homeAccess (.pending i off len ans)) s = .next t) ∧
    (s.accesses[i]? = none → exec (.homeAccess (.pending i off len ans)) s = .next s) ∧
    (s.answersPeers = true ↔ s.powered = true ∧ (s.hib.state = .run ∨ s.hib.state = .warn)) ∧
    (s.answersPeers = true → exec (.homeAccess (.fromPeer ia req)) s = .next (s.performIncoming .peer ia.toNat req)) ∧
    (s.answersPeers = false → exec (.homeAccess (.fromPeer ia req)) s = .next s) ∧
    (s.supStopped = false → exec (.homeAccess (.fromSupervisor ia req)) s = .next (s.performIncoming .module ia.toNat req)) ∧
    (s.supStopped = true → exec (.homeAccess (.fromSupervisor ia req)) s = .next s) ∧
    (s.onModule ia.toNat = true → s.isHeld (iaLocal ia.toNat) = false → s.checkPage who (s.page (iaLocal ia.toNat)) = .ok p →
      (ia.toNat % 128 + bs.length ≤ 128 →
        s.performIncoming who ia.toNat (.write bs) = (s.reach who p ia.toNat bs.length 0 true).homeWrite who p ia.toNat bs) ∧
      (ia.toNat % 128 + n ≤ 128 →
        s.performIncoming who ia.toNat (.read n) = (s.reach who p ia.toNat n 0 false).recall (some p) ia.toNat false)) ∧
    (∀ cls, s.onModule ia.toNat = true → s.isHeld (iaLocal ia.toNat) = false → s.checkPage .module (s.page (iaLocal ia.toNat)) = .error cls →
      ia.toNat % 128 + n ≤ 128 → s.performIncoming .module ia.toNat (.read n) = s.logModuleViolation cls ia.toNat 0) ∧
    (s.onModule ia.toNat = false → s.answersPeers = true → exec (.homeAccess (.peerRecall ia w)) s = .next (s.peerRecall ia.toNat w)) ∧
    (s.onModule ia.toNat = true ∨ s.answersPeers = false → exec (.homeAccess (.peerRecall ia w)) s = .next s)

/-- A stalled core's granule is filled once its own loads and stores have performed, from its home or by a peer's answer, or the fill meets the
violation that the page gives (R89, R97, R101). -/
def Sys2Proof.Machine.StashFills : Prop :=
  ∀ (s t : State) (g : Nat) (e : StashEntry) (p : Page) (ans : PeerAnswer) (bs : List Byte) (cls : Nat),
    let c := s.cur
    let ia := e.ia + (g - e.lbase)
    let due := s.me.status = .filling g ∧ s.me.loc.loads = [] ∧ s.me.loc.stores = [] ∧ s.me.stashEntry g = some e
    let filled := fun (x : Core) (bs : List Byte) => ({ x with status := .running, loc := { x.loc with
      lmem := (x.loc.lmem.clear g 4096).put g bs, granules := x.loc.granules ++ [{ base := g, dirty := 0 }] } } : Core)
    (due → s.onModule ia = true → s.isHeld (iaLocal ia) = false →
      (s.checkPage (.core c) (s.page (iaLocal ia)) = .ok p → p.bank = false → (s.reach (.core c) p ia 4096 0 false).readGranule p ia = (t, bs) →
        exec (.stashFillComplete ans) s = .next (t.modCore c fun x => filled x bs)) ∧
      (s.checkPage (.core c) (s.page (iaLocal ia)) = .ok p → p.bank = true → exec (.stashFillComplete ans) s = .next (s.violation c 3 ia s.me.pc)) ∧
      (s.checkPage (.core c) (s.page (iaLocal ia)) = .error cls → exec (.stashFillComplete ans) s = .next (s.violation c cls ia s.me.pc))) ∧
    (due → s.onModule ia = true → s.isHeld (iaLocal ia) = true → exec (.stashFillComplete ans) s = .next s) ∧
    (due → s.onModule ia = false → s.isTrained (iaModule ia) = true →
      (ans = .ok bs → bs.length = 4096 → exec (.stashFillComplete ans) s = .next (s.withMe (filled s.me bs))) ∧
      (ans = .hibernating → exec (.stashFillComplete ans) s = .next (s.violation c 10 ia s.me.pc)) ∧
      (ans = .refused → exec (.stashFillComplete ans) s = .next (s.violation c 11 ia s.me.pc))) ∧
    (due → s.onModule ia = false → s.isTrained (iaModule ia) = false → exec (.stashFillComplete ans) s = .next (s.violation c 9 ia s.me.pc)) ∧
    (s.me.status = .filling g → s.me.loc.loads ≠ [] ∨ s.me.loc.stores ≠ [] → exec (.stashFillComplete ans) s = .next s) ∧
    ((∀ g, s.me.status ≠ .filling g) → exec (.stashFillComplete ans) s = .next s)

/-- A paused decoder goes on with its chunk once a slot of its FIFO is free: the slots that h15 held at the issue of the DECOMP (R55, R238). -/
def Sys2Proof.Machine.DecodersResume : Prop :=
  ∀ (s : State) (x : Cmd) (d i : TdWord) (l : List Nat) (n : Nat) (y z : Handle),
    (s.asleep s.cur = false → (s.me.q.dec.find? fun k => k.phase == .suspended) = some x → x.kind = .decomp d i (some l) n y →
      s.me.fifo x = some z →
      (z.free ≠ 0 → exec .decoderResume s = .next (s.chunkFill s.cur x d l n)) ∧ (z.free = 0 → exec .decoderResume s = .next s)) ∧
    (s.asleep s.cur = true ∨ (∀ k ∈ s.me.q.dec, k.phase ≠ .suspended) → exec .decoderResume s = .next s) ∧
    (x.kind = .decomp d i (some l) n y → s.me.handles[15] = some z →
      ((z.base = y.base ∧ z.slotBytes = y.slotBytes ∧ z.slotCount = y.slotCount) → s.me.fifo x = some z) ∧
      (¬ (z.base = y.base ∧ z.slotBytes = y.slotBytes ∧ z.slotCount = y.slotCount) → s.me.fifo x = some y))

/-- The events of a core's queues and of memory. -/
def Obligations.QueueEventsAct : Prop := QueueCommandsStart ∧ QueueCommandsComplete ∧ HomesPerform ∧ StashFills ∧ DecodersResume

/-- The arbiter grants a free array to the next contender, and a pass of its holder performs: its grant goes on or ends, and its next step
begins (R249, R250, R283). -/
def Sys2Proof.Machine.ArrayEventsAct : Prop :=
  ∀ (s : State) (c : CoreId) (k : Cmd) (g : Grant) (i : Nat) (ans : PeerAnswer) (a : Access),
    let cl := clusterOf s.cur
    ((s.cluster cl).grant = none → s.nextHolder cl = some c → exec .arrayGrant s =
      .next (({ s with clusters := s.clusters.set cl.val (
        { s.cluster cl with grant := some { holder := c, cmdsLeft := if (s.core c).carries then 15 else 16, cycles := 0 } } : Cluster)
        } : State).stepStarts c)) ∧
    ((s.cluster cl).grant.isSome = true ∨ s.nextHolder cl = none → exec .arrayGrant s = .next s) ∧
    (let u := (s.runPass g.holder k).afterPass cl g.holder k
      let v := match u.cmdBy g.holder k.id with
        | some y => if y.phase == Phase.writing && !u.outstanding (cmdOwner g.holder .m k.id) then u.setPerformed g.holder k.id else u
        | none => u
      (s.cluster cl).grant = some g → (s.core g.holder).mHead = some k → k.phase = .reading → s.readyPass g.holder = true →
        exec .arrayPassComplete s = .next ((if v.granted g.holder then v.stepStarts g.holder else v).refreshArray cl)) ∧
    ((s.cluster cl).grant = some g → (s.core g.holder).mHead = some k → k.phase ≠ .reading ∨ s.readyPass g.holder = false →
      exec .arrayPassComplete s = .next s) ∧
    ((s.cluster cl).grant = none → exec .arrayPassComplete s = .next s) ∧
    (s.mmarPending s.cur = some (k, i) → s.accesses[i]? = some a →
      exec (.mmarFetchReturn ans) s = .next ((s.performPending i 0 a.op.size ans).refreshArray cl) ∧
      exec .mmarFetchTimeout s = .next (if k.sub + 100 * usTicks ≤ s.now then (s.suspendMmar s.cur k 0 a).refreshArray cl else s)) ∧
    (s.mmarPending s.cur = none → exec (.mmarFetchReturn ans) s = .next s ∧ exec .mmarFetchTimeout s = .next s)

/-- The bank sequencer: a core's next bank-queue command is accepted once it may start; its program and argument block are read, checked and
loaded, or its broadcast made, or it runs on no engine; and once every engine of its set has ended it completes with its record, or with a
trap of its fault where it has none (R116, R222, R223, R290, R300, R301). -/
def Sys2Proof.Machine.BankEventsAct : Prop :=
  ∀ (s t : State) (k : Cmd) (j y : BankJob),
    let next := s.me.q.bank.find? fun k => k.phase == .queued
    let mayStart := s.asleep s.cur = false ∧ (earlier s.me.q.bank k).any (·.kind.isFence) = false ∧ s.bankReady s.cur k = true
    let u : State := { s with jobs := s.jobs ++ [j], nextJob := s.nextJob + 1 }
    let startable := s.job s.subj = some j ∧ j.started = false ∧ s.outstanding (.job j.id) = false ∧
      (j.engines.any fun e => s.migChannels.contains e) = false
    (next = some k → s.jobOf s.cur k = some j →
      (mayStart → j.vec = none → exec .bankCommandAccept s =
        .next (u.withMe (s.me.modCmd k.id fun k => { k with phase := .reading }))) ∧
      (∀ o, mayStart → j.vec = some o → s.jobHeld j = false → exec .bankCommandAccept s =
        .next (((u.pieces s.cur k.wins { r := true } o).foldl (fun (t : State) p => t.vecRead s.cur k j.id p) u).modCmd s.cur k.id
          fun k => { k with phase := .reading })) ∧
      (¬ mayStart ∨ (j.vec.isSome = true ∧ s.jobHeld j = true) → exec .bankCommandAccept s = .next s)) ∧
    (next = none → exec .bankCommandAccept s = .next s) ∧
    (startable → j.vec = none → s.jobHeld j = false →
      (s.checkJob j = (t, .ok y) → s.jobHeld y = false → exec .bankProgramStart s = .next ((t.modJob j.id fun _ => y).enginesNext j.engines)) ∧
      (s.checkJob j = (t, .ok y) → s.jobHeld y = true → exec .bankProgramStart s = .next s) ∧
      (∀ f, s.checkJob j = (t, .error f) → exec .bankProgramStart s = .next (t.refuseJob j f))) ∧
    (startable → j.vec = none → s.jobHeld j = true → exec .bankProgramStart s = .next s) ∧
    (startable → j.vec.isSome = true →
      (j.fail = none → exec .bankProgramStart s = .next ((s.modJob j.id fun j => { j with started := true }).enginesNext j.engines)) ∧
      (∀ f, j.fail = some f → exec .bankProgramStart s = .next (s.refuseJob j (some f)))) ∧
    (s.job s.subj = some j → ¬ startable → exec .bankProgramStart s = .next s) ∧
    (s.job s.subj = some j → s.jobDone j = true →
      (j.vec.isSome = true ∨ (j.cva = 0 ∧ j.fault = none) → exec .bankProgramComplete s = .next (s.endJob j)) ∧
      (∀ e code, j.vec = none → j.cva = 0 → j.fault = some (e, code) →
        exec .bankProgramComplete s = .next ((s.trapJob j j.prog (BitVec.ofNat 64 (e * 256 + code))).endJob j)) ∧
      (∀ cls, j.vec = none → j.cva ≠ 0 → translate j.wins { w := true } j.cva = .error cls →
        exec .bankProgramComplete s = .next ((s.jobFatal j cls j.cva).endJob j)) ∧
      (∀ ia bs, j.vec = none → j.cva ≠ 0 → translate j.wins { w := true } j.cva = .ok ia →
        (s.performGlobal j.who 0 ia (.write (bankRecord j)) (.ok []) = some (.ok (t, bs)) →
          exec .bankProgramComplete s = .next (t.endJob j)) ∧
        (∀ f, s.performGlobal j.who 0 ia (.write (bankRecord j)) (.ok []) = some (.error f) →
          exec .bankProgramComplete s = .next ((s.jobFatal j f.1 f.2).endJob j)) ∧
        (s.performGlobal j.who 0 ia (.write (bankRecord j)) (.ok []) = none → exec .bankProgramComplete s = .next s))) ∧
    (s.job s.subj = some j → s.jobDone j = false → exec .bankProgramComplete s = .next s) ∧
    (s.job s.subj = none → exec .bankProgramStart s = .next s ∧ exec .bankProgramComplete s = .next s)

/-- The events of the array and of the bank sequencer. -/
def Obligations.ArrayAndBankEventsAct : Prop := ArrayEventsAct ∧ BankEventsAct

/-! ### Strand leases and the fabric -/

/-- LEASE, LREL and LRENEW put a request for the lease engine behind those that stand there, with their core's task, region, level and lstat
word; LQRY delivers its word sixteen sc later; offsets of which not exactly one is zero, and a region without a strand budget, raise LEASEDENY. -/
def Obligations.LeaseInstructionsAsk : Prop :=
  ∀ (s : State) (drow dcol : BitVec 4) (n : BitVec 6) (dur : BitVec 3) (status d : BitVec 5),
    let direct := (drow = 0 ∧ dcol ≠ 0) ∨ (drow ≠ 0 ∧ dcol = 0)
    let asked := fun (op n dur : Nat) => (.next { s with leaseReqs := s.leaseReqs ++ [{
        core := s.cur, task := s.me.ctl.taskid, region := s.me.ctl.region.toNat, level := ((s.taskOf s.cur).map s.level).getD 0, op := op
        drow := drow, dcol := dcol, n := n, dur := dur, status := s.statusTarget status
        event := if s.me.ctl.lstat = 0 then none else some (s.wordTarget s.me.ctl.lstat.toNat) }] } : Host.Outcome State Fault Refusal)
    (direct → s.statusFails status = none → n ≠ 0 → dur ≠ 7 → (∃ r, s.regionOf s.cur = some r ∧ r.strands ≠ 0) →
      exec (.lease drow dcol n dur status) s = asked 0 n.toNat (durationTicks dur)) ∧
    (direct → s.statusFails status = none → exec (.lrel drow dcol n status) s = asked 1 n.toNat 0) ∧
    (direct → s.statusFails status = none → dur ≠ 7 → exec (.lrenew drow dcol dur status) s = asked 2 0 (durationTicks dur)) ∧
    (direct → exec (.lqry drow dcol d) s =
      .next (s.delivering 16 [.s d (BitVec.ofNat 64 (s.queryLease s.me.ctl.taskid drow dcol))])) ∧
    (¬direct → s.statusFails status = none → n ≠ 0 → dur ≠ 7 →
      let out : Host.Outcome State Fault Refusal := .next (s.raise (.trap 0x09 1 0))
      exec (.lease drow dcol n dur status) s = out ∧ exec (.lrel drow dcol n status) s = out ∧
      exec (.lrenew drow dcol dur status) s = out ∧ exec (.lqry drow dcol d) s = out) ∧
    (direct → n ≠ 0 → dur ≠ 7 → (∀ r, s.regionOf s.cur = some r → r.strands = 0) →
      exec (.lease drow dcol n dur status) s = .next (s.raise (.trap 0x09 2 0))) ∧
    (n = 0 ∨ dur = 7 → exec (.lease drow dcol n dur status) s = .next (s.raise s.illegal)) ∧
    (dur = 7 → exec (.lrenew drow dcol dur status) s = .next (s.raise s.illegal))

/-- The lease engine: the oldest request is taken up; a notice that has ended sends its strands on; a strand lands where it moves; a request
that has waited 200 µs takes up to four strands of the largest peer, default ones first; a lease that expires leaves with its pending strands.
Strands that leave set out at a flit boundary: when the last flit on their wires has completed. Before its time, and where there is nothing to do, an event changes nothing (R311, R315-R317). -/
def Sys2Proof.Machine.LeaseEventsAct : Prop :=
  ∀ (s t : State) (r : LeaseReq) (rest : List LeaseReq) (i : StrandId) (l : Lease) (u : StrandUse) (id peer n q : Nat) (ids : List StrandId),
    let a := s.alloc[i.val]
    (s.leaseReqs = r :: rest → exec .leaseAccept s = .next (
      let t := { s with leaseReqs := rest }
      if r.op = 0 then t.admitLease r else if r.op = 1 then t.releaseLease r else t.renewLease r)) ∧
    (s.leaseReqs = [] → exec .leaseAccept s = .next s) ∧
    (s.subj = i.val → a.use = .lease id peer → a.notice = some (u, n) → n ≤ s.now →
      let ids := s.accrue.strandsWhere fun a => a.use == .lease id peer && a.notice == some (u, n)
      let left := s.accrue.departStrands ids
      let m := left.modAllocs ids fun a => { a with use := .pool, moving := some (u, left.clearTick ids + retuneTicks), notice := none }
      exec .leaseNoticeEnd s = .next (((m.lease id).elim m fun v => m.leaseEvent v 3 ids.length).sweepLeases)) ∧
    (s.subj = i.val → a.notice = none ∨ (∀ id peer, a.use ≠ .lease id peer) ∨ (a.notice = some (u, n) ∧ s.now < n) →
      exec .leaseNoticeEnd s = .next s) ∧
    (s.subj = i.val → a.moving = some (u, n) → n ≤ s.now → exec .strandRetuneDone s = .next (
      s.land u (s.strandsWhere fun b => b.moving == some (u, n) && b.floorGrant == a.floorGrant) a.floorGrant)) ∧
    (s.subj = i.val → a.moving = none ∨ (a.moving = some (u, n) ∧ s.now < n) → exec .strandRetuneDone s = .next s) ∧
    (let due := s.leases[s.subj]? = some l ∧ l.starved = false ∧ l.got = 0 ∧ s.want l ≠ 0 ∧ l.acceptedAt + 200 * usTicks ≤ s.now
      let big := s.largest ((otherPeers l.peer).filter s.starvable)
      let m := s.modLease l.id fun l => { l with starved := true }
      let need := min (min (min (s.want l) 4) (64 - s.committed l.peer)) (s.aboveFloor q)
      let w := t.claim l true ids;
      (due → big = some q → m.pick need (m.defaults q) = (t, ids) → exec .leaseStarvationGrant s = .next
        (((w.leases.filter fun v => v.peer == q).foldr insertVictim []).foldl (fun (x : State × Nat) v =>
          (if min x.2 (x.1.freeOf v).length = 0 then x.1 else x.1.notify v l (min x.2 (x.1.freeOf v).length) true,
            x.2 - min x.2 (x.1.freeOf v).length)) (w, need - ids.length)).1) ∧
      (due → big = none → exec .leaseStarvationGrant s = .next s) ∧
      (s.leases[s.subj]? = some l → ¬ due → exec .leaseStarvationGrant s = .next s)) ∧
    (let m := s.accrue
      let gone := m.held l.id + m.retuning l.id
      let v := { m with leases := m.leases.filter fun x => x.id != l.id }.leaveLeases (m.leaseStrands l.id)
      let w := if gone = 0 then v else v.leaseEvent l 4 gone;
      (s.leases[s.subj]? = some l → l.expiry = some n → n ≤ s.now →
        exec .leaseExpiry s = .next (if 0 < l.ungranted then w.leaseStatus l 3 6 else w))) ∧
    (s.leases[s.subj]? = some l → l.expiry = none ∨ (l.expiry = some n ∧ s.now < n) → exec .leaseExpiry s = .next s) ∧
    (s.leases[s.subj]? = none → exec .leaseStarvationGrant s = .next s ∧ exec .leaseExpiry s = .next s) ∧
    s.now ≤ s.clearTick ids ∧ (∀ i ∈ ids, (s.strands[i.val]).flying = true → (s.strands[i.val]).qdAt ≤ s.clearTick ids)

/-- A packet comes to the buffer of its class and channel and the buffers send: it joins the queue of one strand of its next hop, or waits where
none can take it, their buffers all full; a queue that so reaches its strand's threshold while a channel is parked asks for a wake. On a minimal hop VC-first comes before VC-second; only its source module detours a packet, and one in transit takes a
minimal hop; nothing but buffers, queues and the count of open choices changes (R305, R307-R309). -/
def Sys2Proof.Machine.PacketsTravel : Prop :=
  ∀ (s t : State) (row col : BitVec 4) (flits p : Nat) (response : Bool) (via : Option (Fin 30 × VChan)) (i : StrandId) (is : List StrandId),
    let k : Packet := { row := row.toNat, col := col.toNat, flits := flits, response := response, via := via.map fun v => (v.1.val, v.2) }
    let u := { s with packets := s.packets ++ [k] }
    let z := (t.strands[i.val]).upTo (t.flow i) t.now
    let reached := z.wth ≠ 0 ∧ z.wth.toNat ≤ z.qd + flits ∧ (z.carry ≠ 0xFF ∨ z.amask ≠ 0xFF)
    let x : Strand := { z with
      qd := z.qd + flits, qdAt := if z.qd = 0 then t.now else z.qdAt, due := if reached then some (z.due.getD t.now) else z.due }
    (s.minimalHops k ≠ [] → k.nextChan ≠ none → exec (.fabricPacket row col { count := flits, response := response, via := via }) s = .next u.sendPackets) ∧
    (s.minimalHops k = [] ∨ k.nextChan = none → exec (.fabricPacket row col { count := flits, response := response, via := via }) s = .next s.sendPackets) ∧
    (s.packets = [] → s.minimalHops k ≠ [] → k.nextChan ≠ none → u.nextHop k = some p →
      u.pick 1 ((u.strandsOf p).filter fun i => decide (u.queueDepth i < 1024)) = (t, i :: is) →
      exec (.fabricPacket row col { count := flits, response := response, via := via }) s = .next { t with packets := [], strands := t.strands.set i.val x }) ∧
    (s.packets = [] → s.minimalHops k ≠ [] → k.nextChan ≠ none → u.nextHop k = none →
      exec (.fabricPacket row col { count := flits, response := response, via := via }) s = .next u) ∧
    (exec (.fabricPacket row col { count := flits, response := response, via := via }) s = .next t →
      t = { s with packets := t.packets, strands := t.strands, choices := t.choices }) ∧
    (via = none → k.nextChan = some .first) ∧
    (∀ h, (via = some (h, .detour) → k.nextChan = some .first) ∧ (via = some (h, .first) → k.nextChan = some .second) ∧
      (via = some (h, .second) → k.nextChan = none)) ∧
    (via.isSome = true → s.nextHop k = some p → p ∈ s.minimalHops k)

/-- The events of the lease engine and of the fabric. -/
def Obligations.LeaseAndFabricEventsAct : Prop := LeaseEventsAct ∧ PacketsTravel

/-! ### The dispatcher and the supervisor complex -/

/-- The dispatcher's events and the supervisor complex's hand: once the module has booted, a decision is taken while it runs and while it restores
its ranges (the model's choice, log 44); a task that may retire retires; the
charges reach their blocks; an acknowledged supervisor task retires; a killed task ends; a halted one is pre-empted; the region requests start,
end and update theirs, a start once the boot is done. Where the subject is no such task, and while the supervisor complex is stopped for hibernation, nothing changes. -/
def Obligations.DispatcherEventsAct : Prop :=
  ∀ (s : State) (t : Task) (v : Word) (index : BitVec 17),
    let task := s.tasks[s.subj]?
    let runs := s.supStopped = false
    (s.hib.state = .run ∨ s.hib.state = .restore → s.boot.step = .done → exec .dispatchDecision s = .next s.promote.decideNow) ∧
    ((s.hib.state ≠ .run ∧ s.hib.state ≠ .restore) ∨ s.boot.step ≠ .done → exec .dispatchDecision s = .next s) ∧
    (task = some t → (t.state = .retiring ∨ (t.kind = 0 ∧ t.state = .running ∧
        ∀ c ∈ t.cores, (s.core c).status = .exited ∧ ∀ a ∈ s.accesses, a.ofCore c = false)) → exec .taskRetire s = .next (s.retire t)) ∧
    (task = some t → t.state ≠ .retiring → t.state ≠ .running ∨ t.kind ≠ 0 ∨ (∃ c ∈ t.cores, (s.core c).status ≠ .exited) →
      exec .taskRetire s = .next s) ∧
    exec .accountingCharge s =
      .next ((s.regions.map (fun (r : Region) => r.id) ++ s.charges.map (fun (p : Nat × Nat) => p.1 / 512)).eraseDups.foldl State.flushCharges s) ∧
    (runs → task = some t → t.kind = 2 → t.state = .running → exec .eventAcknowledge s =
      .next { s with tasks := s.tasks.map fun x => if x.va = t.va then { x with state := .retiring } else x }) ∧
    (task = some t → t.kind ≠ 2 ∨ t.state ≠ .running → exec .eventAcknowledge s = .next s) ∧
    (runs → task = some t → t.state = .running → exec .killBySupervisor s = .next (s.killTask t (.taskKilled t.va 0 0 0 0 0xFFFF))) ∧
    (task = some t → t.state ≠ .running → exec .killBySupervisor s = .next s) ∧
    (runs → task = some t → (∃ c ∈ t.cores, (s.core c).status = .halted) →
      exec .supervisorPreempt s = .next (s.requestPreempt t preemptForced)) ∧
    (task = some t → (∀ c ∈ t.cores, (s.core c).status ≠ .halted) → exec .supervisorPreempt s = .next s) ∧
    (task = none → exec .taskRetire s = .next s ∧ exec .eventAcknowledge s = .next s ∧ exec .killBySupervisor s = .next s ∧
      exec .supervisorPreempt s = .next s) ∧
    (runs → s.boot.step = .done → exec (.regStart v) s = .next (s.startRegion (v.toNat % 2 ^ 16) false)) ∧
    (s.boot.step ≠ .done → exec (.regStart v) s = .next s) ∧
    (let early := index.toNat = 0x10101 ∨ (0x10200 ≤ index.toNat ∧ index.toNat < 0x10240);
      (runs → 0x10000 ≤ index.toNat → ¬ early ∨ s.boot.step = .done →
        exec (.systemRegisterWrite index v) s = .next (s.sharedWrite index.toNat v false)) ∧
      (early → s.boot.step ≠ .done → exec (.systemRegisterWrite index v) s = .next s)) ∧
    (runs → exec (.regKill v) s = .next (s.killRegion (v.toNat % 2 ^ 16)) ∧
      exec (.regUpdate v) s = .next (s.updateRegion (v.toNat % 2 ^ 16) false) ∧
      exec (.elogLostClear v) s = .next { s with elog := { s.elog with lost := s.elog.lost &&& ~~~(v.setWidth 32) } } ∧
      (index.toNat < 0x10000 → exec (.systemRegisterWrite index v) s = .next s)) ∧
    (¬ runs → exec .eventAcknowledge s = .next s ∧ exec .killBySupervisor s = .next s ∧ exec .supervisorPreempt s = .next s ∧
      exec (.regStart v) s = .next s ∧ exec (.regKill v) s = .next s ∧ exec (.regUpdate v) s = .next s ∧
      exec (.elogLostClear v) s = .next s ∧ exec (.systemRegisterWrite index v) s = .next s)

/-- The migration of a page: MIG_CTL puts the page in transit and takes over the address and the new entry; with its channel idle the page is
recalled, its lines leave L2 and it is copied; the new entry replaces the old one and cached translations go; an access held for the page
performs at the new home; with none left the transit bit clears. An entry that software has written meanwhile stops the machine (21 R379). Before
the flush of a hibernation a migration in HOLD is abandoned and one further on completes (21 R380); one asked for after the warning ends at
once with result 4, which is the model's choice (log 83). -/
def Obligations.MigrationSteps : Prop :=
  ∀ (s : State) (v : Word) (place e : Nat) (big : Bool) (old new : Page) (a : Access),
    let t := s.trans
    (s.supStopped = false → v.getLsbD 0 = true → s.migCheck = 0 → s.hib.state.leaving = false → s.walk t.migIa.toNat = some (place, e, big) →
      exec (.migCtl v) s = .next { s with
        hbm := s.hbm.putNat place 8 (withTransit e)
        trans := { t with
          migState := .hold, migAt := t.migIa, migOld := BitVec.ofNat 64 e, migTo := t.migNew, migPlace := place, migBig := big } }) ∧
    (s.supStopped = false → v.getLsbD 0 = true → s.migCheck = 0 → s.hib.state.leaving = true →
      exec (.migCtl v) s = .next { s with trans := { t with migResult := 4 } }) ∧
    (t.migState = .hold → s.settleMigration = { s with
      hbm := s.hbm.putNat t.migPlace 8 t.migOld.toNat, trans := { t with migState := .idle, migResult := 4 } }) ∧
    (t.migState = .switch ∨ t.migState = .forward → s.settleMigration = s.completeMigration ∧
      s.completeMigration.hbm = s.hbm.putNat t.migPlace 8 t.migTo.toNat ∧ s.completeMigration.trans.migState = .idle ∧
      s.completeMigration.trans.migResult = 0) ∧
    (s.supStopped = false → v.getLsbD 0 = true → s.migCheck ≠ 0 → exec (.migCtl v) s =
      .next { s with trans := { t with migResult := BitVec.ofNat 8 s.migCheck } }) ∧
    (v.getLsbD 0 = false ∨ s.supStopped = true → exec (.migCtl v) s = .next s) ∧
    (t.migState = .hold → s.channelBusy t.migOld.toNat = false → s.migHolds t.migOld.toNat = true →
      pageOfEntry t.migOld.toNat t.migBig = some old → pageOfEntry t.migTo.toNat t.migBig = some new →
      exec .migrationHoldDone s = .next (
        (fun (u : State) => { u with trans := { u.trans with migState := .switch } })
          (((s.recallPage old t.migAt.toNat old.size).l2Drop old.key old.size).copyFrame old.key new.key old.size))) ∧
    (s.migHolds e = true ↔ s.hbm.nat t.migPlace 8 = withTransit e) ∧ s.migSize = (if t.migBig then 2 ^ 21 else 2 ^ 16) ∧
    (t.migState = .switch → s.migHolds t.migOld.toNat = true → ∃ tlb,
      exec .migrationCopyDone s = .next { s with
        hbm := s.hbm.putNat t.migPlace 8 (withTransit t.migTo.toNat), trans := { t with tlb := tlb, migState := .forward } } ∧
      ∀ p, p ∈ tlb → p ∈ t.tlb ∧
        ((cachedRange p.1 + 1) * 2 ^ 21 ≤ t.migAt.toNat ∨ t.migAt.toNat + s.migSize ≤ cachedRange p.1 * 2 ^ 21)) ∧
    (s.accesses[s.subj]? = some a → t.migState = .forward → s.toMigrating a = true →
      let u := s.performPending s.subj 0 a.op.size (.ok [])
      exec .migrationForward s = .next ((ownerCluster a.owner).elim u u.refreshArray)) ∧
    (s.accesses[s.subj]? = some a → s.toMigrating a = false → exec .migrationForward s = .next s) ∧
    (t.migState ≠ .forward → exec .migrationForward s = .next s) ∧
    (t.migState = .forward → s.accesses.any s.toMigrating = false → s.migHolds t.migTo.toNat = true →
      ∃ tlb, exec .migrationEnd s = .next { s with
        hbm := s.hbm.putNat t.migPlace 8 t.migTo.toNat, trans := { t with tlb := tlb, migState := .idle, migResult := 0 }
        supEvents := s.supEvents ++ [.migrationDone] }) ∧
    (t.migState = .hold → s.channelBusy t.migOld.toNat = false → s.migHolds t.migOld.toNat = false →
      exec .migrationHoldDone s = .fault .migrationEntryWritten) ∧
    (t.migState = .switch → s.migHolds t.migOld.toNat = false → exec .migrationCopyDone s = .fault .migrationEntryWritten) ∧
    (t.migState = .forward → s.accesses.any s.toMigrating = false → s.migHolds t.migTo.toNat = false →
      exec .migrationEnd s = .fault .migrationEntryWritten) ∧
    (t.migState ≠ .hold → exec .migrationHoldDone s = .next s) ∧ (t.migState ≠ .switch → exec .migrationCopyDone s = .next s) ∧
    (t.migState ≠ .forward → exec .migrationEnd s = .next s)

/-! ### Power -/

/-- The power manager's registers by the supervisor complex: a cap of 300 W or more is kept and sheds the dies it calls for, a lower one is
refused and warns; PW_GIVE gives only from what 420 tokens leave, to a direct peer; PW_SHED takes a permutation and PW_BO ordered
thresholds, else refusal 3; the gates of banks and ways are written, what is gated loses its contents, and each bank or way wakes in its own
time. While the supervisor complex is stopped nothing changes (R385, R386, R390, R391). -/
def Obligations.PowerRegistersAct : Prop :=
  ∀ (s : State) (v : Word) (b : Fin 4) (bank : Fin 32) (way : Fin 16),
    let p := s.power
    let runs := s.supStopped = false
    let cap := v.toNat % 2 ^ 16
    (runs → 300 ≤ cap → exec (.pwCap v) s = .next ({ s with power := { p with
      cap := BitVec.ofNat 16 cap, shedCap := p.shedTo (capDies cap) } }.applyShed.refloor)) ∧
    (runs → cap < 300 → exec (.pwCap v) s = .next (({ s with power := { p with refusal := 1 } }.logModule cap 0 7 0).warn 2)) ∧
    (capDies cap = if cap < 420 then (434 - cap) / 15 else 0) ∧
    (let n := v.toNat % 2 ^ 16
      let m := s.peerModule (BitVec.ofNat 4 (v.toNat / 2 ^ 20)) (BitVec.ofNat 4 (v.toNat / 2 ^ 24))
      let direct := ((m / 16 = s.modid.toNat / 16 ∧ m % 16 ≠ s.modid.toNat % 16) ∨ (m / 16 ≠ s.modid.toNat / 16 ∧ m % 16 = s.modid.toNat % 16)) ∧
        s.isTrained m = true;
      (runs → direct → 0 < n → v.getLsbD 16 = false → n + 420 ≤ p.tokNow.toNat → exec (.pwGive v) s = .next ({ s with power := { p with
        tokNow := BitVec.ofNat 16 (p.tokNow.toNat - n), netNow := p.netNow - n } }.refloor)) ∧
      (runs → direct → 0 < n → v.getLsbD 16 = true → n + 420 ≤ p.tokNext.toNat → exec (.pwGive v) s = .next { s with power := { p with
        tokNext := BitVec.ofNat 16 (p.tokNext.toNat - n), netNext := p.netNext - n } }) ∧
      (runs → ¬direct ∨ n = 0 ∨ (if v.getLsbD 16 then p.tokNext else p.tokNow).toNat < n + 420 →
        exec (.pwGive v) s = .next { s with power := { p with refusal := 2 } })) ∧
    (let dies := (List.range 8).map (fun j => v.toNat / 2 ^ (3 * j) % 8);
      (runs → (∀ d, d < 8 → d ∈ dies) → exec (.pwShed v) s = .next { s with power := { p with shedOrder := v.setWidth 24 } }) ∧
      (runs → ¬(∀ d, d < 8 → d ∈ dies) → exec (.pwShed v) s = .next { s with power := { p with refusal := 3 } })) ∧
    (let shed := v.toNat % 2 ^ 8
      let every := v.toNat / 2 ^ 8 % 2 ^ 8
      let restore := v.toNat / 2 ^ 16 % 2 ^ 8;
      (runs → every < shed → shed < restore → exec (.pwBo v) s = .next { s with power := { p with
        boShed := BitVec.ofNat 8 shed, boAll := BitVec.ofNat 8 every, boRestore := BitVec.ofNat 8 restore } }) ∧
      (runs → shed ≤ every ∨ restore ≤ shed → exec (.pwBo v) s = .next { s with power := { p with refusal := 3 } })) ∧
    (let l := s.me.loc
      let woken := l.gated &&& ~~~(v.setWidth 32);
      (runs → l.lmem.wf = true → ∃ m, exec (.pwLgate v) s = .next (s.withMe { s.me with loc := { l with
          lmem := m, gated := v.setWidth 32, waking := (l.waking &&& ~~~(v.setWidth 32)) ||| woken
          wakeAt := Vector.ofFn fun k : Fin 32 => if woken.getLsbD k.val then s.now + usTicks else l.wakeAt[k] } }) ∧
        ∀ x, x < 2 ^ 20 → m.get x = if v.getLsbD (x / 2 ^ 15) && !l.gated.getLsbD (x / 2 ^ 15) then 0 else l.lmem.get x)) ∧
    (let old := p.l2gated[b.val]
      let woken := old &&& ~~~(v.setWidth 16);
      (runs → exec (.pwL2gate b v) s = .next ({ s with power := { p with
        l2gated := p.l2gated.set b.val (v.setWidth 16)
        l2waking := p.l2waking.set b.val ((p.l2waking[b.val] &&& ~~~(v.setWidth 16)) ||| woken)
        l2wakeAt := p.l2wakeAt.set b.val
          (Vector.ofFn fun w : Fin 16 => if woken.getLsbD w.val then s.now + 10 * usTicks else p.l2wakeAt[b.val][w]) } }.l2Gate))) ∧
    (∀ x, x ∈ s.l2Gate.l2 ↔ x ∈ s.l2 ∧ (s.openWays x.die).contains x.way = true) ∧
    (s.me.loc.waking.getLsbD bank.val = true → s.me.loc.wakeAt[bank] ≤ s.now → exec (.localBankWakeDone bank) s = .next (s.withMe
      { s.me with loc := { s.me.loc with waking := s.me.loc.waking &&& ~~~(BitVec.ofNat 32 (2 ^ bank.val)), lmem := s.me.loc.lmem.clear (2 ^ 15 * bank.val) (2 ^ 15) } })) ∧
    (s.me.loc.waking.getLsbD bank.val = false ∨ s.now < s.me.loc.wakeAt[bank] → exec (.localBankWakeDone bank) s = .next s) ∧
    ((p.l2waking[b.val]).getLsbD way.val = true → p.l2wakeAt[b.val][way] ≤ s.now → exec (.l2WayWakeDone b way) s = .next { s with power := { p with
      l2waking := p.l2waking.set b.val (p.l2waking[b.val] &&& ~~~(BitVec.ofNat 16 (2 ^ way.val))) } }) ∧
    ((p.l2waking[b.val]).getLsbD way.val = false ∨ s.now < p.l2wakeAt[b.val][way] → exec (.l2WayWakeDone b way) s = .next s) ∧
    (¬runs → exec (.pwCap v) s = .next s ∧ exec (.pwGive v) s = .next s ∧ exec (.pwShed v) s = .next s ∧ exec (.pwBo v) s = .next s ∧
      exec (.pwLgate v) s = .next s ∧ exec (.pwL2gate b v) s = .next s)

/-- The tokens and the bus: a grant period's end, 1 ms after its start, moves the tokens on and cuts a draw that has been over the budget for
two periods; tokens arrive for this period or the next, and no other; brown-outs shed a die at a time once the bus has been low for 20 µs, or
all at once, and restore one at a time once it has been high for 1 ms, but not after a power-fail warning; below 40 V the module warns
(R383-R385, R387, R389, R391). -/
def Obligations.PowerEventsAct : Prop :=
  ∀ (s : State) (n volts : BitVec 16) (period : BitVec 24) (d : Nat),
    let p := s.power
    let lit := fun (t : BitVec 8) => 4000 + 10 * t.toNat
    let above := if p.budget < n.toNat then p.overPeriods + 1 else 0
    let t := { s with
      choices := s.choices + 1
      power := { p with
        draw := n, overPeriods := above, tokNow := p.tokNext, tokNext := if p.coord then 0 else 2600, period := p.period + 1
        netNow := p.netNext, netNext := 0, periodAt := s.now } }
    let q := { p with
      volts := volts
      lowSince := if volts.toNat < lit p.boShed then some (p.lowSince.getD s.now) else none
      highSince := if lit p.boRestore < volts.toNat then some (p.highSince.getD s.now) else none }
    let u := { s with power := q }
    let due := fun (since : Option Nat) (hold last gap : Nat) => ∃ t, since = some t ∧ t + hold ≤ s.now ∧ (last < t ∨ last + gap ≤ s.now)
    let low := due q.lowSince (20 * usTicks) p.lastShed (50 * usTicks)
    let high := s.hib.state.leaving = false ∧ due q.highSince (1000 * usTicks) p.lastRestore (200 * usTicks)
    (p.periodAt + 1000 * usTicks ≤ s.now → above < 2 ∨ s.hib.state ≠ .run → exec (.grantPeriodEnd n) s = .next t.refloor) ∧
    (p.periodAt + 1000 * usTicks ≤ s.now → 2 ≤ above → s.hib.state = .run →
      exec (.grantPeriodEnd n) s = .next (t.refloor.cutDraw s.tasks.length n.toNat s.partDraws)) ∧
    (s.now < p.periodAt + 1000 * usTicks → exec (.grantPeriodEnd n) s = .next s) ∧
    (period = p.period → exec (.tokenArrival n period) s = .next ({ s with power := { p with
      tokNow := BitVec.ofNat 16 (min 65535 (p.tokNow.toNat + n.toNat)), netNow := p.netNow + n.toNat } }.refloor)) ∧
    (period = p.period + 1 → exec (.tokenArrival n period) s = .next { s with power := { p with
      tokNext := BitVec.ofNat 16 (min 65535 (p.tokNext.toNat + n.toNat)), netNext := p.netNext + n.toNat } }) ∧
    (period ≠ p.period → period ≠ p.period + 1 → exec (.tokenArrival n period) s = .next s ∧ exec (.coordinatorTokens n period) s = .next s) ∧
    (p.coord = false → exec (.coordinatorTokens n period) s = .next s) ∧
    (p.coord = true → period = p.period → exec (.coordinatorTokens n period) s =
      .next ({ s with power := { p with tokNow := heldTokens n.toNat p.netNow } }.refloor)) ∧
    (p.coord = true → period = p.period + 1 → exec (.coordinatorTokens n period) s =
      .next { s with power := { p with tokNext := heldTokens n.toNat p.netNext } }) ∧
    (low → (p.order.find? fun d => !s.dieShed d) = some d → exec (.brownoutShed volts) s = .next
      ({ s with power := { q with shedBo := setDie p.shedBo d true, lastShed := s.now } }.applyShed)) ∧
    (¬ low ∨ (p.order.find? fun d => !s.dieShed d) = none → exec (.brownoutShed volts) s = .next u) ∧
    (volts.toNat < lit p.boAll → exec (.brownoutAllShed volts) s = .next
      ({ s with power := { q with shedBo := 0xFF, lastShed := s.now } }.applyShed)) ∧
    (lit p.boAll ≤ volts.toNat → exec (.brownoutAllShed volts) s = .next u) ∧
    (high → (p.order.reverse.find? fun d => p.shedBo.getLsbD d) = some d → exec (.brownoutRestore volts) s = .next
      ({ s with power := { q with shedBo := setDie p.shedBo d false, lastRestore := s.now } }.applyShed)) ∧
    (¬ high ∨ (p.order.reverse.find? fun d => p.shedBo.getLsbD d) = none → exec (.brownoutRestore volts) s = .next u) ∧
    (volts.toNat < 4000 → exec (.inputLoss volts) s = .next (u.warn 1)) ∧
    (4000 ≤ volts.toNat → exec (.inputLoss volts) s = .next u)

/-! ### Hibernation -/

/-- The hibernation sequence moves one state at a time: WARN to QUIESCE once every core has acknowledged, QUIESCE to FLUSH once the queues are
quiet, FLUSH to DRAIN with contexts and dirty bytes flushed, DRAIN to SEAL with the ranges drained, of which no piece begins at or below the
selvedge, SEAL to OFF with a manifest committed; a resumed module judges its saved tasks and rejoins, and held tasks are released. In any other
state an event changes nothing (R392-R401). That the contexts stand in the image beside the bytes drained, that the context set is complete
where its drained bytes have their digests, and that what it holds comes to stand beside what runs, are the model's choices (log 44; of the
bank commands of killed tasks, log 84). -/
def Obligations.HibernationSequence : Prop :=
  ∀ (s t : State) (es : List ManifestEntry) (g : BitVec 6) (m : BitVec 8) (step : Word) (most : Nat),
    let h := s.hib
    (h.state = .warn → (∀ c : CoreId, (s.core c).acknowledged = true) → exec .hibernateQuiesce s = .next (
      (fun (u : State) => { u with hib := { u.hib with state := .quiesce, since := u.now } }.spend none)
        ((List.finRange 256).foldl State.quiesceCore s.settleMigration).stopEngines)) ∧
    (h.state ≠ .warn ∨ (∃ c : CoreId, (s.core c).acknowledged = false) → exec .hibernateQuiesce s = .next s) ∧
    (h.state = .quiesce → s.quiet = true → exec .hibernateFlush s = .next { s with hib := { h with state := .flush, since := s.now } }) ∧
    (h.state = .quiesce → s.quiet = false → exec .hibernateFlush s = .next s) ∧
    (h.state = .flush → exec .hibernateFlush s = .next (
      (fun (u : State) => { u with
        scm := u.scmBuf.foldl (fun m (a, b) => Mem.set m a b) u.scm
        scmBuf := [], accesses := [], l2 := u.l2.map fun l => { l with dirty := false }
        hib := { u.hib with state := .drain, since := u.now } })
        ((s.tasks.foldl State.flushTask s).spend (some (s.tasks.foldl State.flushTask s).phaseEnergy)))) ∧
    (h.state ≠ .quiesce → h.state ≠ .flush → exec .hibernateFlush s = .next s) ∧
    (h.reserve - most ≤ (s.spend (some most)).hib.reserve ∧ (s.spend (some most)).hib.reserve ≤ h.reserve) ∧
    (let u := s.writeImage;
      (h.state = .drain → { u with
        choices := u.choices + 1
        hib := { u.hib with imageTasks := u.tasks, imageRegions := u.regions, imageSteps := u.hib.step, imageMembers := u.hib.member } }.drainItems
          u.hib.data.toNat false (s.contextSet ++ s.drainList) = (t, es) →
      exec .hibernateDrain s = .next { t with hib := { t.hib with
        state := .seal, since := t.now, entries := es, drained := es.foldl (fun n e => n + e.bytes) 0, reserveSeal := t.hib.joules } })) ∧
    (h.state ≠ .drain → exec .hibernateDrain s = .next s) ∧
    (let floor := h.selv.toNat * 12000000000;
      (∀ base scm cap bytes fuel, h.reserve ≤ floor → (s.drainPieces base scm cap bytes (fuel + 1)).bytes = bytes ∧
        (s.drainPieces base scm cap bytes (fuel + 1)).stopped = true) ∧
      (∀ n, s.pieceCost n ≤ 125 * n) ∧
      ∀ place stopped items, min h.reserve (floor - 512000) ≤ (s.drainItems place stopped items).1.hib.reserve) ∧
    (h.state = .seal → s.boot.attStat ≠ 1 → ∃ (slot gen : Nat) (bytes : List Byte),
      exec .hibernateSeal s = .next { s with
        scm := s.scm.put (h.manif.toNat + slot * 2 ^ 20) bytes
        hib := { h with state := .off, since := s.now, gen := BitVec.ofNat 32 gen, imageGen := gen } } ∧
      (s.newestManifest = none → slot = 0 ∧ gen = 1) ∧
      (∀ k n l, s.newestManifest = some (k, n, l) → slot = 1 - k ∧ gen = n + 1) ∧
      bytes.take 4 = [0x46, 0x4D, 0x47, 0x4B] ∧ (bytes.drop 0x20).take 8 = bytesOfNat 8 0x5345414C45442121 ∧
      bytes.length = 128 + 96 * h.entries.length + 96) ∧
    (h.state ≠ .seal ∨ s.boot.attStat = 1 → exec .hibernateSeal s = .next s) ∧
    (h.state ≠ .restore → exec .hbCtlResume s = .next s) ∧
    (let regions := h.imageRegions ++ s.regions.filter fun r => !h.imageRegions.any fun x => x.id == r.id
      let tasks := h.imageTasks ++ s.tasks.filter fun t => !h.imageTasks.any fun x => x.va == t.va
      let jobs := (h.imageJobs.zip (List.range h.imageJobs.length)).map fun (j, i) => { j with id := s.nextJob + i }
      (h.state = .restore → s.contextComplete = true → exec .hbCtlResume s = .next (
        (fun (u : State) => (u.tasks.foldl State.judge u).rejoinStep) { s with
          tasks := tasks, regions := regions, jobs := s.jobs ++ jobs, nextJob := s.nextJob + h.imageJobs.length
          hib := { h with step := h.imageSteps, member := h.imageMembers, state := .rejoin, since := s.now } })) ∧
      (h.state = .restore → s.contextComplete = false → exec .hbCtlResume s = .next (
        (fun (u : State) => { u with hib := { u.hib with state := .run, since := u.now } }.applyShed)
          (regions.foldl (fun u r => u.postEvent r.id { kind := 3, info := 0, task := 0 } (.hibernationLoss 0)) { s with regions := regions })))) ∧
    (∀ x : Task, (x.saved = [] → s.judge x = s) ∧
      (x.saved ≠ [] → x.resumable = false ∨ s.touchesLost x = true → s.judge x = s.loseTask x) ∧
      (x.saved ≠ [] → x.resumable = true → s.touchesLost x = false → s.judge x = s.modTask x.va fun t => { t with state := .held })) ∧
    (h.state ≠ .run → exec .hbCtlRelease s = .next s) ∧
    (h.state = .run → exec .hbCtlRelease s =
      .next (s.tasks.foldl (fun s t => if t.state = .held then s.makeReady t.va .preempted else s) s)) ∧
    (let answers := (g.toNat, m.toNat, step) :: h.answers.filter (fun a => !(a.1 == g.toNat && a.2.1 == m.toNat));
      (h.state = .restore → exec (.rejoinTraffic g m step) s = .next { s with hib := { h with answers := answers } }) ∧
      (h.state = .rejoin → exec (.rejoinTraffic g m step) s = .next ({ s with hib := { h with answers := answers } }.rejoinStep)) ∧
      (h.state ≠ .restore → h.state ≠ .rejoin → exec (.rejoinTraffic g m step) s = .next s)) ∧
    (h.state = .rejoin → h.since + 10000000 * usTicks ≤ s.now → exec .rejoinTimeout s = .next
      ((h.groups.filter fun g => (s.groupStep g).isNone).foldl (fun (u : State) g =>
        { u with hib := { u.hib with agreed := u.hib.agreed.set g.val (BitVec.allOnes 64) } }) s).finishRejoin) ∧
    (h.state = .rejoin → s.now < h.since + 10000000 * usTicks → exec .rejoinTimeout s = .next s) ∧
    (h.state ≠ .rejoin → exec .rejoinTimeout s = .next s)

/-! ### Power-on, firmware and partitions -/

/-- Without power only the SCM media, the flash and the fuses, the reserve and the seal keep their contents (log 45); the module boots again once
the bus holds: it stays off where its self-test fails, trains with firmware in LPDDR5X where both images are good and that memory trains, and
else comes to recovery; an image that recovery finds good is written; ATT_CTL starts a report that ends DONE or in FAULT; PART_CTL, once the
boot is done, is written whole or refused. That a refusal names the lowest code, and that an accepted write leaves the refusal field as it was,
are the model's choices (log 47). -/
def Obligations.PowerOffBootAndPartitions : Prop :=
  ∀ (s : State) (input : Bool) (volts kind : BitVec 16) (slot : Bool) (image : List Byte) (v : Word) (p : BitVec 3) (since : Nat),
    let b := s.boot
    let u := s.readBus volts
    let runs := s.supStopped = false
    (s.hib.state = .off → b.step = .done ∨ b.step = .training → ∃ t, exec (.powerOff input) s = .next t ∧
      t.scm = s.scm ∧ t.boot.flash = b.flash ∧ t.boot.rollback = b.rollback ∧ t.boot.serial = b.serial ∧ t.boot.step = .off ∧
      t.hib.reserve = s.hib.reserve ∧ t.hib.cause = s.hib.cause ∧ t.modid = s.modid ∧
      t.cores = State.reset.cores ∧ t.hbm = State.reset.hbm ∧ t.tasks = [] ∧ t.regions = [] ∧ t.clusters = State.reset.clusters ∧
      t.engines = State.reset.engines ∧ t.elog = State.reset.elog ∧ t.parts = State.reset.parts) ∧
    (s.hib.state ≠ .off ∨ b.step = .off ∨ b.step = .recovery → exec (.powerOff input) s = .next s) ∧
    (b.step = .off → b.offSince + 100000 * usTicks ≤ s.now → since + 1000 * usTicks ≤ s.now → u.power.highSince = some since →
      b.fault = false ∨ b.offSince < since → ∃ r, r ≤ 54000000000000 ∧ exec (.powerOn volts) s = .next
        ({ u with choices := s.choices + 1, hib := { s.hib with state := .run, reserve := r } }.bootUp)) ∧
    (b.step ≠ .off ∨ s.now < b.offSince + 100000 * usTicks ∨ u.power.highSince = none ∨
      (u.power.highSince = some since ∧ (s.now < since + 1000 * usTicks ∨ (b.fault = true ∧ since ≤ b.offSince))) →
      exec (.powerOn volts) s = .next u) ∧
    (let w := { s with choices := s.choices + 2 }
      let dark : State := { w with hib := { s.hib with state := .off }, boot := { b with step := .off, fault := true, offSince := s.now } }
      let poor : State := { w with boot := { b with fault := false, step := .recovery } }
      s.bootUp = dark ∨ s.bootUp = poor ∨ ∃ x y, s.bootImage 1 = some x ∧ s.bootImage 2 = some y ∧ s.bootUp = { w with boot := { b with
        fault := false, step := .training, fibres := 0, memory := Mem.put [] (imageField x 0x10 8 % 2 ^ 37) (imagePayload x)
        digests := #v[BitVec.ofNat 384 (imageField x 0x18 48), BitVec.ofNat 384 (imageField y 0x18 48)]
        secvers := #v[BitVec.ofNat 16 (imageField x 6 2), BitVec.ofNat 16 (imageField y 6 2)] } }) ∧
    (b.step = .recovery → kind = 1 ∨ kind = 2 → s.imageOk kind.toNat image = true → exec (.flashImageWrite kind slot image) s =
      .next ({ s with boot := { b with flash := b.flash.set (flashSlot kind.toNat slot).val (some image) } }.bootUp)) ∧
    (b.step ≠ .recovery ∨ s.imageOk kind.toNat image = false → exec (.flashImageWrite kind slot image) s = .next s) ∧
    (runs → v.getLsbD 0 = true → b.attStat ≠ 1 → exec (.attCtl v) s =
      .next { s with boot := { b with attStat := if s.attestOk then 1 else 3 } }) ∧
    (¬runs ∨ v.getLsbD 0 = false ∨ b.attStat = 1 → exec (.attCtl v) s = .next s) ∧
    (b.attStat = 1 → s.attestOk = false → exec .attestationDone s = .next { s with boot := { b with attStat := 3 } }) ∧
    (∀ t u nonce, b.attStat = 1 → s.attestOk = true → s.fetchIa b.attIn.toNat 48 = (t, some nonce) →
      t.writeIa t.boot.attOut.toNat (t.report nonce) = some u →
      exec .attestationDone s = .next { u with choices := u.choices + 1, boot := { u.boot with attStat := 2 } }) ∧
    (b.attStat ≠ 1 → exec .attestationDone s = .next s) ∧
    (let new : BitVec 32 := v.setWidth 32 &&& 0xFFFFFF01;
      (runs → b.step = .done → s.partCode p.toFin new = none → exec (.partCtl p v) s =
        .next { s with parts := s.parts.set p.toNat { s.parts[p.toNat] with ctl := new } }) ∧
      (∀ code, runs → b.step = .done → s.partCode p.toFin new = some code → exec (.partCtl p v) s =
        .next { s with parts := s.parts.set p.toNat { s.parts[p.toNat] with refusal := BitVec.ofNat 4 code } }) ∧
      (¬runs ∨ b.step ≠ .done → exec (.partCtl p v) s = .next s))

/-! ### The optical layer -/

/-- Strands and rings: a write of OSTR_CTL wakes the channels it sets and parks those it clears, and 0 is ignored; OSTR_WTH, ORNG_HTR and
ORNG_MAP write theirs, a ring that is disabled is logged, and one that is enabled wakes; a park takes effect at a flit boundary, a wake at the
first one after its time is over, and a park that waited for the strand's wakes follows; a queue that has reached its threshold wakes the strand;
a settled ring carries flits again; a loss of lock disables the ring; a peer's mask governs its receivers. What happens to a strand is counted
from the flits that have left it by then (R305, R405, R407-R409, R412). The line and the channel that a ring comes back to, and that a dead
strand returns its allocation when software disables its last ring, are the model's choices (log 41); so is what a loss of lock leaves (log 43). -/
def Obligations.OpticsActs : Prop :=
  ∀ (s : State) (i : StrandId) (r : RingId) (v : Word) (peer : Fin 30) (mask : BitVec 8) (t : Nat),
    let runs := s.supStopped = false
    let x := s.strands[i.val]
    let y := s.rings[r.val]
    let z := x.upTo (s.flow i) s.now
    let withStrand := fun (x : Strand) => ({ s with strands := s.strands.set i.val x } : State)
    let withRing := fun (y : Ring) => ({ s with rings := s.rings.set r.val y } : State)
    let m : BitVec 8 := v.setWidth 8
    let wake := fun (t : Nat) => some (x.wakeEnd.getD (t + 102 * usTicks / 10))
    let ending := if m &&& ~~~x.carry = 0 then x.wakeEnd else wake s.now
    let mapped := withRing { y with sw := v.getLsbD 6, swapped := y.swapped && !v.getLsbD 21 }
    let k := mapped.ringStrand r
    let off := (mapped.settleStrand k).modRing r fun y => { y with disable := true, settle := none, wake := false }
    let until_ := ((mapped.strands[k.val]).wakeEnd).getD (s.now + 102 * usTicks / 10)
    let settled := (s.settleStrand (s.ringStrand r)).modRing r fun y => { y with settle := none, wake := false }
    z.qd = s.queueDepth i ∧ s.flow i = (if s.carries i then s.width i else 0) ∧ (s.flitBoundary i = true ↔ z.flying = false) ∧
    (m = 0 → exec (.ostrCtl i v) s = .next s) ∧
    (runs → m ≠ 0 → x.due = none → x.amask &&& ~~~m = 0 → exec (.ostrCtl i v) s = .next (withStrand { z with amask := m, wakeEnd := ending })) ∧
    (runs → m ≠ 0 → x.due = none → x.amask &&& ~~~m ≠ 0 → ending = none → s.ringWakes i = false →
      exec (.ostrCtl i v) s = .next (withStrand { z with amask := m, parking := true, wakeEnd := none })) ∧
    (runs → m ≠ 0 → x.due = none → x.amask &&& ~~~m ≠ 0 → ending ≠ none ∨ s.ringWakes i = true →
      exec (.ostrCtl i v) s = .next (withStrand { z with amask := m, wakeEnd := ending, parkDue := true })) ∧
    (runs → exec (.ostrWth i v) s = .next (withStrand { z with wth := BitVec.ofNat 16 (min 1024 (v.toNat % 2 ^ 16)) })) ∧
    (runs → exec (.orngHtr r v) s = .next (withRing { y with
      heater := v.setWidth 10, detune := y.detune + ((v.toNat % 1024 : Nat) : Int) - y.heater.toNat })) ∧
    (runs → v.getLsbD 7 = y.disable → exec (.orngMap r v) s = .next mapped) ∧
    (runs → v.getLsbD 7 = true → y.disable = false → exec (.orngMap r v) s = .next (((off.logRing r.val).dropDead k).parkAfter k)) ∧
    (∀ u : State, u.logRing r.val = { u with choices := u.choices + 1 }.logModule r.val 0 1 (Config.freeNat u.choices % 256)) ∧
    (runs → v.getLsbD 7 = false → y.disable = true → ∃ u, exec (.orngMap r v) s = .next u ∧
      (u.rings[r.val]).disable = false ∧ (u.rings[r.val]).wake = true ∧ (u.rings[r.val]).settle.isSome = true) ∧
    (runs → v.getLsbD 7 = false → y.disable = true → mapped.channelTaken r = false → mapped.lineSuits r (mapped.lineBack r) = true →
      exec (.orngMap r v) s = .next { (mapped.settleStrand k).modRing r fun y =>
          { y with disable := false, line := mapped.lineBack r, settle := some until_, wake := true } with choices := s.choices + 1 }) ∧
    (¬runs → exec (.ostrCtl i v) s = .next s ∧ exec (.ostrWth i v) s = .next s ∧ exec (.orngHtr r v) s = .next s ∧
      exec (.orngMap r v) s = .next s) ∧
    (s.subj = i.val → x.parking = true → x.due = none → z.flying = false →
      exec .strandPark s = .next (withStrand { z with carry := x.carry &&& x.amask, parking := false })) ∧
    (s.subj = i.val → x.parking = false ∨ z.flying = true → exec .strandPark s = .next s) ∧
    (s.subj = i.val → x.wakeEnd = some t → t ≤ s.now → z.flying = false → exec .wakeComplete s = .next
      ((withStrand { z with carry := x.carry ||| x.amask, wakeEnd := none }).parkAfter i)) ∧
    (s.subj = i.val → x.wakeEnd = none ∨ z.flying = true ∨ (x.wakeEnd = some t ∧ s.now < t) → exec .wakeComplete s = .next s) ∧
    (x.parkDue = true → x.wakeEnd = none → s.ringWakes i = false →
      s.parkAfter i = withStrand { z with parking := true, parkDue := false }) ∧
    (x.parkDue = false ∨ x.wakeEnd.isSome = true ∨ s.ringWakes i = true → s.parkAfter i = s) ∧
    (s.subj = i.val → x.due = some t → x.carry ≠ 0xFF → exec .autoWake s =
      .next (withStrand { z with amask := 0xFF, parking := false, parkDue := false, due := none, wakeEnd := wake t })) ∧
    (s.subj = i.val → x.due = some t → x.carry = 0xFF →
      exec .autoWake s = .next (withStrand { z with amask := 0xFF, parking := false, parkDue := false, due := none })) ∧
    (s.subj = i.val → x.due = none → exec .autoWake s = .next s) ∧
    (s.subj = r.val → y.settle = some t → t ≤ s.now → y.disable = false ∨ y.wake = false →
      exec .ringResettleDone s = .next (settled.parkAfter (s.ringStrand r))) ∧
    (s.subj = r.val → y.settle = some t → t ≤ s.now → y.disable = true → y.wake = true → ∃ u, exec .ringResettleDone s = .next u ∧
      (u.rings[r.val]).disable = false) ∧
    (s.subj = r.val → y.settle = none ∨ (y.settle = some t ∧ s.now < t) → exec .ringResettleDone s = .next s) ∧
    (s.subj = r.val → y.disable = false → ∃ t, exec .cdrLoss s = .next t ∧ (t.rings[r.val]).disable = true ∧
      t.alloc = s.alloc ∧ t.leases = s.leases ∧ ∀ q, q ≠ r → t.rings[q.val] = s.rings[q.val]) ∧
    (s.subj = r.val → y.disable = true → exec .cdrLoss s = .next s) ∧
    exec (.inBandControlFlit peer i mask) s = .next { s with receivers := putKey (peer.val * 512 + i.val) mask s.receivers }

/-- The lock loop of a chiplet, run every 50 µs: the rings of the chiplet drift, each that is in service and not under software is corrected by at
most 16 codes against its detuning, and then those that are saturated swap, one after another. LINK_TRAINING of a fibre of a module that has
power sets the fabric as it is found and, at boot, ends it with the last fibre. That the drift is added before the correction, and what a
training leaves, are the model's choices (log 43). -/
def Obligations.LockLoopAndTraining : Prop :=
  ∀ (s : State) (r : RingId) (chiplet : Fin 16) (drift : List Int) (fibre : Fin 64) (res : TrainResult),
    let y := s.rings[r.val]
    let corrected := (s.lockRing r).rings[r.val]
    let mine := fun (q : RingId) => q.val / 256 = chiplet.val
    let drifted := { s with rings := Vector.ofFn fun q : Fin 4096 =>
      (if mine q then { s.rings[q.val] with detune := (s.rings[q.val]).detune + drift.getD (q.val % 256) 0 } else s.rings[q.val]) }
    (s.ringValid r = true → y.sw = false →
      (corrected.heater.toNat : Int) = max 0 (min 1023 (y.heater.toNat - max (-16) (min 16 y.detune))) ∧
      corrected.detune = y.detune + corrected.heater.toNat - y.heater.toNat ∧
      ∀ q, q ≠ r → (s.lockRing r).rings[q.val] = s.rings[q.val]) ∧
    (s.ringValid r = false ∨ y.sw = true → s.lockRing r = s) ∧
    (s.now < s.lockedAt[chiplet] + 50 * usTicks → exec (.lockLoopPeriod chiplet drift) s = .next s) ∧
    (s.lockedAt[chiplet] + 50 * usTicks ≤ s.now → ∃ u : State, u = { s with lockedAt := s.lockedAt.set chiplet s.now, rings := u.rings } ∧
      (∀ q : RingId, u.rings[q.val] = if mine q then (drifted.lockRing q).rings[q.val] else s.rings[q.val]) ∧
      exec (.lockLoopPeriod chiplet drift) s = .next (((List.finRange 4096).filter fun q => decide (q.val / 256 = chiplet.val)).foldl
        (fun (t : State) q => if t.ringLocks q = true ∧ ((t.rings[q.val]).heater = 0 ∨ (t.rings[q.val]).heater = 1023) then t.lineSwap q else t) u)) ∧
    (s.boot.step = .off ∨ s.boot.step = .recovery → exec (.linkTraining fibre res) s = .next s) ∧
    (s.boot.step = .done → ∃ t, exec (.linkTraining fibre res) s = .next t ∧ t.boot.step = .done ∧
      t.fabRows = max 1 (min 16 res.rows.toNat) ∧ t.fabCols = max 1 (min 16 res.cols.toNat) ∧ t.trained = res.trained ∧ t.power.coord = res.coord ∧
      t.boot.fibres.getLsbD fibre.val = true ∧
      ∀ l ∈ t.leases, peerRouter l.peer ≠ fibre.val / 32) ∧
    (s.boot.step = .training → ∃ t, exec (.linkTraining fibre res) s = .next t ∧
      (s.boot.fibres ||| BitVec.ofNat 64 (2 ^ fibre.val) = BitVec.allOnes 64 → s.hib.state = .run →
        t.boot.step = .done ∧ (t.hib.state = .run ∨ t.hib.state = .restore)) ∧
      (s.boot.fibres ||| BitVec.ofNat 64 (2 ^ fibre.val) ≠ BitVec.allOnes 64 ∨ s.hib.state ≠ .run → t.boot.step = .training))

/-! ### Encodings -/

/-- Every well-formed instruction that has an encoding decodes back from it, with every operand and the guard as they were. -/
def Obligations.InstructionsDecodeBack : Prop :=
  ∀ (g : BitVec 4) (i : Instr), i.wf = true →
    (∀ cls op x w, encodeOp i = some (cls, op, x) → encodeSlot g i = some w → decodeSlot cls w = i ∧ guardOf w = g) ∧
    (∀ w, encodeCrisum i = some w → decodeCrisum w = i) ∧
    (∀ cls op x, encodeOp i = some (cls, op, x) → ∃ w, encodeSlot g i = some w)

/-- Every word that a slot class or an engine decodes to an instruction is that instruction's encoding under the word's guard: no bit of a word
is dropped, and the instruction is well-formed. -/
def Obligations.WordsEncodeBack : Prop :=
  ∀ (cls : SlotClass) (w : BitVec 32) (i : Instr),
    (decodeOp cls w = some i → i.wf = true ∧ encodeSlot (guardOf w) i = some w ∧ ∃ op x, encodeOp i = some (cls, op, x)) ∧
    (decodeCrisumCore w = some i → encodeCrisum i = some w)

/-- Six words written out from the encoding tables decode to the instructions they stand for; a word of zeros is NOP in every slot, and a word with
an unassigned opcode is no instruction. -/
def Obligations.WordsOfTheTablesDecode : Prop :=
  decodeSlot .k 0x01D04003 = .loopi 1 16 3 ∧ decodeSlot .k 0x0C4D5082 = .mtsr 6 0x15082 ∧ decodeSlot .k 0x05C10000 = .clkdiv .seq 1 ∧
  decodeSlot .v 0x30470423 = .vadd 7 1 2 .bf16 true ∧ guardOf 0x30470423 = 3 ∧ decodeSlot .m 0x02400000 = .mresume ∧
  decodeSlot .c 0x00CC7800 = .cbatch 6 7 true ∧ (∀ cls, decodeSlot cls 0 = .nop) ∧
  (∀ w : BitVec 32, w.toNat / 2 ^ 22 % 2 ^ 6 = 0x2F → decodeSlot .m w = .nonInstruction .m w)

/-! ### Steps -/

/-- A step takes the first action of the agenda: an event, or an engine's next command word, is exec of it, at the core, subject or engine that
the action names; time passes; a ring's temperature drifts; the supervisor firmware raises a rollback counter or reaches its register block;
and where the agenda is empty the action is an open choice (log 3). Without power only the bus and a written image act. -/
def Obligations.StepRunsTheAction : Prop :=
  ∀ (s : State) (rest : List Action) (c : CoreId) (subj n off : Nat) (i : Instr) (e : EngineId) (r : RingId) (d : Int) (k : Fin 2)
    (v : BitVec 16) (w : Word) (o : Option Word),
    let t := { s with agenda := rest }
    let u := { t with curEng := e, trial := false, met := none }
    (s.powered = true ∨ unpoweredEvent i = true → s.agenda = .event c subj i :: rest →
      step s = exec i { t with cur := c, subj := subj, curSlot := .k, curWord := 0, trial := false, met := none }) ∧
    (s.powered = false → unpoweredEvent i = false → s.agenda = .event c subj i :: rest → step s = .next t) ∧
    (s.powered = true → s.agenda = .engine e :: rest → (s.engine e).running = true → (h : (s.engine e).ptr < 1024) →
      step s = exec (decodeCrisum (s.engine e).cmds[(s.engine e).ptr]) u) ∧
    (s.powered = true → s.agenda = .engine e :: rest → (s.engine e).running = false ∨ 1024 ≤ (s.engine e).ptr → step s = .next u) ∧
    (s.powered = false → s.agenda = .engine e :: rest ∨ s.agenda = .issue c :: rest → step s = .next t) ∧
    (s.agenda = .elapse n :: rest → step s = .next { t with now := s.now + n }) ∧
    (s.powered = true → s.agenda = .drift r d :: rest → step s =
      .next { t with rings := s.rings.set r.val { s.rings[r.val] with detune := (s.rings[r.val]).detune + d } }) ∧
    (s.supStopped = false → s.agenda = .rollback k v :: rest → step s = .next { t with boot := { s.boot with
      rollback := s.boot.rollback.set k (BitVec.ofNat 16 (max s.boot.rollback[k].toNat v.toNat)) } }) ∧
    (s.supStopped = false → off % 8 = 0 → s.boot.step = .done → s.agenda = .superAccess off (some w) :: rest →
      step s = .next (t.sharedWrite (0x10000 + off / 8) w false)) ∧
    (s.supStopped = false → off % 8 = 0 → s.agenda = .superAccess off none :: rest → t.sharedRead (0x10000 + off / 8) = some w →
      step s = .next { t with choices := s.choices + 1, boot := { s.boot with superData := w } }) ∧
    (s.supStopped = true → s.agenda = .superAccess off o :: rest ∨ s.agenda = .rollback k v :: rest → step s = .next t) ∧
    (off % 8 ≠ 0 → s.agenda = .superAccess off o :: rest → step s = .next t) ∧
    (s.agenda = [] → step s = ({ s with choices := s.choices + 1 }).act exec (Config.freeAction s.choices))

/-- A running core whose bundle may issue, once SPAWNs that waited for its earlier stores have been answered, executes the decoded instruction of its one slot that is not NOP, and then the bundle ends: the next
bundle, or the branch's target after its delay, or a wait. -/
def Obligations.StepIssuesTheBundle : Prop :=
  ∀ (s t : State) (rest : List Action) (c : CoreId) (b : BitVec 256) (sw : SlotWord),
    s.powered = true → s.agenda = .issue c :: rest →
    let s1 := { s with agenda := rest, cur := c, curSlot := .k, curWord := 0, now := max s.now (s.core c).tick, trial := false, met := none }
    let s0 := s1.runSpawns
    let pre := t.modMe fun x => x.issued none
    s1.me.shed = false → s0.me.status = .running → s0.boundary = none → s0.me.exhausted = false → s0.fetchBundle = .ok (t, b) →
    (vectorBundle b && !t.me.vecAligned) = false → pre.me.status ≠ .idle → t.me.takesUp = none → t.skippable b = false →
    ((decodeBundle b).filter fun w => w.instr != .nop) = [sw] → t.me.rp sw.guard = true →
    pre.earlyTrap exec b [sw] = none → t.heldBack [sw] = false → (pre.trySlots exec b [sw]).2 = none →
    (pre.withoutThreshold.trySlots exec b [sw]).2 = none → t.me.hsetMissing [sw] = none →
    (pre.trySlots exec b [sw]).1.me.overfull = false → t.me.bundleMissing (pre.trySlots exec b [sw]).1.me = none →
    step s = match exec sw.instr { pre with curSlot := sw.slot, curWord := bundleWord b sw.slot.num } with
      | .next u => .next (u.endBundle none)
      | .fault f => .fault f
      | .refused r => .refused r

/-- HBM and SCM keep their canonical form in every step: every address once, in rising order, and no byte listed that is zero. -/
def Obligations.StepKeepsGlobalMemoryCanonical : Prop :=
  ∀ s t : State, s.memOk = true → step s = .next t → t.memOk = true

/-- A core's local memory and spill area are in canonical form. -/
def Sys2Proof.Machine.Core.memOk (c : Core) : Bool := c.loc.lmem.wf && c.loc.spill.wf

/-- Local memories, operand memories and their side-areas, and the local memories of saved and recorded contexts are in canonical form. -/
def Sys2Proof.Machine.State.localOk (s : State) : Bool :=
  s.cores.all Core.memOk && s.clusters.all (fun x => x.omem.wf && x.side.wf) &&
    s.tasks.all (fun t => t.saved.all fun k => k.core.memOk) && s.hib.imageTasks.all (fun t => t.saved.all fun k => k.core.memOk)

/-- Local and operand memories keep their canonical form in every step. -/
def Obligations.StepKeepsLocalMemoriesCanonical : Prop :=
  ∀ s t : State, s.localOk = true → step s = .next t → t.localOk = true

/-- Reset leaves memories empty and in canonical form, and the registers at the Reset column of their tables. -/
def Obligations.ResetState : Prop :=
  let s := State.reset
  let user := fun (index v : Nat) => ∀ c : CoreId, s.ctlRead c index = some (BitVec.ofNat 64 v)
  let shared := fun (index v : Nat) => s.sharedRead index = some (BitVec.ofNat 64 v)
  s.memOk = true ∧ s.localOk = true ∧ (∀ a, s.hbm.get a = 0) ∧
  user 0x010 0 ∧ user 0x011 0 ∧ user 0x012 0 ∧ user 0x013 0 ∧ user 0x014 0xFFFFFFFF ∧ user 0x015 0 ∧ user 0x016 32 ∧ user 0x018 1 ∧
  user 0x019 0 ∧ user 0x01A 1 ∧ user 0x01B 0 ∧ user 0x020 0 ∧ user 0x021 0 ∧ user 0x022 0 ∧ user 0x023 0 ∧ user 0x024 0 ∧ user 0x025 0 ∧
  user 0x000 0 ∧ (∀ c : CoreId, s.sysLocalRead c 0x07 = some (BitVec.ofNat 64 c.val) ∧ s.sysLocalRead c 0x10 = some 4096 ∧
    s.sysLocalRead c 0x00 = some 0 ∧ s.sysLocalRead c 0x05 = some 0 ∧ (s.core c).codes = Vector.replicate 4 0) ∧
  shared 0x10000 0 ∧ shared 0x10001 0 ∧ shared 0x10002 0 ∧ shared 0x10003 0 ∧ shared 0x10004 0 ∧ shared 0x10100 0 ∧ shared 0x10102 0 ∧
  shared 0x10105 0x40001000 ∧ shared 0x10303 0 ∧ shared 0x10801 0 ∧ shared 0x1080B 0 ∧ shared 0x11004 400 ∧ shared 0x11001 0 ∧
  shared 0x12000 2600 ∧ shared 0x12001 (2600 + 2600 * 2 ^ 16) ∧ shared 0x12003 0 ∧ shared 0x12010 0xFAC688 ∧
  shared 0x12011 (60 + 40 * 2 ^ 8 + 70 * 2 ^ 16)

/-- At launch s1 to s31, p1 to p15, the vector registers and the spill area read zero, every handle is unconfigured, every descriptor is zero,
bd0 to bd15 are 1 and ch0 to ch7 are 0, the user control registers hold their reset values, and rsize holds vfoot rounded down to a multiple of
32, limited to 1,024. -/
def Obligations.LaunchState : Prop :=
  ∀ (c : Core) (t : Task) (r : Region) (x y now : Nat) (wins : Vector Window 8) (entry : Word) (granted : Vector (BitVec 4) 4),
    let k := c.launch t r x y now wins entry granted
    (∀ q, k.rs q = 0) ∧ (∀ q, q ≠ 0 → k.rp q = false) ∧ (∀ n, k.rv n = 0) ∧ (∀ a, k.loc.spill.get a = 0) ∧
    (∀ h : Fin 16, k.handles[h] = none) ∧ (∀ d : Fin 64, k.td[d] = 0) ∧ (∀ b : Fin 16, k.bd[b] = 1) ∧ (∀ e : Fin 8, k.ch[e] = 0) ∧
    k.ctl.fmode = 0 ∧ k.ctl.cvsat = 0 ∧ k.ctl.cvflz = 0 ∧ k.ctl.cvnan = 0 ∧ k.ctl.cvthr = 0xFFFFFFFF ∧ k.ctl.rrb = 0 ∧ k.ctl.rbase = 32 ∧
    k.ctl.rstep = 1 ∧ k.ctl.vwb = 0 ∧ k.ctl.lfsr = 1 ∧ k.ctl.ln = 0 ∧ (∀ n : Fin 4, k.ctl.lc[n] = 0) ∧ k.mx.chain.prog = 0 ∧ k.ctl.lstat = 0 ∧
    k.ctl.rsize.toNat = min 1024 (32 * (t.vfoot / 32)) ∧ k.pc = t.entry ∧ k.cyc = c.cyc
end

