-- ==== Sys2Proof/Laws/Mem.lean ====
section
/-! SUPPORT. The laws of memories: every operation keeps the canonical form, a read after a write, and what a write leaves alone
(log 2). -/

namespace Sys2Proof.Laws

open Sys2Proof Sys2Proof.Machine

@[simp] theorem mem_get_nil (a : Nat) : Mem.get [] a = 0 := rfl

theorem mem_above_mono {x y : Nat} (h : x ≤ y) : ∀ {m : Mem}, m.above y = true → m.above x = true
  | [], _ => rfl
  | (z, _) :: _, hm => by
    simp only [Mem.above, decide_eq_true_eq] at *
    omega

theorem mem_wf_cons {x : Nat} {b : Byte} {t : Mem} :
    Mem.wf ((x, b) :: t) = true ↔ t.above x = true ∧ b ≠ 0 ∧ t.wf = true := by
  simp only [Mem.wf, Bool.and_eq_true, decide_eq_true_eq, and_assoc]
  rfl

/-- A list that lies above an address still does after a write above it. -/
theorem mem_above_set {x a : Nat} {b : Byte} (h : x < a) : ∀ {m : Mem}, m.wf = true → m.above x = true → (m.set a b).above x = true
  | [], _, _ => by
    unfold Mem.set
    split <;> simp [Mem.above, h]
  | (y, c) :: t, hw, hm => by
    obtain ⟨hy, -, -⟩ := mem_wf_cons.1 hw
    have hxy : x < y := by simpa [Mem.above] using hm
    unfold Mem.set
    split
    · split <;> simp [Mem.above, hxy, h]
    · split
      · split
        · exact mem_above_mono hxy.le hy
        · simp [Mem.above, h]
      · simp [Mem.above, hxy]

/-- A write of a byte keeps the canonical form. -/
theorem mem_wf_set {a : Nat} {b : Byte} : ∀ {m : Mem}, m.wf = true → (m.set a b).wf = true
  | [], _ => by
    unfold Mem.set
    split
    · rfl
    · exact mem_wf_cons.2 ⟨rfl, ‹_›, rfl⟩
  | (y, c) :: t, hw => by
    obtain ⟨hy, hc, ht⟩ := mem_wf_cons.1 hw
    unfold Mem.set
    split
    · split
      · exact hw
      · exact mem_wf_cons.2 ⟨by simpa [Mem.above], ‹_›, hw⟩
    · split
      · subst_vars
        split
        · exact ht
        · exact mem_wf_cons.2 ⟨hy, ‹_›, ht⟩
      · exact mem_wf_cons.2 ⟨mem_above_set (by omega) ht hy, hc, mem_wf_set ht⟩

theorem mem_wf_put {m : Mem} {a : Nat} {bs : List Byte} (h : m.wf = true) : (m.put a bs).wf = true := by
  induction bs generalizing m a with
  | nil => exact h
  | cons b bs ih => exact ih (mem_wf_set h)

theorem mem_wf_putNat {m : Mem} {a n v : Nat} (h : m.wf = true) : (m.putNat a n v).wf = true := mem_wf_put h

theorem mem_wf_putCells {m : Mem} {base : Nat} {l : Mem} (h : m.wf = true) : (m.putCells base l).wf = true := by
  induction l generalizing m with
  | nil => exact h
  | cons p t ih => exact ih (mem_wf_set h)

theorem mem_above_filter {x : Nat} (f : Host.Cell → Bool) : ∀ {m : Mem}, m.wf = true → m.above x = true → Mem.above x (m.filter f) = true
  | [], _, _ => rfl
  | (y, c) :: t, hw, hm => by
    obtain ⟨hy, -, ht⟩ := mem_wf_cons.1 hw
    have hxy : x < y := by simpa [Mem.above] using hm
    rw [List.filter_cons]
    split
    · simp [Mem.above, hxy]
    · exact mem_above_filter f ht (mem_above_mono hxy.le hy)

/-- Dropping cells keeps the canonical form. -/
theorem mem_wf_filter (f : Host.Cell → Bool) : ∀ {m : Mem}, m.wf = true → Mem.wf (m.filter f) = true
  | [], _ => rfl
  | (y, c) :: t, hw => by
    obtain ⟨hy, hc, ht⟩ := mem_wf_cons.1 hw
    rw [List.filter_cons]
    split
    · exact mem_wf_cons.2 ⟨mem_above_filter f ht hy, hc, mem_wf_filter f ht⟩
    · exact mem_wf_filter f ht

theorem mem_wf_clear {m : Mem} {a n : Nat} (h : m.wf = true) : (m.clear a n).wf = true := mem_wf_filter _ h

/-- A list above an address lists nothing there. -/
theorem mem_get_above {a : Nat} : ∀ {m : Mem}, m.wf = true → m.above a = true → m.get a = 0
  | [], _, _ => rfl
  | (y, c) :: t, hw, hm => by
    obtain ⟨hy, -, ht⟩ := mem_wf_cons.1 hw
    have hay : a < y := by simpa [Mem.above] using hm
    rw [Mem.get, if_neg (by omega)]
    exact mem_get_above ht (mem_above_mono hay.le hy)

/-- A read after a write to the same address gives the byte written. -/
theorem mem_get_set_same {a : Nat} {b : Byte} : ∀ {m : Mem}, m.wf = true → (m.set a b).get a = b
  | [], _ => by
    unfold Mem.set
    split
    · simp_all [Mem.get, Mem.unwritten]
    · simp [Mem.get]
  | (y, c) :: t, hw => by
    obtain ⟨hy, hc, ht⟩ := mem_wf_cons.1 hw
    unfold Mem.set
    split
    · split
      · rename_i h hb
        rw [mem_get_above hw (by simpa [Mem.above] using h)]
        exact hb.symm
      · simp [Mem.get]
    · split
      · subst_vars
        split
        · rename_i hb
          rw [mem_get_above ht hy]
          exact hb.symm
        · simp [Mem.get]
      · rw [Mem.get, if_neg (by omega)]
        exact mem_get_set_same ht

/-- A write leaves every other address alone. -/
theorem mem_get_set_ne {a x : Nat} {b : Byte} (h : x ≠ a) : ∀ {m : Mem}, (m.set a b).get x = m.get x
  | [] => by
    unfold Mem.set
    split
    · rfl
    · simp [Mem.get, Mem.unwritten, Ne.symm h]
  | (y, c) :: t => by
    unfold Mem.set
    split
    · split
      · rfl
      · simp [Mem.get, Ne.symm h]
    · split
      · subst_vars
        split <;> simp [Mem.get, Ne.symm h]
      · simp only [Mem.get]
        rw [mem_get_set_ne h]

/-- A write of several bytes leaves alone what lies outside them. -/
theorem mem_get_put_ne {m : Mem} {a x : Nat} {bs : List Byte} (h : x < a ∨ a + bs.length ≤ x) : (m.put a bs).get x = m.get x := by
  induction bs generalizing m a with
  | nil => rfl
  | cons b bs ih =>
    simp only [List.length_cons] at h
    rw [Mem.put, ih (by omega), mem_get_set_ne (by omega)]

/-- A read after a write of several bytes. -/
theorem mem_get_put {m : Mem} {a i : Nat} {bs : List Byte} (hw : m.wf = true) (h : i < bs.length) :
    (m.put a bs).get (a + i) = bs[i] := by
  induction bs generalizing m a i with
  | nil => simp at h
  | cons b bs ih =>
    cases i with
    | zero =>
      rw [Mem.put, mem_get_put_ne (by omega)]
      exact mem_get_set_same hw
    | succ i =>
      have := ih (m := m.set a b) (a := a + 1) (i := i) (mem_wf_set hw) (by simpa using h)
      rw [Mem.put, List.getElem_cons_succ, ← this]
      congr 1
      omega

theorem mem_bytes_length (m : Mem) (a n : Nat) : (m.bytes a n).length = n := by
  induction n generalizing a with
  | zero => rfl
  | succ n ih => simp [Mem.bytes, ih]

end Sys2Proof.Laws
end

