-- ==== Sys2Proof/Laws/State.lean ====
section
/-! SUPPORT. What each update of the state leaves alone, field by field, and what it makes of the field it is about. -/

namespace Sys2Proof.Laws

open Sys2Proof Sys2Proof.Machine

/-! ### setCore -/

@[simp] theorem setCore_clusters (s : State) (c : CoreId) (x : Core) : (s.setCore c x).clusters = s.clusters := rfl
@[simp] theorem setCore_engines (s : State) (c : CoreId) (x : Core) : (s.setCore c x).engines = s.engines := rfl
@[simp] theorem setCore_hbm (s : State) (c : CoreId) (x : Core) : (s.setCore c x).hbm = s.hbm := rfl
@[simp] theorem setCore_scm (s : State) (c : CoreId) (x : Core) : (s.setCore c x).scm = s.scm := rfl
@[simp] theorem setCore_scmBuf (s : State) (c : CoreId) (x : Core) : (s.setCore c x).scmBuf = s.scmBuf := rfl
@[simp] theorem setCore_accesses (s : State) (c : CoreId) (x : Core) : (s.setCore c x).accesses = s.accesses := rfl
@[simp] theorem setCore_jobs (s : State) (c : CoreId) (x : Core) : (s.setCore c x).jobs = s.jobs := rfl
@[simp] theorem setCore_nextJob (s : State) (c : CoreId) (x : Core) : (s.setCore c x).nextJob = s.nextJob := rfl
@[simp] theorem setCore_trans (s : State) (c : CoreId) (x : Core) : (s.setCore c x).trans = s.trans := rfl
@[simp] theorem setCore_elog (s : State) (c : CoreId) (x : Core) : (s.setCore c x).elog = s.elog := rfl
@[simp] theorem setCore_rtabBase (s : State) (c : CoreId) (x : Core) : (s.setCore c x).rtabBase = s.rtabBase := rfl
@[simp] theorem setCore_regStat (s : State) (c : CoreId) (x : Core) : (s.setCore c x).regStat = s.regStat := rfl
@[simp] theorem setCore_regions (s : State) (c : CoreId) (x : Core) : (s.setCore c x).regions = s.regions := rfl
@[simp] theorem setCore_tasks (s : State) (c : CoreId) (x : Core) : (s.setCore c x).tasks = s.tasks := rfl
@[simp] theorem setCore_readyCount (s : State) (c : CoreId) (x : Core) : (s.setCore c x).readyCount = s.readyCount := rfl
@[simp] theorem setCore_parts (s : State) (c : CoreId) (x : Core) : (s.setCore c x).parts = s.parts := rfl
@[simp] theorem setCore_power (s : State) (c : CoreId) (x : Core) : (s.setCore c x).power = s.power := rfl
@[simp] theorem setCore_hib (s : State) (c : CoreId) (x : Core) : (s.setCore c x).hib = s.hib := rfl
@[simp] theorem setCore_boot (s : State) (c : CoreId) (x : Core) : (s.setCore c x).boot = s.boot := rfl
@[simp] theorem setCore_leases (s : State) (c : CoreId) (x : Core) : (s.setCore c x).leases = s.leases := rfl
@[simp] theorem setCore_leaseReqs (s : State) (c : CoreId) (x : Core) : (s.setCore c x).leaseReqs = s.leaseReqs := rfl
@[simp] theorem setCore_nextLease (s : State) (c : CoreId) (x : Core) : (s.setCore c x).nextLease = s.nextLease := rfl
@[simp] theorem setCore_leaseSeqs (s : State) (c : CoreId) (x : Core) : (s.setCore c x).leaseSeqs = s.leaseSeqs := rfl
@[simp] theorem setCore_packets (s : State) (c : CoreId) (x : Core) : (s.setCore c x).packets = s.packets := rfl
@[simp] theorem setCore_l2 (s : State) (c : CoreId) (x : Core) : (s.setCore c x).l2 = s.l2 := rfl
@[simp] theorem setCore_charges (s : State) (c : CoreId) (x : Core) : (s.setCore c x).charges = s.charges := rfl
@[simp] theorem setCore_accruedAt (s : State) (c : CoreId) (x : Core) : (s.setCore c x).accruedAt = s.accruedAt := rfl
@[simp] theorem setCore_alloc (s : State) (c : CoreId) (x : Core) : (s.setCore c x).alloc = s.alloc := rfl
@[simp] theorem setCore_strands (s : State) (c : CoreId) (x : Core) : (s.setCore c x).strands = s.strands := rfl
@[simp] theorem setCore_rings (s : State) (c : CoreId) (x : Core) : (s.setCore c x).rings = s.rings := rfl
@[simp] theorem setCore_receivers (s : State) (c : CoreId) (x : Core) : (s.setCore c x).receivers = s.receivers := rfl
@[simp] theorem setCore_lockedAt (s : State) (c : CoreId) (x : Core) : (s.setCore c x).lockedAt = s.lockedAt := rfl
@[simp] theorem setCore_modid (s : State) (c : CoreId) (x : Core) : (s.setCore c x).modid = s.modid := rfl
@[simp] theorem setCore_fabRows (s : State) (c : CoreId) (x : Core) : (s.setCore c x).fabRows = s.fabRows := rfl
@[simp] theorem setCore_fabCols (s : State) (c : CoreId) (x : Core) : (s.setCore c x).fabCols = s.fabCols := rfl
@[simp] theorem setCore_trained (s : State) (c : CoreId) (x : Core) : (s.setCore c x).trained = s.trained := rfl
@[simp] theorem setCore_supEvents (s : State) (c : CoreId) (x : Core) : (s.setCore c x).supEvents = s.supEvents := rfl
@[simp] theorem setCore_nextFence (s : State) (c : CoreId) (x : Core) : (s.setCore c x).nextFence = s.nextFence := rfl
@[simp] theorem setCore_cur (s : State) (c : CoreId) (x : Core) : (s.setCore c x).cur = s.cur := rfl
@[simp] theorem setCore_curSlot (s : State) (c : CoreId) (x : Core) : (s.setCore c x).curSlot = s.curSlot := rfl
@[simp] theorem setCore_curWord (s : State) (c : CoreId) (x : Core) : (s.setCore c x).curWord = s.curWord := rfl
@[simp] theorem setCore_curEng (s : State) (c : CoreId) (x : Core) : (s.setCore c x).curEng = s.curEng := rfl
@[simp] theorem setCore_subj (s : State) (c : CoreId) (x : Core) : (s.setCore c x).subj = s.subj := rfl
@[simp] theorem setCore_now (s : State) (c : CoreId) (x : Core) : (s.setCore c x).now = s.now := rfl
@[simp] theorem setCore_choices (s : State) (c : CoreId) (x : Core) : (s.setCore c x).choices = s.choices := rfl
@[simp] theorem setCore_trial (s : State) (c : CoreId) (x : Core) : (s.setCore c x).trial = s.trial := rfl
@[simp] theorem setCore_met (s : State) (c : CoreId) (x : Core) : (s.setCore c x).met = s.met := rfl
@[simp] theorem setCore_agenda (s : State) (c : CoreId) (x : Core) : (s.setCore c x).agenda = s.agenda := rfl

/-! ### modCore -/

@[simp] theorem modCore_clusters (s : State) (c : CoreId) (f : Core → Core) : (s.modCore c f).clusters = s.clusters := rfl
@[simp] theorem modCore_engines (s : State) (c : CoreId) (f : Core → Core) : (s.modCore c f).engines = s.engines := rfl
@[simp] theorem modCore_hbm (s : State) (c : CoreId) (f : Core → Core) : (s.modCore c f).hbm = s.hbm := rfl
@[simp] theorem modCore_scm (s : State) (c : CoreId) (f : Core → Core) : (s.modCore c f).scm = s.scm := rfl
@[simp] theorem modCore_scmBuf (s : State) (c : CoreId) (f : Core → Core) : (s.modCore c f).scmBuf = s.scmBuf := rfl
@[simp] theorem modCore_accesses (s : State) (c : CoreId) (f : Core → Core) : (s.modCore c f).accesses = s.accesses := rfl
@[simp] theorem modCore_jobs (s : State) (c : CoreId) (f : Core → Core) : (s.modCore c f).jobs = s.jobs := rfl
@[simp] theorem modCore_nextJob (s : State) (c : CoreId) (f : Core → Core) : (s.modCore c f).nextJob = s.nextJob := rfl
@[simp] theorem modCore_trans (s : State) (c : CoreId) (f : Core → Core) : (s.modCore c f).trans = s.trans := rfl
@[simp] theorem modCore_elog (s : State) (c : CoreId) (f : Core → Core) : (s.modCore c f).elog = s.elog := rfl
@[simp] theorem modCore_rtabBase (s : State) (c : CoreId) (f : Core → Core) : (s.modCore c f).rtabBase = s.rtabBase := rfl
@[simp] theorem modCore_regStat (s : State) (c : CoreId) (f : Core → Core) : (s.modCore c f).regStat = s.regStat := rfl
@[simp] theorem modCore_regions (s : State) (c : CoreId) (f : Core → Core) : (s.modCore c f).regions = s.regions := rfl
@[simp] theorem modCore_tasks (s : State) (c : CoreId) (f : Core → Core) : (s.modCore c f).tasks = s.tasks := rfl
@[simp] theorem modCore_readyCount (s : State) (c : CoreId) (f : Core → Core) : (s.modCore c f).readyCount = s.readyCount := rfl
@[simp] theorem modCore_parts (s : State) (c : CoreId) (f : Core → Core) : (s.modCore c f).parts = s.parts := rfl
@[simp] theorem modCore_power (s : State) (c : CoreId) (f : Core → Core) : (s.modCore c f).power = s.power := rfl
@[simp] theorem modCore_hib (s : State) (c : CoreId) (f : Core → Core) : (s.modCore c f).hib = s.hib := rfl
@[simp] theorem modCore_boot (s : State) (c : CoreId) (f : Core → Core) : (s.modCore c f).boot = s.boot := rfl
@[simp] theorem modCore_leases (s : State) (c : CoreId) (f : Core → Core) : (s.modCore c f).leases = s.leases := rfl
@[simp] theorem modCore_leaseReqs (s : State) (c : CoreId) (f : Core → Core) : (s.modCore c f).leaseReqs = s.leaseReqs := rfl
@[simp] theorem modCore_nextLease (s : State) (c : CoreId) (f : Core → Core) : (s.modCore c f).nextLease = s.nextLease := rfl
@[simp] theorem modCore_leaseSeqs (s : State) (c : CoreId) (f : Core → Core) : (s.modCore c f).leaseSeqs = s.leaseSeqs := rfl
@[simp] theorem modCore_packets (s : State) (c : CoreId) (f : Core → Core) : (s.modCore c f).packets = s.packets := rfl
@[simp] theorem modCore_l2 (s : State) (c : CoreId) (f : Core → Core) : (s.modCore c f).l2 = s.l2 := rfl
@[simp] theorem modCore_charges (s : State) (c : CoreId) (f : Core → Core) : (s.modCore c f).charges = s.charges := rfl
@[simp] theorem modCore_accruedAt (s : State) (c : CoreId) (f : Core → Core) : (s.modCore c f).accruedAt = s.accruedAt := rfl
@[simp] theorem modCore_alloc (s : State) (c : CoreId) (f : Core → Core) : (s.modCore c f).alloc = s.alloc := rfl
@[simp] theorem modCore_strands (s : State) (c : CoreId) (f : Core → Core) : (s.modCore c f).strands = s.strands := rfl
@[simp] theorem modCore_rings (s : State) (c : CoreId) (f : Core → Core) : (s.modCore c f).rings = s.rings := rfl
@[simp] theorem modCore_receivers (s : State) (c : CoreId) (f : Core → Core) : (s.modCore c f).receivers = s.receivers := rfl
@[simp] theorem modCore_lockedAt (s : State) (c : CoreId) (f : Core → Core) : (s.modCore c f).lockedAt = s.lockedAt := rfl
@[simp] theorem modCore_modid (s : State) (c : CoreId) (f : Core → Core) : (s.modCore c f).modid = s.modid := rfl
@[simp] theorem modCore_fabRows (s : State) (c : CoreId) (f : Core → Core) : (s.modCore c f).fabRows = s.fabRows := rfl
@[simp] theorem modCore_fabCols (s : State) (c : CoreId) (f : Core → Core) : (s.modCore c f).fabCols = s.fabCols := rfl
@[simp] theorem modCore_trained (s : State) (c : CoreId) (f : Core → Core) : (s.modCore c f).trained = s.trained := rfl
@[simp] theorem modCore_supEvents (s : State) (c : CoreId) (f : Core → Core) : (s.modCore c f).supEvents = s.supEvents := rfl
@[simp] theorem modCore_nextFence (s : State) (c : CoreId) (f : Core → Core) : (s.modCore c f).nextFence = s.nextFence := rfl
@[simp] theorem modCore_cur (s : State) (c : CoreId) (f : Core → Core) : (s.modCore c f).cur = s.cur := rfl
@[simp] theorem modCore_curSlot (s : State) (c : CoreId) (f : Core → Core) : (s.modCore c f).curSlot = s.curSlot := rfl
@[simp] theorem modCore_curWord (s : State) (c : CoreId) (f : Core → Core) : (s.modCore c f).curWord = s.curWord := rfl
@[simp] theorem modCore_curEng (s : State) (c : CoreId) (f : Core → Core) : (s.modCore c f).curEng = s.curEng := rfl
@[simp] theorem modCore_subj (s : State) (c : CoreId) (f : Core → Core) : (s.modCore c f).subj = s.subj := rfl
@[simp] theorem modCore_now (s : State) (c : CoreId) (f : Core → Core) : (s.modCore c f).now = s.now := rfl
@[simp] theorem modCore_choices (s : State) (c : CoreId) (f : Core → Core) : (s.modCore c f).choices = s.choices := rfl
@[simp] theorem modCore_trial (s : State) (c : CoreId) (f : Core → Core) : (s.modCore c f).trial = s.trial := rfl
@[simp] theorem modCore_met (s : State) (c : CoreId) (f : Core → Core) : (s.modCore c f).met = s.met := rfl
@[simp] theorem modCore_agenda (s : State) (c : CoreId) (f : Core → Core) : (s.modCore c f).agenda = s.agenda := rfl

/-! ### modMe -/

@[simp] theorem modMe_clusters (s : State) (f : Core → Core) : (s.modMe f).clusters = s.clusters := rfl
@[simp] theorem modMe_engines (s : State) (f : Core → Core) : (s.modMe f).engines = s.engines := rfl
@[simp] theorem modMe_hbm (s : State) (f : Core → Core) : (s.modMe f).hbm = s.hbm := rfl
@[simp] theorem modMe_scm (s : State) (f : Core → Core) : (s.modMe f).scm = s.scm := rfl
@[simp] theorem modMe_scmBuf (s : State) (f : Core → Core) : (s.modMe f).scmBuf = s.scmBuf := rfl
@[simp] theorem modMe_accesses (s : State) (f : Core → Core) : (s.modMe f).accesses = s.accesses := rfl
@[simp] theorem modMe_jobs (s : State) (f : Core → Core) : (s.modMe f).jobs = s.jobs := rfl
@[simp] theorem modMe_nextJob (s : State) (f : Core → Core) : (s.modMe f).nextJob = s.nextJob := rfl
@[simp] theorem modMe_trans (s : State) (f : Core → Core) : (s.modMe f).trans = s.trans := rfl
@[simp] theorem modMe_elog (s : State) (f : Core → Core) : (s.modMe f).elog = s.elog := rfl
@[simp] theorem modMe_rtabBase (s : State) (f : Core → Core) : (s.modMe f).rtabBase = s.rtabBase := rfl
@[simp] theorem modMe_regStat (s : State) (f : Core → Core) : (s.modMe f).regStat = s.regStat := rfl
@[simp] theorem modMe_regions (s : State) (f : Core → Core) : (s.modMe f).regions = s.regions := rfl
@[simp] theorem modMe_tasks (s : State) (f : Core → Core) : (s.modMe f).tasks = s.tasks := rfl
@[simp] theorem modMe_readyCount (s : State) (f : Core → Core) : (s.modMe f).readyCount = s.readyCount := rfl
@[simp] theorem modMe_parts (s : State) (f : Core → Core) : (s.modMe f).parts = s.parts := rfl
@[simp] theorem modMe_power (s : State) (f : Core → Core) : (s.modMe f).power = s.power := rfl
@[simp] theorem modMe_hib (s : State) (f : Core → Core) : (s.modMe f).hib = s.hib := rfl
@[simp] theorem modMe_boot (s : State) (f : Core → Core) : (s.modMe f).boot = s.boot := rfl
@[simp] theorem modMe_leases (s : State) (f : Core → Core) : (s.modMe f).leases = s.leases := rfl
@[simp] theorem modMe_leaseReqs (s : State) (f : Core → Core) : (s.modMe f).leaseReqs = s.leaseReqs := rfl
@[simp] theorem modMe_nextLease (s : State) (f : Core → Core) : (s.modMe f).nextLease = s.nextLease := rfl
@[simp] theorem modMe_leaseSeqs (s : State) (f : Core → Core) : (s.modMe f).leaseSeqs = s.leaseSeqs := rfl
@[simp] theorem modMe_packets (s : State) (f : Core → Core) : (s.modMe f).packets = s.packets := rfl
@[simp] theorem modMe_l2 (s : State) (f : Core → Core) : (s.modMe f).l2 = s.l2 := rfl
@[simp] theorem modMe_charges (s : State) (f : Core → Core) : (s.modMe f).charges = s.charges := rfl
@[simp] theorem modMe_accruedAt (s : State) (f : Core → Core) : (s.modMe f).accruedAt = s.accruedAt := rfl
@[simp] theorem modMe_alloc (s : State) (f : Core → Core) : (s.modMe f).alloc = s.alloc := rfl
@[simp] theorem modMe_strands (s : State) (f : Core → Core) : (s.modMe f).strands = s.strands := rfl
@[simp] theorem modMe_rings (s : State) (f : Core → Core) : (s.modMe f).rings = s.rings := rfl
@[simp] theorem modMe_receivers (s : State) (f : Core → Core) : (s.modMe f).receivers = s.receivers := rfl
@[simp] theorem modMe_lockedAt (s : State) (f : Core → Core) : (s.modMe f).lockedAt = s.lockedAt := rfl
@[simp] theorem modMe_modid (s : State) (f : Core → Core) : (s.modMe f).modid = s.modid := rfl
@[simp] theorem modMe_fabRows (s : State) (f : Core → Core) : (s.modMe f).fabRows = s.fabRows := rfl
@[simp] theorem modMe_fabCols (s : State) (f : Core → Core) : (s.modMe f).fabCols = s.fabCols := rfl
@[simp] theorem modMe_trained (s : State) (f : Core → Core) : (s.modMe f).trained = s.trained := rfl
@[simp] theorem modMe_supEvents (s : State) (f : Core → Core) : (s.modMe f).supEvents = s.supEvents := rfl
@[simp] theorem modMe_nextFence (s : State) (f : Core → Core) : (s.modMe f).nextFence = s.nextFence := rfl
@[simp] theorem modMe_cur (s : State) (f : Core → Core) : (s.modMe f).cur = s.cur := rfl
@[simp] theorem modMe_curSlot (s : State) (f : Core → Core) : (s.modMe f).curSlot = s.curSlot := rfl
@[simp] theorem modMe_curWord (s : State) (f : Core → Core) : (s.modMe f).curWord = s.curWord := rfl
@[simp] theorem modMe_curEng (s : State) (f : Core → Core) : (s.modMe f).curEng = s.curEng := rfl
@[simp] theorem modMe_subj (s : State) (f : Core → Core) : (s.modMe f).subj = s.subj := rfl
@[simp] theorem modMe_now (s : State) (f : Core → Core) : (s.modMe f).now = s.now := rfl
@[simp] theorem modMe_choices (s : State) (f : Core → Core) : (s.modMe f).choices = s.choices := rfl
@[simp] theorem modMe_trial (s : State) (f : Core → Core) : (s.modMe f).trial = s.trial := rfl
@[simp] theorem modMe_met (s : State) (f : Core → Core) : (s.modMe f).met = s.met := rfl
@[simp] theorem modMe_agenda (s : State) (f : Core → Core) : (s.modMe f).agenda = s.agenda := rfl

/-! ### emit -/

@[simp] theorem emit_clusters (s : State) (n : Nat) (r : Result) : (s.emit n r).clusters = s.clusters := rfl
@[simp] theorem emit_engines (s : State) (n : Nat) (r : Result) : (s.emit n r).engines = s.engines := rfl
@[simp] theorem emit_hbm (s : State) (n : Nat) (r : Result) : (s.emit n r).hbm = s.hbm := rfl
@[simp] theorem emit_scm (s : State) (n : Nat) (r : Result) : (s.emit n r).scm = s.scm := rfl
@[simp] theorem emit_scmBuf (s : State) (n : Nat) (r : Result) : (s.emit n r).scmBuf = s.scmBuf := rfl
@[simp] theorem emit_accesses (s : State) (n : Nat) (r : Result) : (s.emit n r).accesses = s.accesses := rfl
@[simp] theorem emit_jobs (s : State) (n : Nat) (r : Result) : (s.emit n r).jobs = s.jobs := rfl
@[simp] theorem emit_nextJob (s : State) (n : Nat) (r : Result) : (s.emit n r).nextJob = s.nextJob := rfl
@[simp] theorem emit_trans (s : State) (n : Nat) (r : Result) : (s.emit n r).trans = s.trans := rfl
@[simp] theorem emit_elog (s : State) (n : Nat) (r : Result) : (s.emit n r).elog = s.elog := rfl
@[simp] theorem emit_rtabBase (s : State) (n : Nat) (r : Result) : (s.emit n r).rtabBase = s.rtabBase := rfl
@[simp] theorem emit_regStat (s : State) (n : Nat) (r : Result) : (s.emit n r).regStat = s.regStat := rfl
@[simp] theorem emit_regions (s : State) (n : Nat) (r : Result) : (s.emit n r).regions = s.regions := rfl
@[simp] theorem emit_tasks (s : State) (n : Nat) (r : Result) : (s.emit n r).tasks = s.tasks := rfl
@[simp] theorem emit_readyCount (s : State) (n : Nat) (r : Result) : (s.emit n r).readyCount = s.readyCount := rfl
@[simp] theorem emit_parts (s : State) (n : Nat) (r : Result) : (s.emit n r).parts = s.parts := rfl
@[simp] theorem emit_power (s : State) (n : Nat) (r : Result) : (s.emit n r).power = s.power := rfl
@[simp] theorem emit_hib (s : State) (n : Nat) (r : Result) : (s.emit n r).hib = s.hib := rfl
@[simp] theorem emit_boot (s : State) (n : Nat) (r : Result) : (s.emit n r).boot = s.boot := rfl
@[simp] theorem emit_leases (s : State) (n : Nat) (r : Result) : (s.emit n r).leases = s.leases := rfl
@[simp] theorem emit_leaseReqs (s : State) (n : Nat) (r : Result) : (s.emit n r).leaseReqs = s.leaseReqs := rfl
@[simp] theorem emit_nextLease (s : State) (n : Nat) (r : Result) : (s.emit n r).nextLease = s.nextLease := rfl
@[simp] theorem emit_leaseSeqs (s : State) (n : Nat) (r : Result) : (s.emit n r).leaseSeqs = s.leaseSeqs := rfl
@[simp] theorem emit_packets (s : State) (n : Nat) (r : Result) : (s.emit n r).packets = s.packets := rfl
@[simp] theorem emit_l2 (s : State) (n : Nat) (r : Result) : (s.emit n r).l2 = s.l2 := rfl
@[simp] theorem emit_charges (s : State) (n : Nat) (r : Result) : (s.emit n r).charges = s.charges := rfl
@[simp] theorem emit_accruedAt (s : State) (n : Nat) (r : Result) : (s.emit n r).accruedAt = s.accruedAt := rfl
@[simp] theorem emit_alloc (s : State) (n : Nat) (r : Result) : (s.emit n r).alloc = s.alloc := rfl
@[simp] theorem emit_strands (s : State) (n : Nat) (r : Result) : (s.emit n r).strands = s.strands := rfl
@[simp] theorem emit_rings (s : State) (n : Nat) (r : Result) : (s.emit n r).rings = s.rings := rfl
@[simp] theorem emit_receivers (s : State) (n : Nat) (r : Result) : (s.emit n r).receivers = s.receivers := rfl
@[simp] theorem emit_lockedAt (s : State) (n : Nat) (r : Result) : (s.emit n r).lockedAt = s.lockedAt := rfl
@[simp] theorem emit_modid (s : State) (n : Nat) (r : Result) : (s.emit n r).modid = s.modid := rfl
@[simp] theorem emit_fabRows (s : State) (n : Nat) (r : Result) : (s.emit n r).fabRows = s.fabRows := rfl
@[simp] theorem emit_fabCols (s : State) (n : Nat) (r : Result) : (s.emit n r).fabCols = s.fabCols := rfl
@[simp] theorem emit_trained (s : State) (n : Nat) (r : Result) : (s.emit n r).trained = s.trained := rfl
@[simp] theorem emit_supEvents (s : State) (n : Nat) (r : Result) : (s.emit n r).supEvents = s.supEvents := rfl
@[simp] theorem emit_nextFence (s : State) (n : Nat) (r : Result) : (s.emit n r).nextFence = s.nextFence := rfl
@[simp] theorem emit_cur (s : State) (n : Nat) (r : Result) : (s.emit n r).cur = s.cur := rfl
@[simp] theorem emit_curSlot (s : State) (n : Nat) (r : Result) : (s.emit n r).curSlot = s.curSlot := rfl
@[simp] theorem emit_curWord (s : State) (n : Nat) (r : Result) : (s.emit n r).curWord = s.curWord := rfl
@[simp] theorem emit_curEng (s : State) (n : Nat) (r : Result) : (s.emit n r).curEng = s.curEng := rfl
@[simp] theorem emit_subj (s : State) (n : Nat) (r : Result) : (s.emit n r).subj = s.subj := rfl
@[simp] theorem emit_now (s : State) (n : Nat) (r : Result) : (s.emit n r).now = s.now := rfl
@[simp] theorem emit_choices (s : State) (n : Nat) (r : Result) : (s.emit n r).choices = s.choices := rfl
@[simp] theorem emit_trial (s : State) (n : Nat) (r : Result) : (s.emit n r).trial = s.trial := rfl
@[simp] theorem emit_met (s : State) (n : Nat) (r : Result) : (s.emit n r).met = s.met := rfl
@[simp] theorem emit_agenda (s : State) (n : Nat) (r : Result) : (s.emit n r).agenda = s.agenda := rfl

/-! ### emitV -/

@[simp] theorem emitV_clusters (s : State) (n : Nat) (r : Result) : (s.emitV n r).clusters = s.clusters := rfl
@[simp] theorem emitV_engines (s : State) (n : Nat) (r : Result) : (s.emitV n r).engines = s.engines := rfl
@[simp] theorem emitV_hbm (s : State) (n : Nat) (r : Result) : (s.emitV n r).hbm = s.hbm := rfl
@[simp] theorem emitV_scm (s : State) (n : Nat) (r : Result) : (s.emitV n r).scm = s.scm := rfl
@[simp] theorem emitV_scmBuf (s : State) (n : Nat) (r : Result) : (s.emitV n r).scmBuf = s.scmBuf := rfl
@[simp] theorem emitV_accesses (s : State) (n : Nat) (r : Result) : (s.emitV n r).accesses = s.accesses := rfl
@[simp] theorem emitV_jobs (s : State) (n : Nat) (r : Result) : (s.emitV n r).jobs = s.jobs := rfl
@[simp] theorem emitV_nextJob (s : State) (n : Nat) (r : Result) : (s.emitV n r).nextJob = s.nextJob := rfl
@[simp] theorem emitV_trans (s : State) (n : Nat) (r : Result) : (s.emitV n r).trans = s.trans := rfl
@[simp] theorem emitV_elog (s : State) (n : Nat) (r : Result) : (s.emitV n r).elog = s.elog := rfl
@[simp] theorem emitV_rtabBase (s : State) (n : Nat) (r : Result) : (s.emitV n r).rtabBase = s.rtabBase := rfl
@[simp] theorem emitV_regStat (s : State) (n : Nat) (r : Result) : (s.emitV n r).regStat = s.regStat := rfl
@[simp] theorem emitV_regions (s : State) (n : Nat) (r : Result) : (s.emitV n r).regions = s.regions := rfl
@[simp] theorem emitV_tasks (s : State) (n : Nat) (r : Result) : (s.emitV n r).tasks = s.tasks := rfl
@[simp] theorem emitV_readyCount (s : State) (n : Nat) (r : Result) : (s.emitV n r).readyCount = s.readyCount := rfl
@[simp] theorem emitV_parts (s : State) (n : Nat) (r : Result) : (s.emitV n r).parts = s.parts := rfl
@[simp] theorem emitV_power (s : State) (n : Nat) (r : Result) : (s.emitV n r).power = s.power := rfl
@[simp] theorem emitV_hib (s : State) (n : Nat) (r : Result) : (s.emitV n r).hib = s.hib := rfl
@[simp] theorem emitV_boot (s : State) (n : Nat) (r : Result) : (s.emitV n r).boot = s.boot := rfl
@[simp] theorem emitV_leases (s : State) (n : Nat) (r : Result) : (s.emitV n r).leases = s.leases := rfl
@[simp] theorem emitV_leaseReqs (s : State) (n : Nat) (r : Result) : (s.emitV n r).leaseReqs = s.leaseReqs := rfl
@[simp] theorem emitV_nextLease (s : State) (n : Nat) (r : Result) : (s.emitV n r).nextLease = s.nextLease := rfl
@[simp] theorem emitV_leaseSeqs (s : State) (n : Nat) (r : Result) : (s.emitV n r).leaseSeqs = s.leaseSeqs := rfl
@[simp] theorem emitV_packets (s : State) (n : Nat) (r : Result) : (s.emitV n r).packets = s.packets := rfl
@[simp] theorem emitV_l2 (s : State) (n : Nat) (r : Result) : (s.emitV n r).l2 = s.l2 := rfl
@[simp] theorem emitV_charges (s : State) (n : Nat) (r : Result) : (s.emitV n r).charges = s.charges := rfl
@[simp] theorem emitV_accruedAt (s : State) (n : Nat) (r : Result) : (s.emitV n r).accruedAt = s.accruedAt := rfl
@[simp] theorem emitV_alloc (s : State) (n : Nat) (r : Result) : (s.emitV n r).alloc = s.alloc := rfl
@[simp] theorem emitV_strands (s : State) (n : Nat) (r : Result) : (s.emitV n r).strands = s.strands := rfl
@[simp] theorem emitV_rings (s : State) (n : Nat) (r : Result) : (s.emitV n r).rings = s.rings := rfl
@[simp] theorem emitV_receivers (s : State) (n : Nat) (r : Result) : (s.emitV n r).receivers = s.receivers := rfl
@[simp] theorem emitV_lockedAt (s : State) (n : Nat) (r : Result) : (s.emitV n r).lockedAt = s.lockedAt := rfl
@[simp] theorem emitV_modid (s : State) (n : Nat) (r : Result) : (s.emitV n r).modid = s.modid := rfl
@[simp] theorem emitV_fabRows (s : State) (n : Nat) (r : Result) : (s.emitV n r).fabRows = s.fabRows := rfl
@[simp] theorem emitV_fabCols (s : State) (n : Nat) (r : Result) : (s.emitV n r).fabCols = s.fabCols := rfl
@[simp] theorem emitV_trained (s : State) (n : Nat) (r : Result) : (s.emitV n r).trained = s.trained := rfl
@[simp] theorem emitV_supEvents (s : State) (n : Nat) (r : Result) : (s.emitV n r).supEvents = s.supEvents := rfl
@[simp] theorem emitV_nextFence (s : State) (n : Nat) (r : Result) : (s.emitV n r).nextFence = s.nextFence := rfl
@[simp] theorem emitV_cur (s : State) (n : Nat) (r : Result) : (s.emitV n r).cur = s.cur := rfl
@[simp] theorem emitV_curSlot (s : State) (n : Nat) (r : Result) : (s.emitV n r).curSlot = s.curSlot := rfl
@[simp] theorem emitV_curWord (s : State) (n : Nat) (r : Result) : (s.emitV n r).curWord = s.curWord := rfl
@[simp] theorem emitV_curEng (s : State) (n : Nat) (r : Result) : (s.emitV n r).curEng = s.curEng := rfl
@[simp] theorem emitV_subj (s : State) (n : Nat) (r : Result) : (s.emitV n r).subj = s.subj := rfl
@[simp] theorem emitV_now (s : State) (n : Nat) (r : Result) : (s.emitV n r).now = s.now := rfl
@[simp] theorem emitV_choices (s : State) (n : Nat) (r : Result) : (s.emitV n r).choices = s.choices := rfl
@[simp] theorem emitV_trial (s : State) (n : Nat) (r : Result) : (s.emitV n r).trial = s.trial := rfl
@[simp] theorem emitV_met (s : State) (n : Nat) (r : Result) : (s.emitV n r).met = s.met := rfl
@[simp] theorem emitV_agenda (s : State) (n : Nat) (r : Result) : (s.emitV n r).agenda = s.agenda := rfl

/-! ### emitLoad -/

@[simp] theorem emitLoad_clusters (s : State) (n a k : Nat) (d : LoadDest) : (s.emitLoad n a k d).clusters = s.clusters := rfl
@[simp] theorem emitLoad_engines (s : State) (n a k : Nat) (d : LoadDest) : (s.emitLoad n a k d).engines = s.engines := rfl
@[simp] theorem emitLoad_hbm (s : State) (n a k : Nat) (d : LoadDest) : (s.emitLoad n a k d).hbm = s.hbm := rfl
@[simp] theorem emitLoad_scm (s : State) (n a k : Nat) (d : LoadDest) : (s.emitLoad n a k d).scm = s.scm := rfl
@[simp] theorem emitLoad_scmBuf (s : State) (n a k : Nat) (d : LoadDest) : (s.emitLoad n a k d).scmBuf = s.scmBuf := rfl
@[simp] theorem emitLoad_accesses (s : State) (n a k : Nat) (d : LoadDest) : (s.emitLoad n a k d).accesses = s.accesses := rfl
@[simp] theorem emitLoad_jobs (s : State) (n a k : Nat) (d : LoadDest) : (s.emitLoad n a k d).jobs = s.jobs := rfl
@[simp] theorem emitLoad_nextJob (s : State) (n a k : Nat) (d : LoadDest) : (s.emitLoad n a k d).nextJob = s.nextJob := rfl
@[simp] theorem emitLoad_trans (s : State) (n a k : Nat) (d : LoadDest) : (s.emitLoad n a k d).trans = s.trans := rfl
@[simp] theorem emitLoad_elog (s : State) (n a k : Nat) (d : LoadDest) : (s.emitLoad n a k d).elog = s.elog := rfl
@[simp] theorem emitLoad_rtabBase (s : State) (n a k : Nat) (d : LoadDest) : (s.emitLoad n a k d).rtabBase = s.rtabBase := rfl
@[simp] theorem emitLoad_regStat (s : State) (n a k : Nat) (d : LoadDest) : (s.emitLoad n a k d).regStat = s.regStat := rfl
@[simp] theorem emitLoad_regions (s : State) (n a k : Nat) (d : LoadDest) : (s.emitLoad n a k d).regions = s.regions := rfl
@[simp] theorem emitLoad_tasks (s : State) (n a k : Nat) (d : LoadDest) : (s.emitLoad n a k d).tasks = s.tasks := rfl
@[simp] theorem emitLoad_readyCount (s : State) (n a k : Nat) (d : LoadDest) : (s.emitLoad n a k d).readyCount = s.readyCount := rfl
@[simp] theorem emitLoad_parts (s : State) (n a k : Nat) (d : LoadDest) : (s.emitLoad n a k d).parts = s.parts := rfl
@[simp] theorem emitLoad_power (s : State) (n a k : Nat) (d : LoadDest) : (s.emitLoad n a k d).power = s.power := rfl
@[simp] theorem emitLoad_hib (s : State) (n a k : Nat) (d : LoadDest) : (s.emitLoad n a k d).hib = s.hib := rfl
@[simp] theorem emitLoad_boot (s : State) (n a k : Nat) (d : LoadDest) : (s.emitLoad n a k d).boot = s.boot := rfl
@[simp] theorem emitLoad_leases (s : State) (n a k : Nat) (d : LoadDest) : (s.emitLoad n a k d).leases = s.leases := rfl
@[simp] theorem emitLoad_leaseReqs (s : State) (n a k : Nat) (d : LoadDest) : (s.emitLoad n a k d).leaseReqs = s.leaseReqs := rfl
@[simp] theorem emitLoad_nextLease (s : State) (n a k : Nat) (d : LoadDest) : (s.emitLoad n a k d).nextLease = s.nextLease := rfl
@[simp] theorem emitLoad_leaseSeqs (s : State) (n a k : Nat) (d : LoadDest) : (s.emitLoad n a k d).leaseSeqs = s.leaseSeqs := rfl
@[simp] theorem emitLoad_packets (s : State) (n a k : Nat) (d : LoadDest) : (s.emitLoad n a k d).packets = s.packets := rfl
@[simp] theorem emitLoad_l2 (s : State) (n a k : Nat) (d : LoadDest) : (s.emitLoad n a k d).l2 = s.l2 := rfl
@[simp] theorem emitLoad_charges (s : State) (n a k : Nat) (d : LoadDest) : (s.emitLoad n a k d).charges = s.charges := rfl
@[simp] theorem emitLoad_accruedAt (s : State) (n a k : Nat) (d : LoadDest) : (s.emitLoad n a k d).accruedAt = s.accruedAt := rfl
@[simp] theorem emitLoad_alloc (s : State) (n a k : Nat) (d : LoadDest) : (s.emitLoad n a k d).alloc = s.alloc := rfl
@[simp] theorem emitLoad_strands (s : State) (n a k : Nat) (d : LoadDest) : (s.emitLoad n a k d).strands = s.strands := rfl
@[simp] theorem emitLoad_rings (s : State) (n a k : Nat) (d : LoadDest) : (s.emitLoad n a k d).rings = s.rings := rfl
@[simp] theorem emitLoad_receivers (s : State) (n a k : Nat) (d : LoadDest) : (s.emitLoad n a k d).receivers = s.receivers := rfl
@[simp] theorem emitLoad_lockedAt (s : State) (n a k : Nat) (d : LoadDest) : (s.emitLoad n a k d).lockedAt = s.lockedAt := rfl
@[simp] theorem emitLoad_modid (s : State) (n a k : Nat) (d : LoadDest) : (s.emitLoad n a k d).modid = s.modid := rfl
@[simp] theorem emitLoad_fabRows (s : State) (n a k : Nat) (d : LoadDest) : (s.emitLoad n a k d).fabRows = s.fabRows := rfl
@[simp] theorem emitLoad_fabCols (s : State) (n a k : Nat) (d : LoadDest) : (s.emitLoad n a k d).fabCols = s.fabCols := rfl
@[simp] theorem emitLoad_trained (s : State) (n a k : Nat) (d : LoadDest) : (s.emitLoad n a k d).trained = s.trained := rfl
@[simp] theorem emitLoad_supEvents (s : State) (n a k : Nat) (d : LoadDest) : (s.emitLoad n a k d).supEvents = s.supEvents := rfl
@[simp] theorem emitLoad_nextFence (s : State) (n a k : Nat) (d : LoadDest) : (s.emitLoad n a k d).nextFence = s.nextFence := rfl
@[simp] theorem emitLoad_cur (s : State) (n a k : Nat) (d : LoadDest) : (s.emitLoad n a k d).cur = s.cur := rfl
@[simp] theorem emitLoad_curSlot (s : State) (n a k : Nat) (d : LoadDest) : (s.emitLoad n a k d).curSlot = s.curSlot := rfl
@[simp] theorem emitLoad_curWord (s : State) (n a k : Nat) (d : LoadDest) : (s.emitLoad n a k d).curWord = s.curWord := rfl
@[simp] theorem emitLoad_curEng (s : State) (n a k : Nat) (d : LoadDest) : (s.emitLoad n a k d).curEng = s.curEng := rfl
@[simp] theorem emitLoad_subj (s : State) (n a k : Nat) (d : LoadDest) : (s.emitLoad n a k d).subj = s.subj := rfl
@[simp] theorem emitLoad_now (s : State) (n a k : Nat) (d : LoadDest) : (s.emitLoad n a k d).now = s.now := rfl
@[simp] theorem emitLoad_choices (s : State) (n a k : Nat) (d : LoadDest) : (s.emitLoad n a k d).choices = s.choices := rfl
@[simp] theorem emitLoad_trial (s : State) (n a k : Nat) (d : LoadDest) : (s.emitLoad n a k d).trial = s.trial := rfl
@[simp] theorem emitLoad_met (s : State) (n a k : Nat) (d : LoadDest) : (s.emitLoad n a k d).met = s.met := rfl
@[simp] theorem emitLoad_agenda (s : State) (n a k : Nat) (d : LoadDest) : (s.emitLoad n a k d).agenda = s.agenda := rfl

/-! ### emitStore -/

@[simp] theorem emitStore_clusters (s : State) (a : Nat) (l : List Byte) (h : Bool) : (s.emitStore a l h).clusters = s.clusters := rfl
@[simp] theorem emitStore_engines (s : State) (a : Nat) (l : List Byte) (h : Bool) : (s.emitStore a l h).engines = s.engines := rfl
@[simp] theorem emitStore_hbm (s : State) (a : Nat) (l : List Byte) (h : Bool) : (s.emitStore a l h).hbm = s.hbm := rfl
@[simp] theorem emitStore_scm (s : State) (a : Nat) (l : List Byte) (h : Bool) : (s.emitStore a l h).scm = s.scm := rfl
@[simp] theorem emitStore_scmBuf (s : State) (a : Nat) (l : List Byte) (h : Bool) : (s.emitStore a l h).scmBuf = s.scmBuf := rfl
@[simp] theorem emitStore_accesses (s : State) (a : Nat) (l : List Byte) (h : Bool) : (s.emitStore a l h).accesses = s.accesses := rfl
@[simp] theorem emitStore_jobs (s : State) (a : Nat) (l : List Byte) (h : Bool) : (s.emitStore a l h).jobs = s.jobs := rfl
@[simp] theorem emitStore_nextJob (s : State) (a : Nat) (l : List Byte) (h : Bool) : (s.emitStore a l h).nextJob = s.nextJob := rfl
@[simp] theorem emitStore_trans (s : State) (a : Nat) (l : List Byte) (h : Bool) : (s.emitStore a l h).trans = s.trans := rfl
@[simp] theorem emitStore_elog (s : State) (a : Nat) (l : List Byte) (h : Bool) : (s.emitStore a l h).elog = s.elog := rfl
@[simp] theorem emitStore_rtabBase (s : State) (a : Nat) (l : List Byte) (h : Bool) : (s.emitStore a l h).rtabBase = s.rtabBase := rfl
@[simp] theorem emitStore_regStat (s : State) (a : Nat) (l : List Byte) (h : Bool) : (s.emitStore a l h).regStat = s.regStat := rfl
@[simp] theorem emitStore_regions (s : State) (a : Nat) (l : List Byte) (h : Bool) : (s.emitStore a l h).regions = s.regions := rfl
@[simp] theorem emitStore_tasks (s : State) (a : Nat) (l : List Byte) (h : Bool) : (s.emitStore a l h).tasks = s.tasks := rfl
@[simp] theorem emitStore_readyCount (s : State) (a : Nat) (l : List Byte) (h : Bool) : (s.emitStore a l h).readyCount = s.readyCount := rfl
@[simp] theorem emitStore_parts (s : State) (a : Nat) (l : List Byte) (h : Bool) : (s.emitStore a l h).parts = s.parts := rfl
@[simp] theorem emitStore_power (s : State) (a : Nat) (l : List Byte) (h : Bool) : (s.emitStore a l h).power = s.power := rfl
@[simp] theorem emitStore_hib (s : State) (a : Nat) (l : List Byte) (h : Bool) : (s.emitStore a l h).hib = s.hib := rfl
@[simp] theorem emitStore_boot (s : State) (a : Nat) (l : List Byte) (h : Bool) : (s.emitStore a l h).boot = s.boot := rfl
@[simp] theorem emitStore_leases (s : State) (a : Nat) (l : List Byte) (h : Bool) : (s.emitStore a l h).leases = s.leases := rfl
@[simp] theorem emitStore_leaseReqs (s : State) (a : Nat) (l : List Byte) (h : Bool) : (s.emitStore a l h).leaseReqs = s.leaseReqs := rfl
@[simp] theorem emitStore_nextLease (s : State) (a : Nat) (l : List Byte) (h : Bool) : (s.emitStore a l h).nextLease = s.nextLease := rfl
@[simp] theorem emitStore_leaseSeqs (s : State) (a : Nat) (l : List Byte) (h : Bool) : (s.emitStore a l h).leaseSeqs = s.leaseSeqs := rfl
@[simp] theorem emitStore_packets (s : State) (a : Nat) (l : List Byte) (h : Bool) : (s.emitStore a l h).packets = s.packets := rfl
@[simp] theorem emitStore_l2 (s : State) (a : Nat) (l : List Byte) (h : Bool) : (s.emitStore a l h).l2 = s.l2 := rfl
@[simp] theorem emitStore_charges (s : State) (a : Nat) (l : List Byte) (h : Bool) : (s.emitStore a l h).charges = s.charges := rfl
@[simp] theorem emitStore_accruedAt (s : State) (a : Nat) (l : List Byte) (h : Bool) : (s.emitStore a l h).accruedAt = s.accruedAt := rfl
@[simp] theorem emitStore_alloc (s : State) (a : Nat) (l : List Byte) (h : Bool) : (s.emitStore a l h).alloc = s.alloc := rfl
@[simp] theorem emitStore_strands (s : State) (a : Nat) (l : List Byte) (h : Bool) : (s.emitStore a l h).strands = s.strands := rfl
@[simp] theorem emitStore_rings (s : State) (a : Nat) (l : List Byte) (h : Bool) : (s.emitStore a l h).rings = s.rings := rfl
@[simp] theorem emitStore_receivers (s : State) (a : Nat) (l : List Byte) (h : Bool) : (s.emitStore a l h).receivers = s.receivers := rfl
@[simp] theorem emitStore_lockedAt (s : State) (a : Nat) (l : List Byte) (h : Bool) : (s.emitStore a l h).lockedAt = s.lockedAt := rfl
@[simp] theorem emitStore_modid (s : State) (a : Nat) (l : List Byte) (h : Bool) : (s.emitStore a l h).modid = s.modid := rfl
@[simp] theorem emitStore_fabRows (s : State) (a : Nat) (l : List Byte) (h : Bool) : (s.emitStore a l h).fabRows = s.fabRows := rfl
@[simp] theorem emitStore_fabCols (s : State) (a : Nat) (l : List Byte) (h : Bool) : (s.emitStore a l h).fabCols = s.fabCols := rfl
@[simp] theorem emitStore_trained (s : State) (a : Nat) (l : List Byte) (h : Bool) : (s.emitStore a l h).trained = s.trained := rfl
@[simp] theorem emitStore_supEvents (s : State) (a : Nat) (l : List Byte) (h : Bool) : (s.emitStore a l h).supEvents = s.supEvents := rfl
@[simp] theorem emitStore_nextFence (s : State) (a : Nat) (l : List Byte) (h : Bool) : (s.emitStore a l h).nextFence = s.nextFence := rfl
@[simp] theorem emitStore_cur (s : State) (a : Nat) (l : List Byte) (h : Bool) : (s.emitStore a l h).cur = s.cur := rfl
@[simp] theorem emitStore_curSlot (s : State) (a : Nat) (l : List Byte) (h : Bool) : (s.emitStore a l h).curSlot = s.curSlot := rfl
@[simp] theorem emitStore_curWord (s : State) (a : Nat) (l : List Byte) (h : Bool) : (s.emitStore a l h).curWord = s.curWord := rfl
@[simp] theorem emitStore_curEng (s : State) (a : Nat) (l : List Byte) (h : Bool) : (s.emitStore a l h).curEng = s.curEng := rfl
@[simp] theorem emitStore_subj (s : State) (a : Nat) (l : List Byte) (h : Bool) : (s.emitStore a l h).subj = s.subj := rfl
@[simp] theorem emitStore_now (s : State) (a : Nat) (l : List Byte) (h : Bool) : (s.emitStore a l h).now = s.now := rfl
@[simp] theorem emitStore_choices (s : State) (a : Nat) (l : List Byte) (h : Bool) : (s.emitStore a l h).choices = s.choices := rfl
@[simp] theorem emitStore_trial (s : State) (a : Nat) (l : List Byte) (h : Bool) : (s.emitStore a l h).trial = s.trial := rfl
@[simp] theorem emitStore_met (s : State) (a : Nat) (l : List Byte) (h : Bool) : (s.emitStore a l h).met = s.met := rfl
@[simp] theorem emitStore_agenda (s : State) (a : Nat) (l : List Byte) (h : Bool) : (s.emitStore a l h).agenda = s.agenda := rfl

/-! ### branch -/

@[simp] theorem branch_clusters (s : State) (w : Word) (n : Nat) : (s.branch w n).clusters = s.clusters := rfl
@[simp] theorem branch_engines (s : State) (w : Word) (n : Nat) : (s.branch w n).engines = s.engines := rfl
@[simp] theorem branch_hbm (s : State) (w : Word) (n : Nat) : (s.branch w n).hbm = s.hbm := rfl
@[simp] theorem branch_scm (s : State) (w : Word) (n : Nat) : (s.branch w n).scm = s.scm := rfl
@[simp] theorem branch_scmBuf (s : State) (w : Word) (n : Nat) : (s.branch w n).scmBuf = s.scmBuf := rfl
@[simp] theorem branch_accesses (s : State) (w : Word) (n : Nat) : (s.branch w n).accesses = s.accesses := rfl
@[simp] theorem branch_jobs (s : State) (w : Word) (n : Nat) : (s.branch w n).jobs = s.jobs := rfl
@[simp] theorem branch_nextJob (s : State) (w : Word) (n : Nat) : (s.branch w n).nextJob = s.nextJob := rfl
@[simp] theorem branch_trans (s : State) (w : Word) (n : Nat) : (s.branch w n).trans = s.trans := rfl
@[simp] theorem branch_elog (s : State) (w : Word) (n : Nat) : (s.branch w n).elog = s.elog := rfl
@[simp] theorem branch_rtabBase (s : State) (w : Word) (n : Nat) : (s.branch w n).rtabBase = s.rtabBase := rfl
@[simp] theorem branch_regStat (s : State) (w : Word) (n : Nat) : (s.branch w n).regStat = s.regStat := rfl
@[simp] theorem branch_regions (s : State) (w : Word) (n : Nat) : (s.branch w n).regions = s.regions := rfl
@[simp] theorem branch_tasks (s : State) (w : Word) (n : Nat) : (s.branch w n).tasks = s.tasks := rfl
@[simp] theorem branch_readyCount (s : State) (w : Word) (n : Nat) : (s.branch w n).readyCount = s.readyCount := rfl
@[simp] theorem branch_parts (s : State) (w : Word) (n : Nat) : (s.branch w n).parts = s.parts := rfl
@[simp] theorem branch_power (s : State) (w : Word) (n : Nat) : (s.branch w n).power = s.power := rfl
@[simp] theorem branch_hib (s : State) (w : Word) (n : Nat) : (s.branch w n).hib = s.hib := rfl
@[simp] theorem branch_boot (s : State) (w : Word) (n : Nat) : (s.branch w n).boot = s.boot := rfl
@[simp] theorem branch_leases (s : State) (w : Word) (n : Nat) : (s.branch w n).leases = s.leases := rfl
@[simp] theorem branch_leaseReqs (s : State) (w : Word) (n : Nat) : (s.branch w n).leaseReqs = s.leaseReqs := rfl
@[simp] theorem branch_nextLease (s : State) (w : Word) (n : Nat) : (s.branch w n).nextLease = s.nextLease := rfl
@[simp] theorem branch_leaseSeqs (s : State) (w : Word) (n : Nat) : (s.branch w n).leaseSeqs = s.leaseSeqs := rfl
@[simp] theorem branch_packets (s : State) (w : Word) (n : Nat) : (s.branch w n).packets = s.packets := rfl
@[simp] theorem branch_l2 (s : State) (w : Word) (n : Nat) : (s.branch w n).l2 = s.l2 := rfl
@[simp] theorem branch_charges (s : State) (w : Word) (n : Nat) : (s.branch w n).charges = s.charges := rfl
@[simp] theorem branch_accruedAt (s : State) (w : Word) (n : Nat) : (s.branch w n).accruedAt = s.accruedAt := rfl
@[simp] theorem branch_alloc (s : State) (w : Word) (n : Nat) : (s.branch w n).alloc = s.alloc := rfl
@[simp] theorem branch_strands (s : State) (w : Word) (n : Nat) : (s.branch w n).strands = s.strands := rfl
@[simp] theorem branch_rings (s : State) (w : Word) (n : Nat) : (s.branch w n).rings = s.rings := rfl
@[simp] theorem branch_receivers (s : State) (w : Word) (n : Nat) : (s.branch w n).receivers = s.receivers := rfl
@[simp] theorem branch_lockedAt (s : State) (w : Word) (n : Nat) : (s.branch w n).lockedAt = s.lockedAt := rfl
@[simp] theorem branch_modid (s : State) (w : Word) (n : Nat) : (s.branch w n).modid = s.modid := rfl
@[simp] theorem branch_fabRows (s : State) (w : Word) (n : Nat) : (s.branch w n).fabRows = s.fabRows := rfl
@[simp] theorem branch_fabCols (s : State) (w : Word) (n : Nat) : (s.branch w n).fabCols = s.fabCols := rfl
@[simp] theorem branch_trained (s : State) (w : Word) (n : Nat) : (s.branch w n).trained = s.trained := rfl
@[simp] theorem branch_supEvents (s : State) (w : Word) (n : Nat) : (s.branch w n).supEvents = s.supEvents := rfl
@[simp] theorem branch_nextFence (s : State) (w : Word) (n : Nat) : (s.branch w n).nextFence = s.nextFence := rfl
@[simp] theorem branch_cur (s : State) (w : Word) (n : Nat) : (s.branch w n).cur = s.cur := rfl
@[simp] theorem branch_curSlot (s : State) (w : Word) (n : Nat) : (s.branch w n).curSlot = s.curSlot := rfl
@[simp] theorem branch_curWord (s : State) (w : Word) (n : Nat) : (s.branch w n).curWord = s.curWord := rfl
@[simp] theorem branch_curEng (s : State) (w : Word) (n : Nat) : (s.branch w n).curEng = s.curEng := rfl
@[simp] theorem branch_subj (s : State) (w : Word) (n : Nat) : (s.branch w n).subj = s.subj := rfl
@[simp] theorem branch_now (s : State) (w : Word) (n : Nat) : (s.branch w n).now = s.now := rfl
@[simp] theorem branch_choices (s : State) (w : Word) (n : Nat) : (s.branch w n).choices = s.choices := rfl
@[simp] theorem branch_trial (s : State) (w : Word) (n : Nat) : (s.branch w n).trial = s.trial := rfl
@[simp] theorem branch_met (s : State) (w : Word) (n : Nat) : (s.branch w n).met = s.met := rfl
@[simp] theorem branch_agenda (s : State) (w : Word) (n : Nat) : (s.branch w n).agenda = s.agenda := rfl

/-! ### enqueue -/

@[simp] theorem enqueue_clusters (s : State) (q : QueueId) (k : CmdKind) (b : Option Bool) : (s.enqueue q k b).clusters = s.clusters := rfl
@[simp] theorem enqueue_engines (s : State) (q : QueueId) (k : CmdKind) (b : Option Bool) : (s.enqueue q k b).engines = s.engines := rfl
@[simp] theorem enqueue_hbm (s : State) (q : QueueId) (k : CmdKind) (b : Option Bool) : (s.enqueue q k b).hbm = s.hbm := rfl
@[simp] theorem enqueue_scm (s : State) (q : QueueId) (k : CmdKind) (b : Option Bool) : (s.enqueue q k b).scm = s.scm := rfl
@[simp] theorem enqueue_scmBuf (s : State) (q : QueueId) (k : CmdKind) (b : Option Bool) : (s.enqueue q k b).scmBuf = s.scmBuf := rfl
@[simp] theorem enqueue_accesses (s : State) (q : QueueId) (k : CmdKind) (b : Option Bool) : (s.enqueue q k b).accesses = s.accesses := rfl
@[simp] theorem enqueue_jobs (s : State) (q : QueueId) (k : CmdKind) (b : Option Bool) : (s.enqueue q k b).jobs = s.jobs := rfl
@[simp] theorem enqueue_nextJob (s : State) (q : QueueId) (k : CmdKind) (b : Option Bool) : (s.enqueue q k b).nextJob = s.nextJob := rfl
@[simp] theorem enqueue_trans (s : State) (q : QueueId) (k : CmdKind) (b : Option Bool) : (s.enqueue q k b).trans = s.trans := rfl
@[simp] theorem enqueue_elog (s : State) (q : QueueId) (k : CmdKind) (b : Option Bool) : (s.enqueue q k b).elog = s.elog := rfl
@[simp] theorem enqueue_rtabBase (s : State) (q : QueueId) (k : CmdKind) (b : Option Bool) : (s.enqueue q k b).rtabBase = s.rtabBase := rfl
@[simp] theorem enqueue_regStat (s : State) (q : QueueId) (k : CmdKind) (b : Option Bool) : (s.enqueue q k b).regStat = s.regStat := rfl
@[simp] theorem enqueue_regions (s : State) (q : QueueId) (k : CmdKind) (b : Option Bool) : (s.enqueue q k b).regions = s.regions := rfl
@[simp] theorem enqueue_tasks (s : State) (q : QueueId) (k : CmdKind) (b : Option Bool) : (s.enqueue q k b).tasks = s.tasks := rfl
@[simp] theorem enqueue_readyCount (s : State) (q : QueueId) (k : CmdKind) (b : Option Bool) : (s.enqueue q k b).readyCount = s.readyCount := rfl
@[simp] theorem enqueue_parts (s : State) (q : QueueId) (k : CmdKind) (b : Option Bool) : (s.enqueue q k b).parts = s.parts := rfl
@[simp] theorem enqueue_power (s : State) (q : QueueId) (k : CmdKind) (b : Option Bool) : (s.enqueue q k b).power = s.power := rfl
@[simp] theorem enqueue_hib (s : State) (q : QueueId) (k : CmdKind) (b : Option Bool) : (s.enqueue q k b).hib = s.hib := rfl
@[simp] theorem enqueue_boot (s : State) (q : QueueId) (k : CmdKind) (b : Option Bool) : (s.enqueue q k b).boot = s.boot := rfl
@[simp] theorem enqueue_leases (s : State) (q : QueueId) (k : CmdKind) (b : Option Bool) : (s.enqueue q k b).leases = s.leases := rfl
@[simp] theorem enqueue_leaseReqs (s : State) (q : QueueId) (k : CmdKind) (b : Option Bool) : (s.enqueue q k b).leaseReqs = s.leaseReqs := rfl
@[simp] theorem enqueue_nextLease (s : State) (q : QueueId) (k : CmdKind) (b : Option Bool) : (s.enqueue q k b).nextLease = s.nextLease := rfl
@[simp] theorem enqueue_leaseSeqs (s : State) (q : QueueId) (k : CmdKind) (b : Option Bool) : (s.enqueue q k b).leaseSeqs = s.leaseSeqs := rfl
@[simp] theorem enqueue_packets (s : State) (q : QueueId) (k : CmdKind) (b : Option Bool) : (s.enqueue q k b).packets = s.packets := rfl
@[simp] theorem enqueue_l2 (s : State) (q : QueueId) (k : CmdKind) (b : Option Bool) : (s.enqueue q k b).l2 = s.l2 := rfl
@[simp] theorem enqueue_charges (s : State) (q : QueueId) (k : CmdKind) (b : Option Bool) : (s.enqueue q k b).charges = s.charges := rfl
@[simp] theorem enqueue_accruedAt (s : State) (q : QueueId) (k : CmdKind) (b : Option Bool) : (s.enqueue q k b).accruedAt = s.accruedAt := rfl
@[simp] theorem enqueue_alloc (s : State) (q : QueueId) (k : CmdKind) (b : Option Bool) : (s.enqueue q k b).alloc = s.alloc := rfl
@[simp] theorem enqueue_strands (s : State) (q : QueueId) (k : CmdKind) (b : Option Bool) : (s.enqueue q k b).strands = s.strands := rfl
@[simp] theorem enqueue_rings (s : State) (q : QueueId) (k : CmdKind) (b : Option Bool) : (s.enqueue q k b).rings = s.rings := rfl
@[simp] theorem enqueue_receivers (s : State) (q : QueueId) (k : CmdKind) (b : Option Bool) : (s.enqueue q k b).receivers = s.receivers := rfl
@[simp] theorem enqueue_lockedAt (s : State) (q : QueueId) (k : CmdKind) (b : Option Bool) : (s.enqueue q k b).lockedAt = s.lockedAt := rfl
@[simp] theorem enqueue_modid (s : State) (q : QueueId) (k : CmdKind) (b : Option Bool) : (s.enqueue q k b).modid = s.modid := rfl
@[simp] theorem enqueue_fabRows (s : State) (q : QueueId) (k : CmdKind) (b : Option Bool) : (s.enqueue q k b).fabRows = s.fabRows := rfl
@[simp] theorem enqueue_fabCols (s : State) (q : QueueId) (k : CmdKind) (b : Option Bool) : (s.enqueue q k b).fabCols = s.fabCols := rfl
@[simp] theorem enqueue_trained (s : State) (q : QueueId) (k : CmdKind) (b : Option Bool) : (s.enqueue q k b).trained = s.trained := rfl
@[simp] theorem enqueue_supEvents (s : State) (q : QueueId) (k : CmdKind) (b : Option Bool) : (s.enqueue q k b).supEvents = s.supEvents := rfl
@[simp] theorem enqueue_nextFence (s : State) (q : QueueId) (k : CmdKind) (b : Option Bool) : (s.enqueue q k b).nextFence = s.nextFence := rfl
@[simp] theorem enqueue_cur (s : State) (q : QueueId) (k : CmdKind) (b : Option Bool) : (s.enqueue q k b).cur = s.cur := rfl
@[simp] theorem enqueue_curSlot (s : State) (q : QueueId) (k : CmdKind) (b : Option Bool) : (s.enqueue q k b).curSlot = s.curSlot := rfl
@[simp] theorem enqueue_curWord (s : State) (q : QueueId) (k : CmdKind) (b : Option Bool) : (s.enqueue q k b).curWord = s.curWord := rfl
@[simp] theorem enqueue_curEng (s : State) (q : QueueId) (k : CmdKind) (b : Option Bool) : (s.enqueue q k b).curEng = s.curEng := rfl
@[simp] theorem enqueue_subj (s : State) (q : QueueId) (k : CmdKind) (b : Option Bool) : (s.enqueue q k b).subj = s.subj := rfl
@[simp] theorem enqueue_now (s : State) (q : QueueId) (k : CmdKind) (b : Option Bool) : (s.enqueue q k b).now = s.now := rfl
@[simp] theorem enqueue_choices (s : State) (q : QueueId) (k : CmdKind) (b : Option Bool) : (s.enqueue q k b).choices = s.choices := rfl
@[simp] theorem enqueue_trial (s : State) (q : QueueId) (k : CmdKind) (b : Option Bool) : (s.enqueue q k b).trial = s.trial := rfl
@[simp] theorem enqueue_met (s : State) (q : QueueId) (k : CmdKind) (b : Option Bool) : (s.enqueue q k b).met = s.met := rfl
@[simp] theorem enqueue_agenda (s : State) (q : QueueId) (k : CmdKind) (b : Option Bool) : (s.enqueue q k b).agenda = s.agenda := rfl

/-! ### modCluster -/

@[simp] theorem modCluster_cores (s : State) (c : ClusterId) (f : Cluster → Cluster) : (s.modCluster c f).cores = s.cores := rfl
@[simp] theorem modCluster_engines (s : State) (c : ClusterId) (f : Cluster → Cluster) : (s.modCluster c f).engines = s.engines := rfl
@[simp] theorem modCluster_hbm (s : State) (c : ClusterId) (f : Cluster → Cluster) : (s.modCluster c f).hbm = s.hbm := rfl
@[simp] theorem modCluster_scm (s : State) (c : ClusterId) (f : Cluster → Cluster) : (s.modCluster c f).scm = s.scm := rfl
@[simp] theorem modCluster_scmBuf (s : State) (c : ClusterId) (f : Cluster → Cluster) : (s.modCluster c f).scmBuf = s.scmBuf := rfl
@[simp] theorem modCluster_accesses (s : State) (c : ClusterId) (f : Cluster → Cluster) : (s.modCluster c f).accesses = s.accesses := rfl
@[simp] theorem modCluster_jobs (s : State) (c : ClusterId) (f : Cluster → Cluster) : (s.modCluster c f).jobs = s.jobs := rfl
@[simp] theorem modCluster_nextJob (s : State) (c : ClusterId) (f : Cluster → Cluster) : (s.modCluster c f).nextJob = s.nextJob := rfl
@[simp] theorem modCluster_trans (s : State) (c : ClusterId) (f : Cluster → Cluster) : (s.modCluster c f).trans = s.trans := rfl
@[simp] theorem modCluster_elog (s : State) (c : ClusterId) (f : Cluster → Cluster) : (s.modCluster c f).elog = s.elog := rfl
@[simp] theorem modCluster_rtabBase (s : State) (c : ClusterId) (f : Cluster → Cluster) : (s.modCluster c f).rtabBase = s.rtabBase := rfl
@[simp] theorem modCluster_regStat (s : State) (c : ClusterId) (f : Cluster → Cluster) : (s.modCluster c f).regStat = s.regStat := rfl
@[simp] theorem modCluster_regions (s : State) (c : ClusterId) (f : Cluster → Cluster) : (s.modCluster c f).regions = s.regions := rfl
@[simp] theorem modCluster_tasks (s : State) (c : ClusterId) (f : Cluster → Cluster) : (s.modCluster c f).tasks = s.tasks := rfl
@[simp] theorem modCluster_readyCount (s : State) (c : ClusterId) (f : Cluster → Cluster) : (s.modCluster c f).readyCount = s.readyCount := rfl
@[simp] theorem modCluster_parts (s : State) (c : ClusterId) (f : Cluster → Cluster) : (s.modCluster c f).parts = s.parts := rfl
@[simp] theorem modCluster_power (s : State) (c : ClusterId) (f : Cluster → Cluster) : (s.modCluster c f).power = s.power := rfl
@[simp] theorem modCluster_hib (s : State) (c : ClusterId) (f : Cluster → Cluster) : (s.modCluster c f).hib = s.hib := rfl
@[simp] theorem modCluster_boot (s : State) (c : ClusterId) (f : Cluster → Cluster) : (s.modCluster c f).boot = s.boot := rfl
@[simp] theorem modCluster_leases (s : State) (c : ClusterId) (f : Cluster → Cluster) : (s.modCluster c f).leases = s.leases := rfl
@[simp] theorem modCluster_leaseReqs (s : State) (c : ClusterId) (f : Cluster → Cluster) : (s.modCluster c f).leaseReqs = s.leaseReqs := rfl
@[simp] theorem modCluster_nextLease (s : State) (c : ClusterId) (f : Cluster → Cluster) : (s.modCluster c f).nextLease = s.nextLease := rfl
@[simp] theorem modCluster_leaseSeqs (s : State) (c : ClusterId) (f : Cluster → Cluster) : (s.modCluster c f).leaseSeqs = s.leaseSeqs := rfl
@[simp] theorem modCluster_packets (s : State) (c : ClusterId) (f : Cluster → Cluster) : (s.modCluster c f).packets = s.packets := rfl
@[simp] theorem modCluster_l2 (s : State) (c : ClusterId) (f : Cluster → Cluster) : (s.modCluster c f).l2 = s.l2 := rfl
@[simp] theorem modCluster_charges (s : State) (c : ClusterId) (f : Cluster → Cluster) : (s.modCluster c f).charges = s.charges := rfl
@[simp] theorem modCluster_accruedAt (s : State) (c : ClusterId) (f : Cluster → Cluster) : (s.modCluster c f).accruedAt = s.accruedAt := rfl
@[simp] theorem modCluster_alloc (s : State) (c : ClusterId) (f : Cluster → Cluster) : (s.modCluster c f).alloc = s.alloc := rfl
@[simp] theorem modCluster_strands (s : State) (c : ClusterId) (f : Cluster → Cluster) : (s.modCluster c f).strands = s.strands := rfl
@[simp] theorem modCluster_rings (s : State) (c : ClusterId) (f : Cluster → Cluster) : (s.modCluster c f).rings = s.rings := rfl
@[simp] theorem modCluster_receivers (s : State) (c : ClusterId) (f : Cluster → Cluster) : (s.modCluster c f).receivers = s.receivers := rfl
@[simp] theorem modCluster_lockedAt (s : State) (c : ClusterId) (f : Cluster → Cluster) : (s.modCluster c f).lockedAt = s.lockedAt := rfl
@[simp] theorem modCluster_modid (s : State) (c : ClusterId) (f : Cluster → Cluster) : (s.modCluster c f).modid = s.modid := rfl
@[simp] theorem modCluster_fabRows (s : State) (c : ClusterId) (f : Cluster → Cluster) : (s.modCluster c f).fabRows = s.fabRows := rfl
@[simp] theorem modCluster_fabCols (s : State) (c : ClusterId) (f : Cluster → Cluster) : (s.modCluster c f).fabCols = s.fabCols := rfl
@[simp] theorem modCluster_trained (s : State) (c : ClusterId) (f : Cluster → Cluster) : (s.modCluster c f).trained = s.trained := rfl
@[simp] theorem modCluster_supEvents (s : State) (c : ClusterId) (f : Cluster → Cluster) : (s.modCluster c f).supEvents = s.supEvents := rfl
@[simp] theorem modCluster_nextFence (s : State) (c : ClusterId) (f : Cluster → Cluster) : (s.modCluster c f).nextFence = s.nextFence := rfl
@[simp] theorem modCluster_cur (s : State) (c : ClusterId) (f : Cluster → Cluster) : (s.modCluster c f).cur = s.cur := rfl
@[simp] theorem modCluster_curSlot (s : State) (c : ClusterId) (f : Cluster → Cluster) : (s.modCluster c f).curSlot = s.curSlot := rfl
@[simp] theorem modCluster_curWord (s : State) (c : ClusterId) (f : Cluster → Cluster) : (s.modCluster c f).curWord = s.curWord := rfl
@[simp] theorem modCluster_curEng (s : State) (c : ClusterId) (f : Cluster → Cluster) : (s.modCluster c f).curEng = s.curEng := rfl
@[simp] theorem modCluster_subj (s : State) (c : ClusterId) (f : Cluster → Cluster) : (s.modCluster c f).subj = s.subj := rfl
@[simp] theorem modCluster_now (s : State) (c : ClusterId) (f : Cluster → Cluster) : (s.modCluster c f).now = s.now := rfl
@[simp] theorem modCluster_choices (s : State) (c : ClusterId) (f : Cluster → Cluster) : (s.modCluster c f).choices = s.choices := rfl
@[simp] theorem modCluster_trial (s : State) (c : ClusterId) (f : Cluster → Cluster) : (s.modCluster c f).trial = s.trial := rfl
@[simp] theorem modCluster_met (s : State) (c : ClusterId) (f : Cluster → Cluster) : (s.modCluster c f).met = s.met := rfl
@[simp] theorem modCluster_agenda (s : State) (c : ClusterId) (f : Cluster → Cluster) : (s.modCluster c f).agenda = s.agenda := rfl

/-! ### modEngine -/

@[simp] theorem modEngine_cores (s : State) (e : EngineId) (f : Engine → Engine) : (s.modEngine e f).cores = s.cores := rfl
@[simp] theorem modEngine_clusters (s : State) (e : EngineId) (f : Engine → Engine) : (s.modEngine e f).clusters = s.clusters := rfl
@[simp] theorem modEngine_hbm (s : State) (e : EngineId) (f : Engine → Engine) : (s.modEngine e f).hbm = s.hbm := rfl
@[simp] theorem modEngine_scm (s : State) (e : EngineId) (f : Engine → Engine) : (s.modEngine e f).scm = s.scm := rfl
@[simp] theorem modEngine_scmBuf (s : State) (e : EngineId) (f : Engine → Engine) : (s.modEngine e f).scmBuf = s.scmBuf := rfl
@[simp] theorem modEngine_accesses (s : State) (e : EngineId) (f : Engine → Engine) : (s.modEngine e f).accesses = s.accesses := rfl
@[simp] theorem modEngine_jobs (s : State) (e : EngineId) (f : Engine → Engine) : (s.modEngine e f).jobs = s.jobs := rfl
@[simp] theorem modEngine_nextJob (s : State) (e : EngineId) (f : Engine → Engine) : (s.modEngine e f).nextJob = s.nextJob := rfl
@[simp] theorem modEngine_trans (s : State) (e : EngineId) (f : Engine → Engine) : (s.modEngine e f).trans = s.trans := rfl
@[simp] theorem modEngine_elog (s : State) (e : EngineId) (f : Engine → Engine) : (s.modEngine e f).elog = s.elog := rfl
@[simp] theorem modEngine_rtabBase (s : State) (e : EngineId) (f : Engine → Engine) : (s.modEngine e f).rtabBase = s.rtabBase := rfl
@[simp] theorem modEngine_regStat (s : State) (e : EngineId) (f : Engine → Engine) : (s.modEngine e f).regStat = s.regStat := rfl
@[simp] theorem modEngine_regions (s : State) (e : EngineId) (f : Engine → Engine) : (s.modEngine e f).regions = s.regions := rfl
@[simp] theorem modEngine_tasks (s : State) (e : EngineId) (f : Engine → Engine) : (s.modEngine e f).tasks = s.tasks := rfl
@[simp] theorem modEngine_readyCount (s : State) (e : EngineId) (f : Engine → Engine) : (s.modEngine e f).readyCount = s.readyCount := rfl
@[simp] theorem modEngine_parts (s : State) (e : EngineId) (f : Engine → Engine) : (s.modEngine e f).parts = s.parts := rfl
@[simp] theorem modEngine_power (s : State) (e : EngineId) (f : Engine → Engine) : (s.modEngine e f).power = s.power := rfl
@[simp] theorem modEngine_hib (s : State) (e : EngineId) (f : Engine → Engine) : (s.modEngine e f).hib = s.hib := rfl
@[simp] theorem modEngine_boot (s : State) (e : EngineId) (f : Engine → Engine) : (s.modEngine e f).boot = s.boot := rfl
@[simp] theorem modEngine_leases (s : State) (e : EngineId) (f : Engine → Engine) : (s.modEngine e f).leases = s.leases := rfl
@[simp] theorem modEngine_leaseReqs (s : State) (e : EngineId) (f : Engine → Engine) : (s.modEngine e f).leaseReqs = s.leaseReqs := rfl
@[simp] theorem modEngine_nextLease (s : State) (e : EngineId) (f : Engine → Engine) : (s.modEngine e f).nextLease = s.nextLease := rfl
@[simp] theorem modEngine_leaseSeqs (s : State) (e : EngineId) (f : Engine → Engine) : (s.modEngine e f).leaseSeqs = s.leaseSeqs := rfl
@[simp] theorem modEngine_packets (s : State) (e : EngineId) (f : Engine → Engine) : (s.modEngine e f).packets = s.packets := rfl
@[simp] theorem modEngine_l2 (s : State) (e : EngineId) (f : Engine → Engine) : (s.modEngine e f).l2 = s.l2 := rfl
@[simp] theorem modEngine_charges (s : State) (e : EngineId) (f : Engine → Engine) : (s.modEngine e f).charges = s.charges := rfl
@[simp] theorem modEngine_accruedAt (s : State) (e : EngineId) (f : Engine → Engine) : (s.modEngine e f).accruedAt = s.accruedAt := rfl
@[simp] theorem modEngine_alloc (s : State) (e : EngineId) (f : Engine → Engine) : (s.modEngine e f).alloc = s.alloc := rfl
@[simp] theorem modEngine_strands (s : State) (e : EngineId) (f : Engine → Engine) : (s.modEngine e f).strands = s.strands := rfl
@[simp] theorem modEngine_rings (s : State) (e : EngineId) (f : Engine → Engine) : (s.modEngine e f).rings = s.rings := rfl
@[simp] theorem modEngine_receivers (s : State) (e : EngineId) (f : Engine → Engine) : (s.modEngine e f).receivers = s.receivers := rfl
@[simp] theorem modEngine_lockedAt (s : State) (e : EngineId) (f : Engine → Engine) : (s.modEngine e f).lockedAt = s.lockedAt := rfl
@[simp] theorem modEngine_modid (s : State) (e : EngineId) (f : Engine → Engine) : (s.modEngine e f).modid = s.modid := rfl
@[simp] theorem modEngine_fabRows (s : State) (e : EngineId) (f : Engine → Engine) : (s.modEngine e f).fabRows = s.fabRows := rfl
@[simp] theorem modEngine_fabCols (s : State) (e : EngineId) (f : Engine → Engine) : (s.modEngine e f).fabCols = s.fabCols := rfl
@[simp] theorem modEngine_trained (s : State) (e : EngineId) (f : Engine → Engine) : (s.modEngine e f).trained = s.trained := rfl
@[simp] theorem modEngine_supEvents (s : State) (e : EngineId) (f : Engine → Engine) : (s.modEngine e f).supEvents = s.supEvents := rfl
@[simp] theorem modEngine_nextFence (s : State) (e : EngineId) (f : Engine → Engine) : (s.modEngine e f).nextFence = s.nextFence := rfl
@[simp] theorem modEngine_cur (s : State) (e : EngineId) (f : Engine → Engine) : (s.modEngine e f).cur = s.cur := rfl
@[simp] theorem modEngine_curSlot (s : State) (e : EngineId) (f : Engine → Engine) : (s.modEngine e f).curSlot = s.curSlot := rfl
@[simp] theorem modEngine_curWord (s : State) (e : EngineId) (f : Engine → Engine) : (s.modEngine e f).curWord = s.curWord := rfl
@[simp] theorem modEngine_curEng (s : State) (e : EngineId) (f : Engine → Engine) : (s.modEngine e f).curEng = s.curEng := rfl
@[simp] theorem modEngine_subj (s : State) (e : EngineId) (f : Engine → Engine) : (s.modEngine e f).subj = s.subj := rfl
@[simp] theorem modEngine_now (s : State) (e : EngineId) (f : Engine → Engine) : (s.modEngine e f).now = s.now := rfl
@[simp] theorem modEngine_choices (s : State) (e : EngineId) (f : Engine → Engine) : (s.modEngine e f).choices = s.choices := rfl
@[simp] theorem modEngine_trial (s : State) (e : EngineId) (f : Engine → Engine) : (s.modEngine e f).trial = s.trial := rfl
@[simp] theorem modEngine_met (s : State) (e : EngineId) (f : Engine → Engine) : (s.modEngine e f).met = s.met := rfl
@[simp] theorem modEngine_agenda (s : State) (e : EngineId) (f : Engine → Engine) : (s.modEngine e f).agenda = s.agenda := rfl

/-! ### modTask -/

@[simp] theorem modTask_cores (s : State) (w : Word) (f : Task → Task) : (s.modTask w f).cores = s.cores := rfl
@[simp] theorem modTask_clusters (s : State) (w : Word) (f : Task → Task) : (s.modTask w f).clusters = s.clusters := rfl
@[simp] theorem modTask_engines (s : State) (w : Word) (f : Task → Task) : (s.modTask w f).engines = s.engines := rfl
@[simp] theorem modTask_hbm (s : State) (w : Word) (f : Task → Task) : (s.modTask w f).hbm = s.hbm := rfl
@[simp] theorem modTask_scm (s : State) (w : Word) (f : Task → Task) : (s.modTask w f).scm = s.scm := rfl
@[simp] theorem modTask_scmBuf (s : State) (w : Word) (f : Task → Task) : (s.modTask w f).scmBuf = s.scmBuf := rfl
@[simp] theorem modTask_accesses (s : State) (w : Word) (f : Task → Task) : (s.modTask w f).accesses = s.accesses := rfl
@[simp] theorem modTask_jobs (s : State) (w : Word) (f : Task → Task) : (s.modTask w f).jobs = s.jobs := rfl
@[simp] theorem modTask_nextJob (s : State) (w : Word) (f : Task → Task) : (s.modTask w f).nextJob = s.nextJob := rfl
@[simp] theorem modTask_trans (s : State) (w : Word) (f : Task → Task) : (s.modTask w f).trans = s.trans := rfl
@[simp] theorem modTask_elog (s : State) (w : Word) (f : Task → Task) : (s.modTask w f).elog = s.elog := rfl
@[simp] theorem modTask_rtabBase (s : State) (w : Word) (f : Task → Task) : (s.modTask w f).rtabBase = s.rtabBase := rfl
@[simp] theorem modTask_regStat (s : State) (w : Word) (f : Task → Task) : (s.modTask w f).regStat = s.regStat := rfl
@[simp] theorem modTask_regions (s : State) (w : Word) (f : Task → Task) : (s.modTask w f).regions = s.regions := rfl
@[simp] theorem modTask_readyCount (s : State) (w : Word) (f : Task → Task) : (s.modTask w f).readyCount = s.readyCount := rfl
@[simp] theorem modTask_parts (s : State) (w : Word) (f : Task → Task) : (s.modTask w f).parts = s.parts := rfl
@[simp] theorem modTask_power (s : State) (w : Word) (f : Task → Task) : (s.modTask w f).power = s.power := rfl
@[simp] theorem modTask_hib (s : State) (w : Word) (f : Task → Task) : (s.modTask w f).hib = s.hib := rfl
@[simp] theorem modTask_boot (s : State) (w : Word) (f : Task → Task) : (s.modTask w f).boot = s.boot := rfl
@[simp] theorem modTask_leases (s : State) (w : Word) (f : Task → Task) : (s.modTask w f).leases = s.leases := rfl
@[simp] theorem modTask_leaseReqs (s : State) (w : Word) (f : Task → Task) : (s.modTask w f).leaseReqs = s.leaseReqs := rfl
@[simp] theorem modTask_nextLease (s : State) (w : Word) (f : Task → Task) : (s.modTask w f).nextLease = s.nextLease := rfl
@[simp] theorem modTask_leaseSeqs (s : State) (w : Word) (f : Task → Task) : (s.modTask w f).leaseSeqs = s.leaseSeqs := rfl
@[simp] theorem modTask_packets (s : State) (w : Word) (f : Task → Task) : (s.modTask w f).packets = s.packets := rfl
@[simp] theorem modTask_l2 (s : State) (w : Word) (f : Task → Task) : (s.modTask w f).l2 = s.l2 := rfl
@[simp] theorem modTask_charges (s : State) (w : Word) (f : Task → Task) : (s.modTask w f).charges = s.charges := rfl
@[simp] theorem modTask_accruedAt (s : State) (w : Word) (f : Task → Task) : (s.modTask w f).accruedAt = s.accruedAt := rfl
@[simp] theorem modTask_alloc (s : State) (w : Word) (f : Task → Task) : (s.modTask w f).alloc = s.alloc := rfl
@[simp] theorem modTask_strands (s : State) (w : Word) (f : Task → Task) : (s.modTask w f).strands = s.strands := rfl
@[simp] theorem modTask_rings (s : State) (w : Word) (f : Task → Task) : (s.modTask w f).rings = s.rings := rfl
@[simp] theorem modTask_receivers (s : State) (w : Word) (f : Task → Task) : (s.modTask w f).receivers = s.receivers := rfl
@[simp] theorem modTask_lockedAt (s : State) (w : Word) (f : Task → Task) : (s.modTask w f).lockedAt = s.lockedAt := rfl
@[simp] theorem modTask_modid (s : State) (w : Word) (f : Task → Task) : (s.modTask w f).modid = s.modid := rfl
@[simp] theorem modTask_fabRows (s : State) (w : Word) (f : Task → Task) : (s.modTask w f).fabRows = s.fabRows := rfl
@[simp] theorem modTask_fabCols (s : State) (w : Word) (f : Task → Task) : (s.modTask w f).fabCols = s.fabCols := rfl
@[simp] theorem modTask_trained (s : State) (w : Word) (f : Task → Task) : (s.modTask w f).trained = s.trained := rfl
@[simp] theorem modTask_supEvents (s : State) (w : Word) (f : Task → Task) : (s.modTask w f).supEvents = s.supEvents := rfl
@[simp] theorem modTask_nextFence (s : State) (w : Word) (f : Task → Task) : (s.modTask w f).nextFence = s.nextFence := rfl
@[simp] theorem modTask_cur (s : State) (w : Word) (f : Task → Task) : (s.modTask w f).cur = s.cur := rfl
@[simp] theorem modTask_curSlot (s : State) (w : Word) (f : Task → Task) : (s.modTask w f).curSlot = s.curSlot := rfl
@[simp] theorem modTask_curWord (s : State) (w : Word) (f : Task → Task) : (s.modTask w f).curWord = s.curWord := rfl
@[simp] theorem modTask_curEng (s : State) (w : Word) (f : Task → Task) : (s.modTask w f).curEng = s.curEng := rfl
@[simp] theorem modTask_subj (s : State) (w : Word) (f : Task → Task) : (s.modTask w f).subj = s.subj := rfl
@[simp] theorem modTask_now (s : State) (w : Word) (f : Task → Task) : (s.modTask w f).now = s.now := rfl
@[simp] theorem modTask_choices (s : State) (w : Word) (f : Task → Task) : (s.modTask w f).choices = s.choices := rfl
@[simp] theorem modTask_trial (s : State) (w : Word) (f : Task → Task) : (s.modTask w f).trial = s.trial := rfl
@[simp] theorem modTask_met (s : State) (w : Word) (f : Task → Task) : (s.modTask w f).met = s.met := rfl
@[simp] theorem modTask_agenda (s : State) (w : Word) (f : Task → Task) : (s.modTask w f).agenda = s.agenda := rfl

/-! ### modRegion -/

@[simp] theorem modRegion_cores (s : State) (r : Nat) (f : Region → Region) : (s.modRegion r f).cores = s.cores := rfl
@[simp] theorem modRegion_clusters (s : State) (r : Nat) (f : Region → Region) : (s.modRegion r f).clusters = s.clusters := rfl
@[simp] theorem modRegion_engines (s : State) (r : Nat) (f : Region → Region) : (s.modRegion r f).engines = s.engines := rfl
@[simp] theorem modRegion_hbm (s : State) (r : Nat) (f : Region → Region) : (s.modRegion r f).hbm = s.hbm := rfl
@[simp] theorem modRegion_scm (s : State) (r : Nat) (f : Region → Region) : (s.modRegion r f).scm = s.scm := rfl
@[simp] theorem modRegion_scmBuf (s : State) (r : Nat) (f : Region → Region) : (s.modRegion r f).scmBuf = s.scmBuf := rfl
@[simp] theorem modRegion_accesses (s : State) (r : Nat) (f : Region → Region) : (s.modRegion r f).accesses = s.accesses := rfl
@[simp] theorem modRegion_jobs (s : State) (r : Nat) (f : Region → Region) : (s.modRegion r f).jobs = s.jobs := rfl
@[simp] theorem modRegion_nextJob (s : State) (r : Nat) (f : Region → Region) : (s.modRegion r f).nextJob = s.nextJob := rfl
@[simp] theorem modRegion_trans (s : State) (r : Nat) (f : Region → Region) : (s.modRegion r f).trans = s.trans := rfl
@[simp] theorem modRegion_elog (s : State) (r : Nat) (f : Region → Region) : (s.modRegion r f).elog = s.elog := rfl
@[simp] theorem modRegion_rtabBase (s : State) (r : Nat) (f : Region → Region) : (s.modRegion r f).rtabBase = s.rtabBase := rfl
@[simp] theorem modRegion_regStat (s : State) (r : Nat) (f : Region → Region) : (s.modRegion r f).regStat = s.regStat := rfl
@[simp] theorem modRegion_tasks (s : State) (r : Nat) (f : Region → Region) : (s.modRegion r f).tasks = s.tasks := rfl
@[simp] theorem modRegion_readyCount (s : State) (r : Nat) (f : Region → Region) : (s.modRegion r f).readyCount = s.readyCount := rfl
@[simp] theorem modRegion_parts (s : State) (r : Nat) (f : Region → Region) : (s.modRegion r f).parts = s.parts := rfl
@[simp] theorem modRegion_power (s : State) (r : Nat) (f : Region → Region) : (s.modRegion r f).power = s.power := rfl
@[simp] theorem modRegion_hib (s : State) (r : Nat) (f : Region → Region) : (s.modRegion r f).hib = s.hib := rfl
@[simp] theorem modRegion_boot (s : State) (r : Nat) (f : Region → Region) : (s.modRegion r f).boot = s.boot := rfl
@[simp] theorem modRegion_leases (s : State) (r : Nat) (f : Region → Region) : (s.modRegion r f).leases = s.leases := rfl
@[simp] theorem modRegion_leaseReqs (s : State) (r : Nat) (f : Region → Region) : (s.modRegion r f).leaseReqs = s.leaseReqs := rfl
@[simp] theorem modRegion_nextLease (s : State) (r : Nat) (f : Region → Region) : (s.modRegion r f).nextLease = s.nextLease := rfl
@[simp] theorem modRegion_leaseSeqs (s : State) (r : Nat) (f : Region → Region) : (s.modRegion r f).leaseSeqs = s.leaseSeqs := rfl
@[simp] theorem modRegion_packets (s : State) (r : Nat) (f : Region → Region) : (s.modRegion r f).packets = s.packets := rfl
@[simp] theorem modRegion_l2 (s : State) (r : Nat) (f : Region → Region) : (s.modRegion r f).l2 = s.l2 := rfl
@[simp] theorem modRegion_charges (s : State) (r : Nat) (f : Region → Region) : (s.modRegion r f).charges = s.charges := rfl
@[simp] theorem modRegion_accruedAt (s : State) (r : Nat) (f : Region → Region) : (s.modRegion r f).accruedAt = s.accruedAt := rfl
@[simp] theorem modRegion_alloc (s : State) (r : Nat) (f : Region → Region) : (s.modRegion r f).alloc = s.alloc := rfl
@[simp] theorem modRegion_strands (s : State) (r : Nat) (f : Region → Region) : (s.modRegion r f).strands = s.strands := rfl
@[simp] theorem modRegion_rings (s : State) (r : Nat) (f : Region → Region) : (s.modRegion r f).rings = s.rings := rfl
@[simp] theorem modRegion_receivers (s : State) (r : Nat) (f : Region → Region) : (s.modRegion r f).receivers = s.receivers := rfl
@[simp] theorem modRegion_lockedAt (s : State) (r : Nat) (f : Region → Region) : (s.modRegion r f).lockedAt = s.lockedAt := rfl
@[simp] theorem modRegion_modid (s : State) (r : Nat) (f : Region → Region) : (s.modRegion r f).modid = s.modid := rfl
@[simp] theorem modRegion_fabRows (s : State) (r : Nat) (f : Region → Region) : (s.modRegion r f).fabRows = s.fabRows := rfl
@[simp] theorem modRegion_fabCols (s : State) (r : Nat) (f : Region → Region) : (s.modRegion r f).fabCols = s.fabCols := rfl
@[simp] theorem modRegion_trained (s : State) (r : Nat) (f : Region → Region) : (s.modRegion r f).trained = s.trained := rfl
@[simp] theorem modRegion_supEvents (s : State) (r : Nat) (f : Region → Region) : (s.modRegion r f).supEvents = s.supEvents := rfl
@[simp] theorem modRegion_nextFence (s : State) (r : Nat) (f : Region → Region) : (s.modRegion r f).nextFence = s.nextFence := rfl
@[simp] theorem modRegion_cur (s : State) (r : Nat) (f : Region → Region) : (s.modRegion r f).cur = s.cur := rfl
@[simp] theorem modRegion_curSlot (s : State) (r : Nat) (f : Region → Region) : (s.modRegion r f).curSlot = s.curSlot := rfl
@[simp] theorem modRegion_curWord (s : State) (r : Nat) (f : Region → Region) : (s.modRegion r f).curWord = s.curWord := rfl
@[simp] theorem modRegion_curEng (s : State) (r : Nat) (f : Region → Region) : (s.modRegion r f).curEng = s.curEng := rfl
@[simp] theorem modRegion_subj (s : State) (r : Nat) (f : Region → Region) : (s.modRegion r f).subj = s.subj := rfl
@[simp] theorem modRegion_now (s : State) (r : Nat) (f : Region → Region) : (s.modRegion r f).now = s.now := rfl
@[simp] theorem modRegion_choices (s : State) (r : Nat) (f : Region → Region) : (s.modRegion r f).choices = s.choices := rfl
@[simp] theorem modRegion_trial (s : State) (r : Nat) (f : Region → Region) : (s.modRegion r f).trial = s.trial := rfl
@[simp] theorem modRegion_met (s : State) (r : Nat) (f : Region → Region) : (s.modRegion r f).met = s.met := rfl
@[simp] theorem modRegion_agenda (s : State) (r : Nat) (f : Region → Region) : (s.modRegion r f).agenda = s.agenda := rfl

/-! ### modJob -/

@[simp] theorem modJob_cores (s : State) (j : Nat) (f : BankJob → BankJob) : (s.modJob j f).cores = s.cores := rfl
@[simp] theorem modJob_clusters (s : State) (j : Nat) (f : BankJob → BankJob) : (s.modJob j f).clusters = s.clusters := rfl
@[simp] theorem modJob_engines (s : State) (j : Nat) (f : BankJob → BankJob) : (s.modJob j f).engines = s.engines := rfl
@[simp] theorem modJob_hbm (s : State) (j : Nat) (f : BankJob → BankJob) : (s.modJob j f).hbm = s.hbm := rfl
@[simp] theorem modJob_scm (s : State) (j : Nat) (f : BankJob → BankJob) : (s.modJob j f).scm = s.scm := rfl
@[simp] theorem modJob_scmBuf (s : State) (j : Nat) (f : BankJob → BankJob) : (s.modJob j f).scmBuf = s.scmBuf := rfl
@[simp] theorem modJob_accesses (s : State) (j : Nat) (f : BankJob → BankJob) : (s.modJob j f).accesses = s.accesses := rfl
@[simp] theorem modJob_nextJob (s : State) (j : Nat) (f : BankJob → BankJob) : (s.modJob j f).nextJob = s.nextJob := rfl
@[simp] theorem modJob_trans (s : State) (j : Nat) (f : BankJob → BankJob) : (s.modJob j f).trans = s.trans := rfl
@[simp] theorem modJob_elog (s : State) (j : Nat) (f : BankJob → BankJob) : (s.modJob j f).elog = s.elog := rfl
@[simp] theorem modJob_rtabBase (s : State) (j : Nat) (f : BankJob → BankJob) : (s.modJob j f).rtabBase = s.rtabBase := rfl
@[simp] theorem modJob_regStat (s : State) (j : Nat) (f : BankJob → BankJob) : (s.modJob j f).regStat = s.regStat := rfl
@[simp] theorem modJob_regions (s : State) (j : Nat) (f : BankJob → BankJob) : (s.modJob j f).regions = s.regions := rfl
@[simp] theorem modJob_tasks (s : State) (j : Nat) (f : BankJob → BankJob) : (s.modJob j f).tasks = s.tasks := rfl
@[simp] theorem modJob_readyCount (s : State) (j : Nat) (f : BankJob → BankJob) : (s.modJob j f).readyCount = s.readyCount := rfl
@[simp] theorem modJob_parts (s : State) (j : Nat) (f : BankJob → BankJob) : (s.modJob j f).parts = s.parts := rfl
@[simp] theorem modJob_power (s : State) (j : Nat) (f : BankJob → BankJob) : (s.modJob j f).power = s.power := rfl
@[simp] theorem modJob_hib (s : State) (j : Nat) (f : BankJob → BankJob) : (s.modJob j f).hib = s.hib := rfl
@[simp] theorem modJob_boot (s : State) (j : Nat) (f : BankJob → BankJob) : (s.modJob j f).boot = s.boot := rfl
@[simp] theorem modJob_leases (s : State) (j : Nat) (f : BankJob → BankJob) : (s.modJob j f).leases = s.leases := rfl
@[simp] theorem modJob_leaseReqs (s : State) (j : Nat) (f : BankJob → BankJob) : (s.modJob j f).leaseReqs = s.leaseReqs := rfl
@[simp] theorem modJob_nextLease (s : State) (j : Nat) (f : BankJob → BankJob) : (s.modJob j f).nextLease = s.nextLease := rfl
@[simp] theorem modJob_leaseSeqs (s : State) (j : Nat) (f : BankJob → BankJob) : (s.modJob j f).leaseSeqs = s.leaseSeqs := rfl
@[simp] theorem modJob_packets (s : State) (j : Nat) (f : BankJob → BankJob) : (s.modJob j f).packets = s.packets := rfl
@[simp] theorem modJob_l2 (s : State) (j : Nat) (f : BankJob → BankJob) : (s.modJob j f).l2 = s.l2 := rfl
@[simp] theorem modJob_charges (s : State) (j : Nat) (f : BankJob → BankJob) : (s.modJob j f).charges = s.charges := rfl
@[simp] theorem modJob_accruedAt (s : State) (j : Nat) (f : BankJob → BankJob) : (s.modJob j f).accruedAt = s.accruedAt := rfl
@[simp] theorem modJob_alloc (s : State) (j : Nat) (f : BankJob → BankJob) : (s.modJob j f).alloc = s.alloc := rfl
@[simp] theorem modJob_strands (s : State) (j : Nat) (f : BankJob → BankJob) : (s.modJob j f).strands = s.strands := rfl
@[simp] theorem modJob_rings (s : State) (j : Nat) (f : BankJob → BankJob) : (s.modJob j f).rings = s.rings := rfl
@[simp] theorem modJob_receivers (s : State) (j : Nat) (f : BankJob → BankJob) : (s.modJob j f).receivers = s.receivers := rfl
@[simp] theorem modJob_lockedAt (s : State) (j : Nat) (f : BankJob → BankJob) : (s.modJob j f).lockedAt = s.lockedAt := rfl
@[simp] theorem modJob_modid (s : State) (j : Nat) (f : BankJob → BankJob) : (s.modJob j f).modid = s.modid := rfl
@[simp] theorem modJob_fabRows (s : State) (j : Nat) (f : BankJob → BankJob) : (s.modJob j f).fabRows = s.fabRows := rfl
@[simp] theorem modJob_fabCols (s : State) (j : Nat) (f : BankJob → BankJob) : (s.modJob j f).fabCols = s.fabCols := rfl
@[simp] theorem modJob_trained (s : State) (j : Nat) (f : BankJob → BankJob) : (s.modJob j f).trained = s.trained := rfl
@[simp] theorem modJob_supEvents (s : State) (j : Nat) (f : BankJob → BankJob) : (s.modJob j f).supEvents = s.supEvents := rfl
@[simp] theorem modJob_nextFence (s : State) (j : Nat) (f : BankJob → BankJob) : (s.modJob j f).nextFence = s.nextFence := rfl
@[simp] theorem modJob_cur (s : State) (j : Nat) (f : BankJob → BankJob) : (s.modJob j f).cur = s.cur := rfl
@[simp] theorem modJob_curSlot (s : State) (j : Nat) (f : BankJob → BankJob) : (s.modJob j f).curSlot = s.curSlot := rfl
@[simp] theorem modJob_curWord (s : State) (j : Nat) (f : BankJob → BankJob) : (s.modJob j f).curWord = s.curWord := rfl
@[simp] theorem modJob_curEng (s : State) (j : Nat) (f : BankJob → BankJob) : (s.modJob j f).curEng = s.curEng := rfl
@[simp] theorem modJob_subj (s : State) (j : Nat) (f : BankJob → BankJob) : (s.modJob j f).subj = s.subj := rfl
@[simp] theorem modJob_now (s : State) (j : Nat) (f : BankJob → BankJob) : (s.modJob j f).now = s.now := rfl
@[simp] theorem modJob_choices (s : State) (j : Nat) (f : BankJob → BankJob) : (s.modJob j f).choices = s.choices := rfl
@[simp] theorem modJob_trial (s : State) (j : Nat) (f : BankJob → BankJob) : (s.modJob j f).trial = s.trial := rfl
@[simp] theorem modJob_met (s : State) (j : Nat) (f : BankJob → BankJob) : (s.modJob j f).met = s.met := rfl
@[simp] theorem modJob_agenda (s : State) (j : Nat) (f : BankJob → BankJob) : (s.modJob j f).agenda = s.agenda := rfl

/-! ### charge -/

@[simp] theorem charge_cores (s : State) (r o n : Nat) : (s.charge r o n).cores = s.cores := rfl
@[simp] theorem charge_clusters (s : State) (r o n : Nat) : (s.charge r o n).clusters = s.clusters := rfl
@[simp] theorem charge_engines (s : State) (r o n : Nat) : (s.charge r o n).engines = s.engines := rfl
@[simp] theorem charge_hbm (s : State) (r o n : Nat) : (s.charge r o n).hbm = s.hbm := rfl
@[simp] theorem charge_scm (s : State) (r o n : Nat) : (s.charge r o n).scm = s.scm := rfl
@[simp] theorem charge_scmBuf (s : State) (r o n : Nat) : (s.charge r o n).scmBuf = s.scmBuf := rfl
@[simp] theorem charge_accesses (s : State) (r o n : Nat) : (s.charge r o n).accesses = s.accesses := rfl
@[simp] theorem charge_jobs (s : State) (r o n : Nat) : (s.charge r o n).jobs = s.jobs := rfl
@[simp] theorem charge_nextJob (s : State) (r o n : Nat) : (s.charge r o n).nextJob = s.nextJob := rfl
@[simp] theorem charge_trans (s : State) (r o n : Nat) : (s.charge r o n).trans = s.trans := rfl
@[simp] theorem charge_elog (s : State) (r o n : Nat) : (s.charge r o n).elog = s.elog := rfl
@[simp] theorem charge_rtabBase (s : State) (r o n : Nat) : (s.charge r o n).rtabBase = s.rtabBase := rfl
@[simp] theorem charge_regStat (s : State) (r o n : Nat) : (s.charge r o n).regStat = s.regStat := rfl
@[simp] theorem charge_regions (s : State) (r o n : Nat) : (s.charge r o n).regions = s.regions := rfl
@[simp] theorem charge_tasks (s : State) (r o n : Nat) : (s.charge r o n).tasks = s.tasks := rfl
@[simp] theorem charge_readyCount (s : State) (r o n : Nat) : (s.charge r o n).readyCount = s.readyCount := rfl
@[simp] theorem charge_parts (s : State) (r o n : Nat) : (s.charge r o n).parts = s.parts := rfl
@[simp] theorem charge_power (s : State) (r o n : Nat) : (s.charge r o n).power = s.power := rfl
@[simp] theorem charge_hib (s : State) (r o n : Nat) : (s.charge r o n).hib = s.hib := rfl
@[simp] theorem charge_boot (s : State) (r o n : Nat) : (s.charge r o n).boot = s.boot := rfl
@[simp] theorem charge_leases (s : State) (r o n : Nat) : (s.charge r o n).leases = s.leases := rfl
@[simp] theorem charge_leaseReqs (s : State) (r o n : Nat) : (s.charge r o n).leaseReqs = s.leaseReqs := rfl
@[simp] theorem charge_nextLease (s : State) (r o n : Nat) : (s.charge r o n).nextLease = s.nextLease := rfl
@[simp] theorem charge_leaseSeqs (s : State) (r o n : Nat) : (s.charge r o n).leaseSeqs = s.leaseSeqs := rfl
@[simp] theorem charge_packets (s : State) (r o n : Nat) : (s.charge r o n).packets = s.packets := rfl
@[simp] theorem charge_l2 (s : State) (r o n : Nat) : (s.charge r o n).l2 = s.l2 := rfl
@[simp] theorem charge_accruedAt (s : State) (r o n : Nat) : (s.charge r o n).accruedAt = s.accruedAt := rfl
@[simp] theorem charge_alloc (s : State) (r o n : Nat) : (s.charge r o n).alloc = s.alloc := rfl
@[simp] theorem charge_strands (s : State) (r o n : Nat) : (s.charge r o n).strands = s.strands := rfl
@[simp] theorem charge_rings (s : State) (r o n : Nat) : (s.charge r o n).rings = s.rings := rfl
@[simp] theorem charge_receivers (s : State) (r o n : Nat) : (s.charge r o n).receivers = s.receivers := rfl
@[simp] theorem charge_lockedAt (s : State) (r o n : Nat) : (s.charge r o n).lockedAt = s.lockedAt := rfl
@[simp] theorem charge_modid (s : State) (r o n : Nat) : (s.charge r o n).modid = s.modid := rfl
@[simp] theorem charge_fabRows (s : State) (r o n : Nat) : (s.charge r o n).fabRows = s.fabRows := rfl
@[simp] theorem charge_fabCols (s : State) (r o n : Nat) : (s.charge r o n).fabCols = s.fabCols := rfl
@[simp] theorem charge_trained (s : State) (r o n : Nat) : (s.charge r o n).trained = s.trained := rfl
@[simp] theorem charge_supEvents (s : State) (r o n : Nat) : (s.charge r o n).supEvents = s.supEvents := rfl
@[simp] theorem charge_nextFence (s : State) (r o n : Nat) : (s.charge r o n).nextFence = s.nextFence := rfl
@[simp] theorem charge_cur (s : State) (r o n : Nat) : (s.charge r o n).cur = s.cur := rfl
@[simp] theorem charge_curSlot (s : State) (r o n : Nat) : (s.charge r o n).curSlot = s.curSlot := rfl
@[simp] theorem charge_curWord (s : State) (r o n : Nat) : (s.charge r o n).curWord = s.curWord := rfl
@[simp] theorem charge_curEng (s : State) (r o n : Nat) : (s.charge r o n).curEng = s.curEng := rfl
@[simp] theorem charge_subj (s : State) (r o n : Nat) : (s.charge r o n).subj = s.subj := rfl
@[simp] theorem charge_now (s : State) (r o n : Nat) : (s.charge r o n).now = s.now := rfl
@[simp] theorem charge_choices (s : State) (r o n : Nat) : (s.charge r o n).choices = s.choices := rfl
@[simp] theorem charge_trial (s : State) (r o n : Nat) : (s.charge r o n).trial = s.trial := rfl
@[simp] theorem charge_met (s : State) (r o n : Nat) : (s.charge r o n).met = s.met := rfl
@[simp] theorem charge_agenda (s : State) (r o n : Nat) : (s.charge r o n).agenda = s.agenda := rfl

/-! ### pendAsync -/

@[simp] theorem pendAsync_clusters (s : State) (c : CoreId) (k : Nat) (x y : Word) : (s.pendAsync c k x y).clusters = s.clusters := rfl
@[simp] theorem pendAsync_engines (s : State) (c : CoreId) (k : Nat) (x y : Word) : (s.pendAsync c k x y).engines = s.engines := rfl
@[simp] theorem pendAsync_hbm (s : State) (c : CoreId) (k : Nat) (x y : Word) : (s.pendAsync c k x y).hbm = s.hbm := rfl
@[simp] theorem pendAsync_scm (s : State) (c : CoreId) (k : Nat) (x y : Word) : (s.pendAsync c k x y).scm = s.scm := rfl
@[simp] theorem pendAsync_scmBuf (s : State) (c : CoreId) (k : Nat) (x y : Word) : (s.pendAsync c k x y).scmBuf = s.scmBuf := rfl
@[simp] theorem pendAsync_accesses (s : State) (c : CoreId) (k : Nat) (x y : Word) : (s.pendAsync c k x y).accesses = s.accesses := rfl
@[simp] theorem pendAsync_jobs (s : State) (c : CoreId) (k : Nat) (x y : Word) : (s.pendAsync c k x y).jobs = s.jobs := rfl
@[simp] theorem pendAsync_nextJob (s : State) (c : CoreId) (k : Nat) (x y : Word) : (s.pendAsync c k x y).nextJob = s.nextJob := rfl
@[simp] theorem pendAsync_trans (s : State) (c : CoreId) (k : Nat) (x y : Word) : (s.pendAsync c k x y).trans = s.trans := rfl
@[simp] theorem pendAsync_elog (s : State) (c : CoreId) (k : Nat) (x y : Word) : (s.pendAsync c k x y).elog = s.elog := rfl
@[simp] theorem pendAsync_rtabBase (s : State) (c : CoreId) (k : Nat) (x y : Word) : (s.pendAsync c k x y).rtabBase = s.rtabBase := rfl
@[simp] theorem pendAsync_regStat (s : State) (c : CoreId) (k : Nat) (x y : Word) : (s.pendAsync c k x y).regStat = s.regStat := rfl
@[simp] theorem pendAsync_regions (s : State) (c : CoreId) (k : Nat) (x y : Word) : (s.pendAsync c k x y).regions = s.regions := rfl
@[simp] theorem pendAsync_tasks (s : State) (c : CoreId) (k : Nat) (x y : Word) : (s.pendAsync c k x y).tasks = s.tasks := rfl
@[simp] theorem pendAsync_readyCount (s : State) (c : CoreId) (k : Nat) (x y : Word) : (s.pendAsync c k x y).readyCount = s.readyCount := rfl
@[simp] theorem pendAsync_parts (s : State) (c : CoreId) (k : Nat) (x y : Word) : (s.pendAsync c k x y).parts = s.parts := rfl
@[simp] theorem pendAsync_power (s : State) (c : CoreId) (k : Nat) (x y : Word) : (s.pendAsync c k x y).power = s.power := rfl
@[simp] theorem pendAsync_hib (s : State) (c : CoreId) (k : Nat) (x y : Word) : (s.pendAsync c k x y).hib = s.hib := rfl
@[simp] theorem pendAsync_boot (s : State) (c : CoreId) (k : Nat) (x y : Word) : (s.pendAsync c k x y).boot = s.boot := rfl
@[simp] theorem pendAsync_leases (s : State) (c : CoreId) (k : Nat) (x y : Word) : (s.pendAsync c k x y).leases = s.leases := rfl
@[simp] theorem pendAsync_leaseReqs (s : State) (c : CoreId) (k : Nat) (x y : Word) : (s.pendAsync c k x y).leaseReqs = s.leaseReqs := rfl
@[simp] theorem pendAsync_nextLease (s : State) (c : CoreId) (k : Nat) (x y : Word) : (s.pendAsync c k x y).nextLease = s.nextLease := rfl
@[simp] theorem pendAsync_leaseSeqs (s : State) (c : CoreId) (k : Nat) (x y : Word) : (s.pendAsync c k x y).leaseSeqs = s.leaseSeqs := rfl
@[simp] theorem pendAsync_packets (s : State) (c : CoreId) (k : Nat) (x y : Word) : (s.pendAsync c k x y).packets = s.packets := rfl
@[simp] theorem pendAsync_l2 (s : State) (c : CoreId) (k : Nat) (x y : Word) : (s.pendAsync c k x y).l2 = s.l2 := rfl
@[simp] theorem pendAsync_charges (s : State) (c : CoreId) (k : Nat) (x y : Word) : (s.pendAsync c k x y).charges = s.charges := rfl
@[simp] theorem pendAsync_accruedAt (s : State) (c : CoreId) (k : Nat) (x y : Word) : (s.pendAsync c k x y).accruedAt = s.accruedAt := rfl
@[simp] theorem pendAsync_alloc (s : State) (c : CoreId) (k : Nat) (x y : Word) : (s.pendAsync c k x y).alloc = s.alloc := rfl
@[simp] theorem pendAsync_strands (s : State) (c : CoreId) (k : Nat) (x y : Word) : (s.pendAsync c k x y).strands = s.strands := rfl
@[simp] theorem pendAsync_rings (s : State) (c : CoreId) (k : Nat) (x y : Word) : (s.pendAsync c k x y).rings = s.rings := rfl
@[simp] theorem pendAsync_receivers (s : State) (c : CoreId) (k : Nat) (x y : Word) : (s.pendAsync c k x y).receivers = s.receivers := rfl
@[simp] theorem pendAsync_lockedAt (s : State) (c : CoreId) (k : Nat) (x y : Word) : (s.pendAsync c k x y).lockedAt = s.lockedAt := rfl
@[simp] theorem pendAsync_modid (s : State) (c : CoreId) (k : Nat) (x y : Word) : (s.pendAsync c k x y).modid = s.modid := rfl
@[simp] theorem pendAsync_fabRows (s : State) (c : CoreId) (k : Nat) (x y : Word) : (s.pendAsync c k x y).fabRows = s.fabRows := rfl
@[simp] theorem pendAsync_fabCols (s : State) (c : CoreId) (k : Nat) (x y : Word) : (s.pendAsync c k x y).fabCols = s.fabCols := rfl
@[simp] theorem pendAsync_trained (s : State) (c : CoreId) (k : Nat) (x y : Word) : (s.pendAsync c k x y).trained = s.trained := rfl
@[simp] theorem pendAsync_supEvents (s : State) (c : CoreId) (k : Nat) (x y : Word) : (s.pendAsync c k x y).supEvents = s.supEvents := rfl
@[simp] theorem pendAsync_nextFence (s : State) (c : CoreId) (k : Nat) (x y : Word) : (s.pendAsync c k x y).nextFence = s.nextFence := rfl
@[simp] theorem pendAsync_cur (s : State) (c : CoreId) (k : Nat) (x y : Word) : (s.pendAsync c k x y).cur = s.cur := rfl
@[simp] theorem pendAsync_curSlot (s : State) (c : CoreId) (k : Nat) (x y : Word) : (s.pendAsync c k x y).curSlot = s.curSlot := rfl
@[simp] theorem pendAsync_curWord (s : State) (c : CoreId) (k : Nat) (x y : Word) : (s.pendAsync c k x y).curWord = s.curWord := rfl
@[simp] theorem pendAsync_curEng (s : State) (c : CoreId) (k : Nat) (x y : Word) : (s.pendAsync c k x y).curEng = s.curEng := rfl
@[simp] theorem pendAsync_subj (s : State) (c : CoreId) (k : Nat) (x y : Word) : (s.pendAsync c k x y).subj = s.subj := rfl
@[simp] theorem pendAsync_now (s : State) (c : CoreId) (k : Nat) (x y : Word) : (s.pendAsync c k x y).now = s.now := rfl
@[simp] theorem pendAsync_choices (s : State) (c : CoreId) (k : Nat) (x y : Word) : (s.pendAsync c k x y).choices = s.choices := rfl
@[simp] theorem pendAsync_trial (s : State) (c : CoreId) (k : Nat) (x y : Word) : (s.pendAsync c k x y).trial = s.trial := rfl
@[simp] theorem pendAsync_met (s : State) (c : CoreId) (k : Nat) (x y : Word) : (s.pendAsync c k x y).met = s.met := rfl
@[simp] theorem pendAsync_agenda (s : State) (c : CoreId) (k : Nat) (x y : Word) : (s.pendAsync c k x y).agenda = s.agenda := rfl

/-! ### The field itself -/

@[simp] theorem core_setCore_same (s : State) (c : CoreId) (x : Core) : (s.setCore c x).core c = x := by
  simp [State.core, State.setCore]

@[simp] theorem core_modCore_same (s : State) (c : CoreId) (f : Core → Core) : (s.modCore c f).core c = f (s.core c) := by
  simp [State.modCore]

theorem core_setCore_ne {s : State} {c d : CoreId} {x : Core} (h : d ≠ c) : (s.setCore c x).core d = s.core d := by
  have h' : c.val ≠ d.val := fun e => h (Fin.ext e.symm)
  simp [State.core, State.setCore, Vector.getElem_set_ne, h']

theorem core_modCore_ne {s : State} {c d : CoreId} {f : Core → Core} (h : d ≠ c) : (s.modCore c f).core d = s.core d :=
  core_setCore_ne h

@[simp] theorem me_modMe (s : State) (f : Core → Core) : (s.modMe f).me = f s.me := core_modCore_same s s.cur f

@[simp] theorem cluster_modCluster_same (s : State) (c : ClusterId) (f : Cluster → Cluster) :
    (s.modCluster c f).cluster c = f (s.cluster c) := by
  simp [State.cluster, State.modCluster]

@[simp] theorem engine_modEngine_same (s : State) (e : EngineId) (f : Engine → Engine) :
    (s.modEngine e f).engine e = f (s.engine e) := by
  simp [State.engine, State.modEngine]

/-- Two changes of one core are one. -/
@[simp] theorem modCore_modCore (s : State) (c : CoreId) (f g : Core → Core) :
    (s.modCore c f).modCore c g = s.modCore c fun x => g (f x) := by
  simp [State.modCore, State.setCore, State.core]

@[simp] theorem modMe_modMe (s : State) (f g : Core → Core) : (s.modMe f).modMe g = s.modMe fun x => g (f x) :=
  modCore_modCore s s.cur f g

end Sys2Proof.Laws
end

