-- ==== Sys2Proof/Laws/Ops.lean ====
section
/-! SUPPORT. What each shared operation does, said once: the provers cite these and unfold no operation. -/

namespace Sys2Proof.Laws

open Sys2Proof Sys2Proof.Machine

/-! ### The current core -/

theorem withMe_me (s : State) : s.withMe s.me = s := by
  simp [State.withMe, State.me, State.core]

@[simp] theorem withMe_withMe (s : State) (x y : Core) : (s.withMe x).withMe y = s.withMe y := by
  simp [State.withMe]

@[simp] theorem me_withMe (s : State) (x : Core) : (s.withMe x).me = x := by
  simp [State.withMe, State.me, State.core]

theorem core_withMe_ne (s : State) (x : Core) {c : CoreId} (h : c ≠ s.cur) : (s.withMe x).core c = s.core c := by
  have h' : s.cur.val ≠ c.val := fun e => h (Fin.ext e.symm)
  simp [State.withMe, State.core, h']

/-- An update of the current core is the state with that core in its place. -/
theorem modMe_eq_withMe (s : State) (f : Core → Core) : s.modMe f = s.withMe (f s.me) := rfl

/-! ### Results in flight -/

/-- An instruction that delivers one result puts it in flight and changes nothing else. -/
theorem emit_eq_delivering (s : State) (lat : Nat) (r : Result) : s.emit lat r = s.delivering lat [r] := rfl

/-- Delivering nothing leaves the state as it is. -/
@[simp] theorem delivering_nil (s : State) (lat : Nat) : s.delivering lat [] = s := by
  rw [State.delivering, List.map_nil, List.append_nil]; exact withMe_me s

/-- What delivers leaves every other core alone. -/
theorem core_delivering_ne (s : State) (lat : Nat) (l : List Result) {c : CoreId} (h : c ≠ s.cur) :
    (s.delivering lat l).core c = s.core c := core_withMe_ne s _ h

/-- What delivers leaves the scalar registers, predicates and local memory as they are until the results become readable. -/
theorem delivering_me_loc (s : State) (lat : Nat) (l : List Result) : (s.delivering lat l).me.loc = s.me.loc := by
  simp [State.delivering]

theorem emitLoad_eq_loading (s : State) (ready a n : Nat) (d : LoadDest) : s.emitLoad ready a n d = s.loading ready a n d := rfl

theorem emitStore_eq_storing (s : State) (a : Nat) (bs : List Byte) (half : Bool) : s.emitStore a bs half = s.storing a bs half := rfl

/-! ### Commands -/

/-- A command put into the m queue is its last, numbered next, and counted. -/
theorem enqueue_m (s : State) (k : CmdKind) : s.enqueue .m k = s.queuedM k := by
  simp [State.enqueue, State.queuedM, State.modMe, State.modCore, State.setCore, State.withMe, State.core, State.me, Core.enqueue,
    State.commandOf, Queues.put, Queues.get]

/-- A command put into the bank queue is its last. -/
theorem enqueue_bank (s : State) (k : CmdKind) : s.enqueue .bank k = s.queuedBank k := by
  simp [State.enqueue, State.queuedBank, State.modMe, State.modCore, State.setCore, State.withMe, State.core, State.me, Core.enqueue,
    State.commandOf, Queues.put, Queues.get]

theorem withOpen_nextId (q : Queues) (cb : Bool) : (q.withOpen cb).nextId = q.nextId := by
  unfold Queues.withOpen; split <;> rfl

/-- A member command stands at the end of its queue with its hint, counted in the open batch of the issuing slot. -/
theorem member_eq_queued (s : State) (q : QueueId) (k : CmdKind) (h : q ≠ .m) (hint : Option Hint := none) :
    s.member q k none hint = s.queued q k (hint.map (·.code.toNat)) := by
  have hn : ∀ cb, ((s.core s.cur).q.withOpen cb).nextId = s.me.q.nextId := fun cb => withOpen_nextId _ cb
  have h' : (q == .m) = false := by cases q <;> simp_all
  simp only [State.member, State.enqueue, State.modMe, State.modCore, State.setCore, State.queued, State.withMe, Core.enqueue,
    State.commandOf, State.mySlotCb, State.joined, State.placeInBatch, h', Queues.modBatch]
  simp [hn, State.me]

/-! ### Checks and traps -/

@[simp] theorem orRaise_none (s : State) (f : State → State) : s.orRaise none f = f s := rfl

@[simp] theorem orRaise_some (s : State) (r : Raise) (f : State → State) : s.orRaise (some r) f = s.raise r := rfl

@[simp] theorem failIf_false (r : Raise) : failIf false r = none := rfl

@[simp] theorem failIf_true (r : Raise) : failIf true r = some r := rfl

/-- A check fails, and with its own raise, exactly where its condition holds. -/
theorem failIf_eq_some {b : Bool} {r x : Raise} : failIf b r = some x ↔ b = true ∧ x = r := by
  cases b <;> simp [failIf, eq_comm]

/-- What a bundle's trial meets is noted and nothing else happens. -/
theorem raise_trial (s : State) (r : Raise) (h : s.trial = true) : s.raise r = { s with met := some r } := if_pos h

/-- Outside a trial what an instruction meets is taken. -/
theorem raise_taken (s : State) (r : Raise) (h : s.trial = false) : s.raise r = s.takeRaise r := if_neg (by simp [h])

/-- With no check failed nothing is raised. -/
theorem pickRaise_none (l : List (Option Raise)) (h : ∀ r ∈ l, r = none) : pickRaise l = none := by
  unfold pickRaise
  induction l with
  | nil => rfl
  | cons x l ih =>
    have hx : x = none := h x (by simp)
    subst hx
    exact ih fun r hr => h r (List.mem_cons_of_mem _ hr)

/-- A first failure of the best rank is what is raised. -/
theorem pickRaise_first (r : Raise) (l : List (Option Raise)) (h : r.rank = 0) : pickRaise (some r :: l) = some r := by
  simp only [pickRaise, List.foldl_cons]
  induction l with
  | nil => rfl
  | cons x l ih => cases x <;> simp [ih, h]

/-- Names that can all be used raise no VWIN. -/
theorem vwinCheck_usable (s : State) (names : List Nat) (h : ∀ n ∈ names, s.me.badName n = false) : s.vwinCheck names = none := by
  have : names.find? s.me.badName = none := List.find?_eq_none.2 fun n hn => by simp [h n hn]
  simp [State.vwinCheck, this]

/-- A privileged instruction passes its check in privileged mode and in no other. -/
theorem privCheck_eq_none (s : State) : s.privCheck = none ↔ s.me.sys.mode = true := by
  cases h : s.me.sys.mode <;> simp [State.privCheck, failIf, h]

/-- Where a synchronous trap goes (19 R343, R346, R349). -/
theorem takeTrap_cases (s : State) (c : CoreId) (slot cause : Nat) (t0 t1 b : Word) :
    s.takeTrap c slot cause true t0 t1 b =
      if (s.core c).sys.uh = true ∧ systemCause cause = false then
        s.fatal c (BitVec.ofNat 64 causeFatal) b (BitVec.ofNat 64 (0x10000 + cause)) 0
      else if systemCause cause = true ∨ (s.core c).sys.mode = true then
        (if (s.core c).sys.sh = true then s.fatal c (BitVec.ofNat 64 causeFatal) b (BitVec.ofNat 64 (0x20000 + cause)) 0
         else s.enterSystem c cause (tcauseValue cause slot true (s.core c).sys.uh) b t0 t1)
      else if s.userEntry c = 0 then s.fatal c (BitVec.ofNat 64 cause) b t0 t1
      else s.enterUser c (tcauseValue cause slot true (s.core c).sys.uh) b t0 t1 := by
  simp [State.takeTrap]

end Sys2Proof.Laws
end

