-- ==== Sys2Proof/Laws/PerInstr.lean ====
section
/-! SUPPORT. One law for every instruction: what the encoder gives a slot instruction fits the fields of a slot word (07 R121). -/

namespace Sys2Proof.Laws

open Sys2Proof

section

-- One lemma after another: in parallel they take a thread each.
set_option Elab.async false

/-- An instruction that the encoder gives a slot has an opcode of 6 bits and operand bits that stay within the 22 below it, and no word of
an engine. -/
def EncodingFits.Statement (i : Instr) : Prop :=
  match encodeOp i with
  | some (_, op, x) => op < 2 ^ 6 ∧ x < 2 ^ 22 ∧ encodeCrisum i = none
  | none => True

/-- A field at its place ends below the next place. -/
theorem put_fits {n : Nat} (lo : Nat) (x : BitVec n) : put lo x + 2 ^ lo ≤ 2 ^ (lo + n) := by
  have h : x.toNat + 1 ≤ 2 ^ n := x.isLt
  calc put lo x + 2 ^ lo = (x.toNat + 1) * 2 ^ lo := by unfold put; ring
    _ ≤ 2 ^ n * 2 ^ lo := Nat.mul_le_mul_right _ h
    _ = 2 ^ (lo + n) := by rw [pow_add]; ring

/-- The law from the bound on its operand bits, for an instruction whose class and opcode stand in the encoder. -/
theorem fits_of {i : Instr} {cls : SlotClass} {op x : Nat} (hi : encodeOp i = some (cls, op, x)) (hx : x < 2 ^ 22)
    (hop : op < 2 ^ 6 := by decide) (hc : encodeCrisum i = none := by rfl) :
    EncodingFits.Statement i := by
  unfold EncodingFits.Statement; rw [hi]; exact ⟨hop, hx, hc⟩

theorem EncodingFits.nop : EncodingFits.Statement .nop := trivial
theorem EncodingFits.nullifierSkip : EncodingFits.Statement .nullifierSkip := trivial
theorem EncodingFits.br (off : BitVec 22) : EncodingFits.Statement (.br off) := fits_of rfl (by
  have h0 := put_fits 0 off
  simp only [Nat.reduceAdd, Nat.reducePow] at h0; omega)
theorem EncodingFits.bri (a : BitVec 5) : EncodingFits.Statement (.bri a) := fits_of rfl (by
  have h0 := put_fits 17 a
  simp only [Nat.reduceAdd, Nat.reducePow] at h0; omega)
theorem EncodingFits.call (off : BitVec 22) : EncodingFits.Statement (.call off) := fits_of rfl (by
  have h0 := put_fits 0 off
  simp only [Nat.reduceAdd, Nat.reducePow] at h0; omega)
theorem EncodingFits.calli (a : BitVec 5) : EncodingFits.Statement (.calli a) := fits_of rfl (by
  have h0 := put_fits 17 a
  simp only [Nat.reduceAdd, Nat.reducePow] at h0; omega)
theorem EncodingFits.ret : EncodingFits.Statement .ret := fits_of rfl (by decide)
theorem EncodingFits.loop (lc : BitVec 2) (count : BitVec 5) (len : BitVec 15) : EncodingFits.Statement (.loop lc count len) := fits_of rfl (by
  have h0 := put_fits 20 lc; have h1 := put_fits 15 count; have h2 := put_fits 0 len
  simp only [Nat.reduceAdd, Nat.reducePow] at h0 h1 h2; omega)
theorem EncodingFits.loopi (lc : BitVec 2) (count : BitVec 10) (len : BitVec 10) : EncodingFits.Statement (.loopi lc count len) := fits_of rfl (by
  have h0 := put_fits 20 lc; have h1 := put_fits 10 count; have h2 := put_fits 0 len
  simp only [Nat.reduceAdd, Nat.reducePow] at h0 h1 h2; omega)
theorem EncodingFits.mloop (lc : BitVec 2) (count : BitVec 5) (stages : BitVec 4) (len : BitVec 11) : EncodingFits.Statement (.mloop lc count stages len) := fits_of rfl (by
  have h0 := put_fits 20 lc; have h1 := put_fits 15 count; have h2 := put_fits 11 stages; have h3 := put_fits 0 len
  simp only [Nat.reduceAdd, Nat.reducePow] at h0 h1 h2 h3; omega)
theorem EncodingFits.lexit (lc : BitVec 2) : EncodingFits.Statement (.lexit lc) := fits_of rfl (by
  have h0 := put_fits 20 lc
  simp only [Nat.reduceAdd, Nat.reducePow] at h0; omega)
theorem EncodingFits.exit : EncodingFits.Statement .exit := fits_of rfl (by decide)
theorem EncodingFits.yield : EncodingFits.Statement .yield := fits_of rfl (by decide)
theorem EncodingFits.hbar : EncodingFits.Statement .hbar := fits_of rfl (by decide)
theorem EncodingFits.hbarComplete : EncodingFits.Statement .hbarComplete := trivial
theorem EncodingFits.waitf (h : BitVec 4) (n : BitVec 10) : EncodingFits.Statement (.waitf h n) := fits_of rfl (by
  have h0 := put_fits 18 h; have h1 := put_fits 8 n
  simp only [Nat.reduceAdd, Nat.reducePow] at h0 h1; omega)
theorem EncodingFits.waite (h : BitVec 4) (n : BitVec 10) : EncodingFits.Statement (.waite h n) := fits_of rfl (by
  have h0 := put_fits 18 h; have h1 := put_fits 8 n
  simp only [Nat.reduceAdd, Nat.reducePow] at h0 h1; omega)
theorem EncodingFits.waita (addr value : BitVec 5) (cond : WCond) (w : Width) : EncodingFits.Statement (.waita addr value cond w) := fits_of rfl (by
  have h0 := put_fits 17 addr; have h1 := put_fits 12 value; have h2 := put_fits 9 cond.code; have h3 := put_fits 8 w.code
  simp only [Nat.reduceAdd, Nat.reducePow] at h0 h1 h2 h3; omega)
theorem EncodingFits.waitb (n : BitVec 6) : EncodingFits.Statement (.waitb n) := fits_of rfl (by
  have h0 := put_fits 16 n
  simp only [Nat.reduceAdd, Nat.reducePow] at h0; omega)
theorem EncodingFits.waitq (mask : QMask) : EncodingFits.Statement (.waitq mask) := fits_of rfl (by
  have h0 := put_fits 17 mask.code
  simp only [Nat.reduceAdd, Nat.reducePow] at h0; omega)
theorem EncodingFits.drain : EncodingFits.Statement .drain := fits_of rfl (by decide)
theorem EncodingFits.waitSatisfied : EncodingFits.Statement .waitSatisfied := trivial
theorem EncodingFits.probe (base len : BitVec 5) (w : Bool) : EncodingFits.Statement (.probe base len w) := fits_of rfl (by
  have h0 := put_fits 17 base; have h1 := put_fits 12 len; have h2 := put_fits 11 (BitVec.ofBool w)
  simp only [Nat.reduceAdd, Nat.reducePow] at h0 h1 h2; omega)
theorem EncodingFits.spawn (task : BitVec 5) (pd : BitVec 4) : EncodingFits.Statement (.spawn task pd) := fits_of rfl (by
  have h0 := put_fits 17 task; have h1 := put_fits 13 pd
  simp only [Nat.reduceAdd, Nat.reducePow] at h0 h1; omega)
theorem EncodingFits.spawnw (task : BitVec 5) : EncodingFits.Statement (.spawnw task) := fits_of rfl (by
  have h0 := put_fits 17 task
  simp only [Nat.reduceAdd, Nat.reducePow] at h0; omega)
theorem EncodingFits.spawnwConversion : EncodingFits.Statement .spawnwConversion := trivial
theorem EncodingFits.spawnWaitRetry : EncodingFits.Statement .spawnWaitRetry := trivial
theorem EncodingFits.trap (imm : BitVec 16) : EncodingFits.Statement (.trap imm) := fits_of rfl (by
  have h0 := put_fits 0 imm
  simp only [Nat.reduceAdd, Nat.reducePow] at h0; omega)
theorem EncodingFits.clkdiv (dom : Domain) (code : BitVec 4) : EncodingFits.Statement (.clkdiv dom code) := fits_of rfl (by
  have h0 := put_fits 20 dom.code; have h1 := put_fits 16 code
  simp only [Nat.reduceAdd, Nat.reducePow] at h0 h1; omega)
theorem EncodingFits.rot (imm : BitVec 10) : EncodingFits.Statement (.rot imm) := fits_of rfl (by
  have h0 := put_fits 0 imm
  simp only [Nat.reduceAdd, Nat.reducePow] at h0; omega)
theorem EncodingFits.tret : EncodingFits.Statement .tret := fits_of rfl (by decide)
theorem EncodingFits.rte : EncodingFits.Statement .rte := fits_of rfl (by decide)
theorem EncodingFits.mtsr (a : BitVec 5) (index : BitVec 17) : EncodingFits.Statement (.mtsr a index) := fits_of rfl (by
  have h0 := put_fits 17 a; have h1 := put_fits 0 index
  simp only [Nat.reduceAdd, Nat.reducePow] at h0 h1; omega)
theorem EncodingFits.mfsr (d : BitVec 5) (index : BitVec 17) : EncodingFits.Statement (.mfsr d index) := fits_of rfl (by
  have h0 := put_fits 17 d; have h1 := put_fits 0 index
  simp only [Nat.reduceAdd, Nat.reducePow] at h0 h1; omega)
theorem EncodingFits.halt : EncodingFits.Statement .halt := fits_of rfl (by decide)
theorem EncodingFits.pfack : EncodingFits.Statement .pfack := fits_of rfl (by decide)
theorem EncodingFits.pfbudExhausted : EncodingFits.Statement .pfbudExhausted := trivial
theorem EncodingFits.pfwHoldExpiry : EncodingFits.Statement .pfwHoldExpiry := trivial
theorem EncodingFits.xinv (ia len : BitVec 5) : EncodingFits.Statement (.xinv ia len) := fits_of rfl (by
  have h0 := put_fits 17 ia; have h1 := put_fits 12 len
  simp only [Nat.reduceAdd, Nat.reducePow] at h0 h1; omega)
theorem EncodingFits.errack (a : BitVec 5) : EncodingFits.Statement (.errack a) := fits_of rfl (by
  have h0 := put_fits 17 a
  simp only [Nat.reduceAdd, Nat.reducePow] at h0; omega)
theorem EncodingFits.ckmark (a : BitVec 5) : EncodingFits.Statement (.ckmark a) := fits_of rfl (by
  have h0 := put_fits 17 a
  simp only [Nat.reduceAdd, Nat.reducePow] at h0; omega)
theorem EncodingFits.add (d a b : BitVec 5) : EncodingFits.Statement (.add d a b) := fits_of rfl (by
  have h0 := put_fits 17 d; have h1 := put_fits 12 a; have h2 := put_fits 7 b
  simp only [Nat.reduceAdd, Nat.reducePow] at h0 h1 h2; omega)
theorem EncodingFits.sub (d a b : BitVec 5) : EncodingFits.Statement (.sub d a b) := fits_of rfl (by
  have h0 := put_fits 17 d; have h1 := put_fits 12 a; have h2 := put_fits 7 b
  simp only [Nat.reduceAdd, Nat.reducePow] at h0 h1 h2; omega)
theorem EncodingFits.mul (d a b : BitVec 5) : EncodingFits.Statement (.mul d a b) := fits_of rfl (by
  have h0 := put_fits 17 d; have h1 := put_fits 12 a; have h2 := put_fits 7 b
  simp only [Nat.reduceAdd, Nat.reducePow] at h0 h1 h2; omega)
theorem EncodingFits.mulh (d a b : BitVec 5) : EncodingFits.Statement (.mulh d a b) := fits_of rfl (by
  have h0 := put_fits 17 d; have h1 := put_fits 12 a; have h2 := put_fits 7 b
  simp only [Nat.reduceAdd, Nat.reducePow] at h0 h1 h2; omega)
theorem EncodingFits.mulhn (d a b : BitVec 5) : EncodingFits.Statement (.mulhn d a b) := fits_of rfl (by
  have h0 := put_fits 17 d; have h1 := put_fits 12 a; have h2 := put_fits 7 b
  simp only [Nat.reduceAdd, Nat.reducePow] at h0 h1 h2; omega)
theorem EncodingFits.div (d a b : BitVec 5) : EncodingFits.Statement (.div d a b) := fits_of rfl (by
  have h0 := put_fits 17 d; have h1 := put_fits 12 a; have h2 := put_fits 7 b
  simp only [Nat.reduceAdd, Nat.reducePow] at h0 h1 h2; omega)
theorem EncodingFits.divn (d a b : BitVec 5) : EncodingFits.Statement (.divn d a b) := fits_of rfl (by
  have h0 := put_fits 17 d; have h1 := put_fits 12 a; have h2 := put_fits 7 b
  simp only [Nat.reduceAdd, Nat.reducePow] at h0 h1 h2; omega)
theorem EncodingFits.rem (d a b : BitVec 5) : EncodingFits.Statement (.rem d a b) := fits_of rfl (by
  have h0 := put_fits 17 d; have h1 := put_fits 12 a; have h2 := put_fits 7 b
  simp only [Nat.reduceAdd, Nat.reducePow] at h0 h1 h2; omega)
theorem EncodingFits.and (d a b : BitVec 5) : EncodingFits.Statement (.and d a b) := fits_of rfl (by
  have h0 := put_fits 17 d; have h1 := put_fits 12 a; have h2 := put_fits 7 b
  simp only [Nat.reduceAdd, Nat.reducePow] at h0 h1 h2; omega)
theorem EncodingFits.or (d a b : BitVec 5) : EncodingFits.Statement (.or d a b) := fits_of rfl (by
  have h0 := put_fits 17 d; have h1 := put_fits 12 a; have h2 := put_fits 7 b
  simp only [Nat.reduceAdd, Nat.reducePow] at h0 h1 h2; omega)
theorem EncodingFits.xor (d a b : BitVec 5) : EncodingFits.Statement (.xor d a b) := fits_of rfl (by
  have h0 := put_fits 17 d; have h1 := put_fits 12 a; have h2 := put_fits 7 b
  simp only [Nat.reduceAdd, Nat.reducePow] at h0 h1 h2; omega)
theorem EncodingFits.shl (d a b : BitVec 5) : EncodingFits.Statement (.shl d a b) := fits_of rfl (by
  have h0 := put_fits 17 d; have h1 := put_fits 12 a; have h2 := put_fits 7 b
  simp only [Nat.reduceAdd, Nat.reducePow] at h0 h1 h2; omega)
theorem EncodingFits.shr (d a b : BitVec 5) : EncodingFits.Statement (.shr d a b) := fits_of rfl (by
  have h0 := put_fits 17 d; have h1 := put_fits 12 a; have h2 := put_fits 7 b
  simp only [Nat.reduceAdd, Nat.reducePow] at h0 h1 h2; omega)
theorem EncodingFits.sra (d a b : BitVec 5) : EncodingFits.Statement (.sra d a b) := fits_of rfl (by
  have h0 := put_fits 17 d; have h1 := put_fits 12 a; have h2 := put_fits 7 b
  simp only [Nat.reduceAdd, Nat.reducePow] at h0 h1 h2; omega)
theorem EncodingFits.min (d a b : BitVec 5) : EncodingFits.Statement (.min d a b) := fits_of rfl (by
  have h0 := put_fits 17 d; have h1 := put_fits 12 a; have h2 := put_fits 7 b
  simp only [Nat.reduceAdd, Nat.reducePow] at h0 h1 h2; omega)
theorem EncodingFits.max (d a b : BitVec 5) : EncodingFits.Statement (.max d a b) := fits_of rfl (by
  have h0 := put_fits 17 d; have h1 := put_fits 12 a; have h2 := put_fits 7 b
  simp only [Nat.reduceAdd, Nat.reducePow] at h0 h1 h2; omega)
theorem EncodingFits.minn (d a b : BitVec 5) : EncodingFits.Statement (.minn d a b) := fits_of rfl (by
  have h0 := put_fits 17 d; have h1 := put_fits 12 a; have h2 := put_fits 7 b
  simp only [Nat.reduceAdd, Nat.reducePow] at h0 h1 h2; omega)
theorem EncodingFits.maxn (d a b : BitVec 5) : EncodingFits.Statement (.maxn d a b) := fits_of rfl (by
  have h0 := put_fits 17 d; have h1 := put_fits 12 a; have h2 := put_fits 7 b
  simp only [Nat.reduceAdd, Nat.reducePow] at h0 h1 h2; omega)
theorem EncodingFits.clz (d a : BitVec 5) : EncodingFits.Statement (.clz d a) := fits_of rfl (by
  have h0 := put_fits 17 d; have h1 := put_fits 12 a
  simp only [Nat.reduceAdd, Nat.reducePow] at h0 h1; omega)
theorem EncodingFits.popc (d a : BitVec 5) : EncodingFits.Statement (.popc d a) := fits_of rfl (by
  have h0 := put_fits 17 d; have h1 := put_fits 12 a
  simp only [Nat.reduceAdd, Nat.reducePow] at h0 h1; omega)
theorem EncodingFits.sel (d a b : BitVec 5) (p : BitVec 4) : EncodingFits.Statement (.sel d a b p) := fits_of rfl (by
  have h0 := put_fits 17 d; have h1 := put_fits 12 a; have h2 := put_fits 7 b; have h3 := put_fits 0 p
  simp only [Nat.reduceAdd, Nat.reducePow] at h0 h1 h2 h3; omega)
theorem EncodingFits.addi (d a : BitVec 5) (imm : BitVec 12) : EncodingFits.Statement (.addi d a imm) := fits_of rfl (by
  have h0 := put_fits 17 d; have h1 := put_fits 12 a; have h2 := put_fits 0 imm
  simp only [Nat.reduceAdd, Nat.reducePow] at h0 h1 h2; omega)
theorem EncodingFits.andi (d a : BitVec 5) (imm : BitVec 12) : EncodingFits.Statement (.andi d a imm) := fits_of rfl (by
  have h0 := put_fits 17 d; have h1 := put_fits 12 a; have h2 := put_fits 0 imm
  simp only [Nat.reduceAdd, Nat.reducePow] at h0 h1 h2; omega)
theorem EncodingFits.ori (d a : BitVec 5) (imm : BitVec 12) : EncodingFits.Statement (.ori d a imm) := fits_of rfl (by
  have h0 := put_fits 17 d; have h1 := put_fits 12 a; have h2 := put_fits 0 imm
  simp only [Nat.reduceAdd, Nat.reducePow] at h0 h1 h2; omega)
theorem EncodingFits.xori (d a : BitVec 5) (imm : BitVec 12) : EncodingFits.Statement (.xori d a imm) := fits_of rfl (by
  have h0 := put_fits 17 d; have h1 := put_fits 12 a; have h2 := put_fits 0 imm
  simp only [Nat.reduceAdd, Nat.reducePow] at h0 h1 h2; omega)
theorem EncodingFits.shli (d a : BitVec 5) (imm : BitVec 6) : EncodingFits.Statement (.shli d a imm) := fits_of rfl (by
  have h0 := put_fits 17 d; have h1 := put_fits 12 a; have h2 := put_fits 0 imm
  simp only [Nat.reduceAdd, Nat.reducePow] at h0 h1 h2; omega)
theorem EncodingFits.shri (d a : BitVec 5) (imm : BitVec 6) : EncodingFits.Statement (.shri d a imm) := fits_of rfl (by
  have h0 := put_fits 17 d; have h1 := put_fits 12 a; have h2 := put_fits 0 imm
  simp only [Nat.reduceAdd, Nat.reducePow] at h0 h1 h2; omega)
theorem EncodingFits.srai (d a : BitVec 5) (imm : BitVec 6) : EncodingFits.Statement (.srai d a imm) := fits_of rfl (by
  have h0 := put_fits 17 d; have h1 := put_fits 12 a; have h2 := put_fits 0 imm
  simp only [Nat.reduceAdd, Nat.reducePow] at h0 h1 h2; omega)
theorem EncodingFits.movi (d : BitVec 5) (imm : BitVec 17) : EncodingFits.Statement (.movi d imm) := fits_of rfl (by
  have h0 := put_fits 17 d; have h1 := put_fits 0 imm
  simp only [Nat.reduceAdd, Nat.reducePow] at h0 h1; omega)
theorem EncodingFits.movh (d : BitVec 5) (imm : BitVec 17) : EncodingFits.Statement (.movh d imm) := fits_of rfl (by
  have h0 := put_fits 17 d; have h1 := put_fits 0 imm
  simp only [Nat.reduceAdd, Nat.reducePow] at h0 h1; omega)
theorem EncodingFits.cmp (pd pc : BitVec 4) (a b : BitVec 5) (cond : Cond) : EncodingFits.Statement (.cmp pd pc a b cond) := fits_of rfl (by
  have h0 := put_fits 18 pd; have h1 := put_fits 14 pc; have h2 := put_fits 9 a; have h3 := put_fits 4 b; have h4 := put_fits 0 cond.code
  simp only [Nat.reduceAdd, Nat.reducePow] at h0 h1 h2 h3 h4; omega)
theorem EncodingFits.cmpeqi (pd pc : BitVec 4) (a : BitVec 5) (imm : BitVec 9) : EncodingFits.Statement (.cmpeqi pd pc a imm) := fits_of rfl (by
  have h0 := put_fits 18 pd; have h1 := put_fits 14 pc; have h2 := put_fits 9 a; have h3 := put_fits 0 imm
  simp only [Nat.reduceAdd, Nat.reducePow] at h0 h1 h2 h3; omega)
theorem EncodingFits.cmplti (pd pc : BitVec 4) (a : BitVec 5) (imm : BitVec 9) : EncodingFits.Statement (.cmplti pd pc a imm) := fits_of rfl (by
  have h0 := put_fits 18 pd; have h1 := put_fits 14 pc; have h2 := put_fits 9 a; have h3 := put_fits 0 imm
  simp only [Nat.reduceAdd, Nat.reducePow] at h0 h1 h2 h3; omega)
theorem EncodingFits.cmpltni (pd pc : BitVec 4) (a : BitVec 5) (imm : BitVec 9) : EncodingFits.Statement (.cmpltni pd pc a imm) := fits_of rfl (by
  have h0 := put_fits 18 pd; have h1 := put_fits 14 pc; have h2 := put_fits 9 a; have h3 := put_fits 0 imm
  simp only [Nat.reduceAdd, Nat.reducePow] at h0 h1 h2 h3; omega)
theorem EncodingFits.pand (pd pa pb : BitVec 4) : EncodingFits.Statement (.pand pd pa pb) := fits_of rfl (by
  have h0 := put_fits 18 pd; have h1 := put_fits 14 pa; have h2 := put_fits 10 pb
  simp only [Nat.reduceAdd, Nat.reducePow] at h0 h1 h2; omega)
theorem EncodingFits.por (pd pa pb : BitVec 4) : EncodingFits.Statement (.por pd pa pb) := fits_of rfl (by
  have h0 := put_fits 18 pd; have h1 := put_fits 14 pa; have h2 := put_fits 10 pb
  simp only [Nat.reduceAdd, Nat.reducePow] at h0 h1 h2; omega)
theorem EncodingFits.pxor (pd pa pb : BitVec 4) : EncodingFits.Statement (.pxor pd pa pb) := fits_of rfl (by
  have h0 := put_fits 18 pd; have h1 := put_fits 14 pa; have h2 := put_fits 10 pb
  simp only [Nat.reduceAdd, Nat.reducePow] at h0 h1 h2; omega)
theorem EncodingFits.pandn (pd pa pb : BitVec 4) : EncodingFits.Statement (.pandn pd pa pb) := fits_of rfl (by
  have h0 := put_fits 18 pd; have h1 := put_fits 14 pa; have h2 := put_fits 10 pb
  simp only [Nat.reduceAdd, Nat.reducePow] at h0 h1 h2; omega)
theorem EncodingFits.ldl (d a : BitVec 5) (size : Size) (imm : BitVec 9) : EncodingFits.Statement (.ldl d a size imm) := fits_of rfl (by
  have h0 := put_fits 17 d; have h1 := put_fits 12 a; have h2 := put_fits 9 size.code; have h3 := put_fits 0 imm
  simp only [Nat.reduceAdd, Nat.reducePow] at h0 h1 h2 h3; omega)
theorem EncodingFits.stl (d a : BitVec 5) (size : Size) (imm : BitVec 9) : EncodingFits.Statement (.stl d a size imm) := fits_of rfl (by
  have h0 := put_fits 17 d; have h1 := put_fits 12 a; have h2 := put_fits 9 size.code; have h3 := put_fits 0 imm
  simp only [Nat.reduceAdd, Nat.reducePow] at h0 h1 h2 h3; omega)
theorem EncodingFits.ldsp (d : BitVec 5) (imm : BitVec 11) : EncodingFits.Statement (.ldsp d imm) := fits_of rfl (by
  have h0 := put_fits 17 d; have h1 := put_fits 0 imm
  simp only [Nat.reduceAdd, Nat.reducePow] at h0 h1; omega)
theorem EncodingFits.stsp (a : BitVec 5) (imm : BitVec 11) : EncodingFits.Statement (.stsp a imm) := fits_of rfl (by
  have h0 := put_fits 17 a; have h1 := put_fits 0 imm
  simp only [Nat.reduceAdd, Nat.reducePow] at h0 h1; omega)
theorem EncodingFits.mfc (d : BitVec 5) (index : BitVec 12) : EncodingFits.Statement (.mfc d index) := fits_of rfl (by
  have h0 := put_fits 17 d; have h1 := put_fits 0 index
  simp only [Nat.reduceAdd, Nat.reducePow] at h0 h1; omega)
theorem EncodingFits.mtc (a : BitVec 5) (index : BitVec 12) : EncodingFits.Statement (.mtc a index) := fits_of rfl (by
  have h0 := put_fits 17 a; have h1 := put_fits 0 index
  simp only [Nat.reduceAdd, Nat.reducePow] at h0 h1; omega)
theorem EncodingFits.mfv (d : BitVec 5) (v : BitVec 6) (el : BitVec 7) : EncodingFits.Statement (.mfv d v el) := fits_of rfl (by
  have h0 := put_fits 17 d; have h1 := put_fits 11 v; have h2 := put_fits 4 el
  simp only [Nat.reduceAdd, Nat.reducePow] at h0 h1 h2; omega)
theorem EncodingFits.mtv (v : BitVec 6) (a : BitVec 5) (el : BitVec 7) : EncodingFits.Statement (.mtv v a el) := fits_of rfl (by
  have h0 := put_fits 16 v; have h1 := put_fits 11 a; have h2 := put_fits 4 el
  simp only [Nat.reduceAdd, Nat.reducePow] at h0 h1 h2; omega)
theorem EncodingFits.fadd (d a b : BitVec 5) : EncodingFits.Statement (.fadd d a b) := fits_of rfl (by
  have h0 := put_fits 17 d; have h1 := put_fits 12 a; have h2 := put_fits 7 b
  simp only [Nat.reduceAdd, Nat.reducePow] at h0 h1 h2; omega)
theorem EncodingFits.fsub (d a b : BitVec 5) : EncodingFits.Statement (.fsub d a b) := fits_of rfl (by
  have h0 := put_fits 17 d; have h1 := put_fits 12 a; have h2 := put_fits 7 b
  simp only [Nat.reduceAdd, Nat.reducePow] at h0 h1 h2; omega)
theorem EncodingFits.fmul (d a b : BitVec 5) : EncodingFits.Statement (.fmul d a b) := fits_of rfl (by
  have h0 := put_fits 17 d; have h1 := put_fits 12 a; have h2 := put_fits 7 b
  simp only [Nat.reduceAdd, Nat.reducePow] at h0 h1 h2; omega)
theorem EncodingFits.fma (d a b c : BitVec 5) : EncodingFits.Statement (.fma d a b c) := fits_of rfl (by
  have h0 := put_fits 17 d; have h1 := put_fits 12 a; have h2 := put_fits 7 b; have h3 := put_fits 2 c
  simp only [Nat.reduceAdd, Nat.reducePow] at h0 h1 h2 h3; omega)
theorem EncodingFits.fcvtif (d a : BitVec 5) : EncodingFits.Statement (.fcvtif d a) := fits_of rfl (by
  have h0 := put_fits 17 d; have h1 := put_fits 12 a
  simp only [Nat.reduceAdd, Nat.reducePow] at h0 h1; omega)
theorem EncodingFits.fcvtfi (d a : BitVec 5) : EncodingFits.Statement (.fcvtfi d a) := fits_of rfl (by
  have h0 := put_fits 17 d; have h1 := put_fits 12 a
  simp only [Nat.reduceAdd, Nat.reducePow] at h0 h1; omega)
theorem EncodingFits.fcmp (pd pc : BitVec 4) (a b : BitVec 5) (cond : FCond) : EncodingFits.Statement (.fcmp pd pc a b cond) := fits_of rfl (by
  have h0 := put_fits 18 pd; have h1 := put_fits 14 pc; have h2 := put_fits 9 a; have h3 := put_fits 4 b; have h4 := put_fits 0 cond.code
  simp only [Nat.reduceAdd, Nat.reducePow] at h0 h1 h2 h3 h4; omega)
theorem EncodingFits.bdmov (bd : BitVec 4) (a : BitVec 5) : EncodingFits.Statement (.bdmov bd a) := fits_of rfl (by
  have h0 := put_fits 18 bd; have h1 := put_fits 13 a
  simp only [Nat.reduceAdd, Nat.reducePow] at h0 h1; omega)
theorem EncodingFits.tdld (td : BitVec 6) (a : BitVec 5) (imm : BitVec 11) : EncodingFits.Statement (.tdld td a imm) := fits_of rfl (by
  have h0 := put_fits 16 td; have h1 := put_fits 11 a; have h2 := put_fits 0 imm
  simp only [Nat.reduceAdd, Nat.reducePow] at h0 h1 h2; omega)
theorem EncodingFits.tdst (td : BitVec 6) (a : BitVec 5) (imm : BitVec 11) : EncodingFits.Statement (.tdst td a imm) := fits_of rfl (by
  have h0 := put_fits 16 td; have h1 := put_fits 11 a; have h2 := put_fits 0 imm
  simp only [Nat.reduceAdd, Nat.reducePow] at h0 h1 h2; omega)
theorem EncodingFits.tdset (td : BitVec 6) (field : TdField) (a : BitVec 5) : EncodingFits.Statement (.tdset td field a) := fits_of rfl (by
  have h0 := put_fits 16 td; have h1 := put_fits 12 field.code; have h2 := put_fits 7 a
  simp only [Nat.reduceAdd, Nat.reducePow] at h0 h1 h2; omega)
theorem EncodingFits.hset (h : BitVec 4) (a : BitVec 5) : EncodingFits.Statement (.hset h a) := fits_of rfl (by
  have h0 := put_fits 18 h; have h1 := put_fits 13 a
  simp only [Nat.reduceAdd, Nat.reducePow] at h0 h1; omega)
theorem EncodingFits.haddr (d : BitVec 5) (h : BitVec 4) (k : BitVec 10) : EncodingFits.Statement (.haddr d h k) := fits_of rfl (by
  have h0 := put_fits 17 d; have h1 := put_fits 13 h; have h2 := put_fits 3 k
  simp only [Nat.reduceAdd, Nat.reducePow] at h0 h1 h2; omega)
theorem EncodingFits.advc (h : BitVec 4) (n : BitVec 10) : EncodingFits.Statement (.advc h n) := fits_of rfl (by
  have h0 := put_fits 18 h; have h1 := put_fits 8 n
  simp only [Nat.reduceAdd, Nat.reducePow] at h0 h1; omega)
theorem EncodingFits.advp (h : BitVec 4) (n : BitVec 10) : EncodingFits.Statement (.advp h n) := fits_of rfl (by
  have h0 := put_fits 18 h; have h1 := put_fits 8 n
  simp only [Nat.reduceAdd, Nat.reducePow] at h0 h1; omega)
theorem EncodingFits.chset (entry : BitVec 3) (a b : BitVec 5) : EncodingFits.Statement (.chset entry a b) := fits_of rfl (by
  have h0 := put_fits 19 entry; have h1 := put_fits 14 a; have h2 := put_fits 9 b
  simp only [Nat.reduceAdd, Nat.reducePow] at h0 h1 h2; omega)
theorem EncodingFits.vadd (d a b : BitVec 6) (ty : Ty) (t : Bool) : EncodingFits.Statement (.vadd d a b ty t) := fits_of rfl (by
  have h0 := put_fits 16 d; have h1 := put_fits 10 a; have h2 := put_fits 4 b; have h3 := put_fits 1 ty.code; have h4 := put_fits 0 (BitVec.ofBool t)
  simp only [Nat.reduceAdd, Nat.reducePow] at h0 h1 h2 h3 h4; omega)
theorem EncodingFits.vsub (d a b : BitVec 6) (ty : Ty) (t : Bool) : EncodingFits.Statement (.vsub d a b ty t) := fits_of rfl (by
  have h0 := put_fits 16 d; have h1 := put_fits 10 a; have h2 := put_fits 4 b; have h3 := put_fits 1 ty.code; have h4 := put_fits 0 (BitVec.ofBool t)
  simp only [Nat.reduceAdd, Nat.reducePow] at h0 h1 h2 h3 h4; omega)
theorem EncodingFits.vmul (d a b : BitVec 6) (ty : Ty) (t : Bool) : EncodingFits.Statement (.vmul d a b ty t) := fits_of rfl (by
  have h0 := put_fits 16 d; have h1 := put_fits 10 a; have h2 := put_fits 4 b; have h3 := put_fits 1 ty.code; have h4 := put_fits 0 (BitVec.ofBool t)
  simp only [Nat.reduceAdd, Nat.reducePow] at h0 h1 h2 h3 h4; omega)
theorem EncodingFits.vfma (d a b : BitVec 6) (ty : Ty) (t : Bool) : EncodingFits.Statement (.vfma d a b ty t) := fits_of rfl (by
  have h0 := put_fits 16 d; have h1 := put_fits 10 a; have h2 := put_fits 4 b; have h3 := put_fits 1 ty.code; have h4 := put_fits 0 (BitVec.ofBool t)
  simp only [Nat.reduceAdd, Nat.reducePow] at h0 h1 h2 h3 h4; omega)
theorem EncodingFits.vfms (d a b : BitVec 6) (ty : Ty) (t : Bool) : EncodingFits.Statement (.vfms d a b ty t) := fits_of rfl (by
  have h0 := put_fits 16 d; have h1 := put_fits 10 a; have h2 := put_fits 4 b; have h3 := put_fits 1 ty.code; have h4 := put_fits 0 (BitVec.ofBool t)
  simp only [Nat.reduceAdd, Nat.reducePow] at h0 h1 h2 h3 h4; omega)
theorem EncodingFits.vmin (d a b : BitVec 6) (ty : Ty) (t : Bool) : EncodingFits.Statement (.vmin d a b ty t) := fits_of rfl (by
  have h0 := put_fits 16 d; have h1 := put_fits 10 a; have h2 := put_fits 4 b; have h3 := put_fits 1 ty.code; have h4 := put_fits 0 (BitVec.ofBool t)
  simp only [Nat.reduceAdd, Nat.reducePow] at h0 h1 h2 h3 h4; omega)
theorem EncodingFits.vmax (d a b : BitVec 6) (ty : Ty) (t : Bool) : EncodingFits.Statement (.vmax d a b ty t) := fits_of rfl (by
  have h0 := put_fits 16 d; have h1 := put_fits 10 a; have h2 := put_fits 4 b; have h3 := put_fits 1 ty.code; have h4 := put_fits 0 (BitVec.ofBool t)
  simp only [Nat.reduceAdd, Nat.reducePow] at h0 h1 h2 h3 h4; omega)
theorem EncodingFits.vabs (d a : BitVec 6) (ty : Ty) (t : Bool) : EncodingFits.Statement (.vabs d a ty t) := fits_of rfl (by
  have h0 := put_fits 16 d; have h1 := put_fits 10 a; have h2 := put_fits 1 ty.code; have h3 := put_fits 0 (BitVec.ofBool t)
  simp only [Nat.reduceAdd, Nat.reducePow] at h0 h1 h2 h3; omega)
theorem EncodingFits.vneg (d a : BitVec 6) (ty : Ty) (t : Bool) : EncodingFits.Statement (.vneg d a ty t) := fits_of rfl (by
  have h0 := put_fits 16 d; have h1 := put_fits 10 a; have h2 := put_fits 1 ty.code; have h3 := put_fits 0 (BitVec.ofBool t)
  simp only [Nat.reduceAdd, Nat.reducePow] at h0 h1 h2 h3; omega)
theorem EncodingFits.vand (d a b : BitVec 6) (ty : Ty) (t : Bool) : EncodingFits.Statement (.vand d a b ty t) := fits_of rfl (by
  have h0 := put_fits 16 d; have h1 := put_fits 10 a; have h2 := put_fits 4 b; have h3 := put_fits 1 ty.code; have h4 := put_fits 0 (BitVec.ofBool t)
  simp only [Nat.reduceAdd, Nat.reducePow] at h0 h1 h2 h3 h4; omega)
theorem EncodingFits.vor (d a b : BitVec 6) (ty : Ty) (t : Bool) : EncodingFits.Statement (.vor d a b ty t) := fits_of rfl (by
  have h0 := put_fits 16 d; have h1 := put_fits 10 a; have h2 := put_fits 4 b; have h3 := put_fits 1 ty.code; have h4 := put_fits 0 (BitVec.ofBool t)
  simp only [Nat.reduceAdd, Nat.reducePow] at h0 h1 h2 h3 h4; omega)
theorem EncodingFits.vxor (d a b : BitVec 6) (ty : Ty) (t : Bool) : EncodingFits.Statement (.vxor d a b ty t) := fits_of rfl (by
  have h0 := put_fits 16 d; have h1 := put_fits 10 a; have h2 := put_fits 4 b; have h3 := put_fits 1 ty.code; have h4 := put_fits 0 (BitVec.ofBool t)
  simp only [Nat.reduceAdd, Nat.reducePow] at h0 h1 h2 h3 h4; omega)
theorem EncodingFits.vshl (d a b : BitVec 6) (ty : Ty) (t : Bool) : EncodingFits.Statement (.vshl d a b ty t) := fits_of rfl (by
  have h0 := put_fits 16 d; have h1 := put_fits 10 a; have h2 := put_fits 4 b; have h3 := put_fits 1 ty.code; have h4 := put_fits 0 (BitVec.ofBool t)
  simp only [Nat.reduceAdd, Nat.reducePow] at h0 h1 h2 h3 h4; omega)
theorem EncodingFits.vshr (d a b : BitVec 6) (ty : Ty) (t : Bool) : EncodingFits.Statement (.vshr d a b ty t) := fits_of rfl (by
  have h0 := put_fits 16 d; have h1 := put_fits 10 a; have h2 := put_fits 4 b; have h3 := put_fits 1 ty.code; have h4 := put_fits 0 (BitVec.ofBool t)
  simp only [Nat.reduceAdd, Nat.reducePow] at h0 h1 h2 h3 h4; omega)
theorem EncodingFits.vsra (d a b : BitVec 6) (ty : Ty) (t : Bool) : EncodingFits.Statement (.vsra d a b ty t) := fits_of rfl (by
  have h0 := put_fits 16 d; have h1 := put_fits 10 a; have h2 := put_fits 4 b; have h3 := put_fits 1 ty.code; have h4 := put_fits 0 (BitVec.ofBool t)
  simp only [Nat.reduceAdd, Nat.reducePow] at h0 h1 h2 h3 h4; omega)
theorem EncodingFits.vsel (d a b : BitVec 6) (ty : Ty) (t : Bool) : EncodingFits.Statement (.vsel d a b ty t) := fits_of rfl (by
  have h0 := put_fits 16 d; have h1 := put_fits 10 a; have h2 := put_fits 4 b; have h3 := put_fits 1 ty.code; have h4 := put_fits 0 (BitVec.ofBool t)
  simp only [Nat.reduceAdd, Nat.reducePow] at h0 h1 h2 h3 h4; omega)
theorem EncodingFits.vcmpeq (d a b : BitVec 6) (ty : Ty) (t : Bool) : EncodingFits.Statement (.vcmpeq d a b ty t) := fits_of rfl (by
  have h0 := put_fits 16 d; have h1 := put_fits 10 a; have h2 := put_fits 4 b; have h3 := put_fits 1 ty.code; have h4 := put_fits 0 (BitVec.ofBool t)
  simp only [Nat.reduceAdd, Nat.reducePow] at h0 h1 h2 h3 h4; omega)
theorem EncodingFits.vcmplt (d a b : BitVec 6) (ty : Ty) (t : Bool) : EncodingFits.Statement (.vcmplt d a b ty t) := fits_of rfl (by
  have h0 := put_fits 16 d; have h1 := put_fits 10 a; have h2 := put_fits 4 b; have h3 := put_fits 1 ty.code; have h4 := put_fits 0 (BitVec.ofBool t)
  simp only [Nat.reduceAdd, Nat.reducePow] at h0 h1 h2 h3 h4; omega)
theorem EncodingFits.vcmple (d a b : BitVec 6) (ty : Ty) (t : Bool) : EncodingFits.Statement (.vcmple d a b ty t) := fits_of rfl (by
  have h0 := put_fits 16 d; have h1 := put_fits 10 a; have h2 := put_fits 4 b; have h3 := put_fits 1 ty.code; have h4 := put_fits 0 (BitVec.ofBool t)
  simp only [Nat.reduceAdd, Nat.reducePow] at h0 h1 h2 h3 h4; omega)
theorem EncodingFits.vadds (d a : BitVec 6) (b : BitVec 5) (ty : Ty) (t : Bool) : EncodingFits.Statement (.vadds d a b ty t) := fits_of rfl (by
  have h0 := put_fits 16 d; have h1 := put_fits 10 a; have h2 := put_fits 4 b; have h3 := put_fits 1 ty.code; have h4 := put_fits 0 (BitVec.ofBool t)
  simp only [Nat.reduceAdd, Nat.reducePow] at h0 h1 h2 h3 h4; omega)
theorem EncodingFits.vmuls (d a : BitVec 6) (b : BitVec 5) (ty : Ty) (t : Bool) : EncodingFits.Statement (.vmuls d a b ty t) := fits_of rfl (by
  have h0 := put_fits 16 d; have h1 := put_fits 10 a; have h2 := put_fits 4 b; have h3 := put_fits 1 ty.code; have h4 := put_fits 0 (BitVec.ofBool t)
  simp only [Nat.reduceAdd, Nat.reducePow] at h0 h1 h2 h3 h4; omega)
theorem EncodingFits.vfmas (d a : BitVec 6) (b : BitVec 5) (ty : Ty) (t : Bool) : EncodingFits.Statement (.vfmas d a b ty t) := fits_of rfl (by
  have h0 := put_fits 16 d; have h1 := put_fits 10 a; have h2 := put_fits 4 b; have h3 := put_fits 1 ty.code; have h4 := put_fits 0 (BitVec.ofBool t)
  simp only [Nat.reduceAdd, Nat.reducePow] at h0 h1 h2 h3 h4; omega)
theorem EncodingFits.vmaxs (d a : BitVec 6) (b : BitVec 5) (ty : Ty) (t : Bool) : EncodingFits.Statement (.vmaxs d a b ty t) := fits_of rfl (by
  have h0 := put_fits 16 d; have h1 := put_fits 10 a; have h2 := put_fits 4 b; have h3 := put_fits 1 ty.code; have h4 := put_fits 0 (BitVec.ofBool t)
  simp only [Nat.reduceAdd, Nat.reducePow] at h0 h1 h2 h3 h4; omega)
theorem EncodingFits.vwmul (d a b : BitVec 6) (ty : Ty) (g : Group) : EncodingFits.Statement (.vwmul d a b ty g) := fits_of rfl (by
  have h0 := put_fits 16 d; have h1 := put_fits 10 a; have h2 := put_fits 4 b; have h3 := put_fits 1 ty.code; have h4 := put_fits 0 g.code
  simp only [Nat.reduceAdd, Nat.reducePow] at h0 h1 h2 h3 h4; omega)
theorem EncodingFits.vwadd (d a b : BitVec 6) (ty : Ty) (g : Group) : EncodingFits.Statement (.vwadd d a b ty g) := fits_of rfl (by
  have h0 := put_fits 16 d; have h1 := put_fits 10 a; have h2 := put_fits 4 b; have h3 := put_fits 1 ty.code; have h4 := put_fits 0 g.code
  simp only [Nat.reduceAdd, Nat.reducePow] at h0 h1 h2 h3 h4; omega)
theorem EncodingFits.vnarrow (d a : BitVec 6) (ty : Ty) (g : Group) : EncodingFits.Statement (.vnarrow d a ty g) := fits_of rfl (by
  have h0 := put_fits 16 d; have h1 := put_fits 10 a; have h2 := put_fits 1 ty.code; have h3 := put_fits 0 g.code
  simp only [Nat.reduceAdd, Nat.reducePow] at h0 h1 h2 h3; omega)
theorem EncodingFits.vcvt (d a : BitVec 6) (src dst : Ty) (t : Bool) : EncodingFits.Statement (.vcvt d a src dst t) := fits_of rfl (by
  have h0 := put_fits 16 d; have h1 := put_fits 10 a; have h2 := put_fits 1 src.code; have h3 := put_fits 7 dst.code; have h4 := put_fits 0 (BitVec.ofBool t)
  simp only [Nat.reduceAdd, Nat.reducePow] at h0 h1 h2 h3 h4; omega)
theorem EncodingFits.vrsqe (d a : BitVec 6) (t : Bool) : EncodingFits.Statement (.vrsqe d a t) := fits_of rfl (by
  have h0 := put_fits 16 d; have h1 := put_fits 10 a; have h2 := put_fits 0 (BitVec.ofBool t)
  simp only [Nat.reduceAdd, Nat.reducePow] at h0 h1 h2; omega)
theorem EncodingFits.vrcpe (d a : BitVec 6) (t : Bool) : EncodingFits.Statement (.vrcpe d a t) := fits_of rfl (by
  have h0 := put_fits 16 d; have h1 := put_fits 10 a; have h2 := put_fits 0 (BitVec.ofBool t)
  simp only [Nat.reduceAdd, Nat.reducePow] at h0 h1 h2; omega)
theorem EncodingFits.vexp2e (d a : BitVec 6) (t : Bool) : EncodingFits.Statement (.vexp2e d a t) := fits_of rfl (by
  have h0 := put_fits 16 d; have h1 := put_fits 10 a; have h2 := put_fits 0 (BitVec.ofBool t)
  simp only [Nat.reduceAdd, Nat.reducePow] at h0 h1 h2; omega)
theorem EncodingFits.vlog2e (d a : BitVec 6) (t : Bool) : EncodingFits.Statement (.vlog2e d a t) := fits_of rfl (by
  have h0 := put_fits 16 d; have h1 := put_fits 10 a; have h2 := put_fits 0 (BitVec.ofBool t)
  simp only [Nat.reduceAdd, Nat.reducePow] at h0 h1 h2; omega)
theorem EncodingFits.vred (d a : BitVec 6) (op : RedOp) (ty : Ty) (t : Bool) : EncodingFits.Statement (.vred d a op ty t) := fits_of rfl (by
  have h0 := put_fits 16 d; have h1 := put_fits 10 a; have h2 := put_fits 4 op.code; have h3 := put_fits 1 ty.code; have h4 := put_fits 0 (BitVec.ofBool t)
  simp only [Nat.reduceAdd, Nat.reducePow] at h0 h1 h2 h3 h4; omega)
theorem EncodingFits.vscan (d a : BitVec 6) (op : RedOp) (ty : Ty) (t : Bool) : EncodingFits.Statement (.vscan d a op ty t) := fits_of rfl (by
  have h0 := put_fits 16 d; have h1 := put_fits 10 a; have h2 := put_fits 4 op.code; have h3 := put_fits 1 ty.code; have h4 := put_fits 0 (BitVec.ofBool t)
  simp only [Nat.reduceAdd, Nat.reducePow] at h0 h1 h2 h3 h4; omega)
theorem EncodingFits.vperm (d a b : BitVec 6) (ty : Ty) (t : Bool) : EncodingFits.Statement (.vperm d a b ty t) := fits_of rfl (by
  have h0 := put_fits 16 d; have h1 := put_fits 10 a; have h2 := put_fits 4 b; have h3 := put_fits 1 ty.code; have h4 := put_fits 0 (BitVec.ofBool t)
  simp only [Nat.reduceAdd, Nat.reducePow] at h0 h1 h2 h3 h4; omega)
theorem EncodingFits.vshuf (d a b : BitVec 6) (ty : Ty) (t : Bool) : EncodingFits.Statement (.vshuf d a b ty t) := fits_of rfl (by
  have h0 := put_fits 16 d; have h1 := put_fits 10 a; have h2 := put_fits 4 b; have h3 := put_fits 1 ty.code; have h4 := put_fits 0 (BitVec.ofBool t)
  simp only [Nat.reduceAdd, Nat.reducePow] at h0 h1 h2 h3 h4; omega)
theorem EncodingFits.vbcast (d a : BitVec 6) (b : BitVec 5) (ty : Ty) (t : Bool) : EncodingFits.Statement (.vbcast d a b ty t) := fits_of rfl (by
  have h0 := put_fits 16 d; have h1 := put_fits 10 a; have h2 := put_fits 4 b; have h3 := put_fits 1 ty.code; have h4 := put_fits 0 (BitVec.ofBool t)
  simp only [Nat.reduceAdd, Nat.reducePow] at h0 h1 h2 h3 h4; omega)
theorem EncodingFits.vdot (d a b : BitVec 6) (ty : Ty) (acc : Bool) : EncodingFits.Statement (.vdot d a b ty acc) := fits_of rfl (by
  have h0 := put_fits 16 d; have h1 := put_fits 10 a; have h2 := put_fits 4 b; have h3 := put_fits 1 ty.code; have h4 := put_fits 0 (BitVec.ofBool acc)
  simp only [Nat.reduceAdd, Nat.reducePow] at h0 h1 h2 h3 h4; omega)
theorem EncodingFits.vch (d a b : BitVec 6) (e : BitVec 3) (t : Bool) : EncodingFits.Statement (.vch d a b e t) := fits_of rfl (by
  have h0 := put_fits 16 d; have h1 := put_fits 10 a; have h2 := put_fits 4 b; have h3 := put_fits 1 e; have h4 := put_fits 0 (BitVec.ofBool t)
  simp only [Nat.reduceAdd, Nat.reducePow] at h0 h1 h2 h3 h4; omega)
theorem EncodingFits.vmov (d a : BitVec 6) (ty : Ty) (t : Bool) : EncodingFits.Statement (.vmov d a ty t) := fits_of rfl (by
  have h0 := put_fits 16 d; have h1 := put_fits 10 a; have h2 := put_fits 1 ty.code; have h3 := put_fits 0 (BitVec.ofBool t)
  simp only [Nat.reduceAdd, Nat.reducePow] at h0 h1 h2 h3; omega)
theorem EncodingFits.vmovs (d : BitVec 6) (b : BitVec 5) (ty : Ty) (t : Bool) : EncodingFits.Statement (.vmovs d b ty t) := fits_of rfl (by
  have h0 := put_fits 16 d; have h1 := put_fits 4 b; have h2 := put_fits 1 ty.code; have h3 := put_fits 0 (BitVec.ofBool t)
  simp only [Nat.reduceAdd, Nat.reducePow] at h0 h1 h2 h3; omega)
theorem EncodingFits.viota (d : BitVec 6) (ty : Ty) (t : Bool) : EncodingFits.Statement (.viota d ty t) := fits_of rfl (by
  have h0 := put_fits 16 d; have h1 := put_fits 1 ty.code; have h2 := put_fits 0 (BitVec.ofBool t)
  simp only [Nat.reduceAdd, Nat.reducePow] at h0 h1 h2; omega)
theorem EncodingFits.vcnt (d a : BitVec 6) (ty : Ty) (t : Bool) : EncodingFits.Statement (.vcnt d a ty t) := fits_of rfl (by
  have h0 := put_fits 16 d; have h1 := put_fits 10 a; have h2 := put_fits 1 ty.code; have h3 := put_fits 0 (BitVec.ofBool t)
  simp only [Nat.reduceAdd, Nat.reducePow] at h0 h1 h2 h3; omega)
theorem EncodingFits.vld (d : BitVec 6) (a : BitVec 5) (imm : BitVec 11) : EncodingFits.Statement (.vld d a imm) := fits_of rfl (by
  have h0 := put_fits 16 d; have h1 := put_fits 11 a; have h2 := put_fits 0 imm
  simp only [Nat.reduceAdd, Nat.reducePow] at h0 h1 h2; omega)
theorem EncodingFits.vst (d : BitVec 6) (a : BitVec 5) (imm : BitVec 11) : EncodingFits.Statement (.vst d a imm) := fits_of rfl (by
  have h0 := put_fits 16 d; have h1 := put_fits 11 a; have h2 := put_fits 0 imm
  simp only [Nat.reduceAdd, Nat.reducePow] at h0 h1 h2; omega)
theorem EncodingFits.vldc (d : BitVec 6) (base count : BitVec 5) (imm : BitVec 6) : EncodingFits.Statement (.vldc d base count imm) := fits_of rfl (by
  have h0 := put_fits 16 d; have h1 := put_fits 11 base; have h2 := put_fits 6 count; have h3 := put_fits 0 imm
  simp only [Nat.reduceAdd, Nat.reducePow] at h0 h1 h2 h3; omega)
theorem EncodingFits.vstc (d : BitVec 6) (base count : BitVec 5) (imm : BitVec 6) : EncodingFits.Statement (.vstc d base count imm) := fits_of rfl (by
  have h0 := put_fits 16 d; have h1 := put_fits 11 base; have h2 := put_fits 6 count; have h3 := put_fits 0 imm
  simp only [Nat.reduceAdd, Nat.reducePow] at h0 h1 h2 h3; omega)
theorem EncodingFits.vldh (d : BitVec 6) (h : BitVec 4) (k : BitVec 10) : EncodingFits.Statement (.vldh d h k) := fits_of rfl (by
  have h0 := put_fits 16 d; have h1 := put_fits 12 h; have h2 := put_fits 2 k
  simp only [Nat.reduceAdd, Nat.reducePow] at h0 h1 h2; omega)
theorem EncodingFits.vsth (d : BitVec 6) (h : BitVec 4) (k : BitVec 10) : EncodingFits.Statement (.vsth d h k) := fits_of rfl (by
  have h0 := put_fits 16 d; have h1 := put_fits 12 h; have h2 := put_fits 2 k
  simp only [Nat.reduceAdd, Nat.reducePow] at h0 h1 h2; omega)
theorem EncodingFits.vwin (a : BitVec 5) (imm : BitVec 11) : EncodingFits.Statement (.vwin a imm) := fits_of rfl (by
  have h0 := put_fits 11 a; have h1 := put_fits 0 imm
  simp only [Nat.reduceAdd, Nat.reducePow] at h0 h1; omega)
theorem EncodingFits.mlease : EncodingFits.Statement .mlease := fits_of rfl (by decide)
theorem EncodingFits.mrel : EncodingFits.Statement .mrel := fits_of rfl (by decide)
theorem EncodingFits.omclm (first n : BitVec 6) (pd : BitVec 4) : EncodingFits.Statement (.omclm first n pd) := fits_of rfl (by
  have h0 := put_fits 16 first; have h1 := put_fits 10 n; have h2 := put_fits 6 pd
  simp only [Nat.reduceAdd, Nat.reducePow] at h0 h1 h2; omega)
theorem EncodingFits.omrel (first n : BitVec 6) : EncodingFits.Statement (.omrel first n) := fits_of rfl (by
  have h0 := put_fits 16 first; have h1 := put_fits 10 n
  simp only [Nat.reduceAdd, Nat.reducePow] at h0 h1; omega)
theorem EncodingFits.mma (tdA tdB : BitVec 6) (z rd tb ta : Bool) : EncodingFits.Statement (.mma tdA tdB z rd tb ta) := fits_of rfl (by
  have h0 := put_fits 16 tdA; have h1 := put_fits 10 tdB; have h2 := put_fits 9 (BitVec.ofBool z); have h3 := put_fits 8 (BitVec.ofBool rd); have h4 := put_fits 7 (BitVec.ofBool tb); have h5 := put_fits 6 (BitVec.ofBool ta)
  simp only [Nat.reduceAdd, Nat.reducePow] at h0 h1 h2 h3 h4 h5; omega)
theorem EncodingFits.mmar (tdA tdB : BitVec 6) (z rd tb ta : Bool) : EncodingFits.Statement (.mmar tdA tdB z rd tb ta) := fits_of rfl (by
  have h0 := put_fits 16 tdA; have h1 := put_fits 10 tdB; have h2 := put_fits 9 (BitVec.ofBool z); have h3 := put_fits 8 (BitVec.ofBool rd); have h4 := put_fits 7 (BitVec.ofBool tb); have h5 := put_fits 6 (BitVec.ofBool ta)
  simp only [Nat.reduceAdd, Nat.reducePow] at h0 h1 h2 h3 h4 h5; omega)
theorem EncodingFits.mzero : EncodingFits.Statement .mzero := fits_of rfl (by decide)
theorem EncodingFits.mdrain (td : BitVec 6) : EncodingFits.Statement (.mdrain td) := fits_of rfl (by
  have h0 := put_fits 16 td
  simp only [Nat.reduceAdd, Nat.reducePow] at h0; omega)
theorem EncodingFits.mresume : EncodingFits.Statement .mresume := fits_of rfl (by decide)
theorem EncodingFits.mstat (d : BitVec 5) : EncodingFits.Statement (.mstat d) := fits_of rfl (by
  have h0 := put_fits 17 d
  simp only [Nat.reduceAdd, Nat.reducePow] at h0; omega)
theorem EncodingFits.macc (td : BitVec 6) : EncodingFits.Statement (.macc td) := fits_of rfl (by
  have h0 := put_fits 16 td
  simp only [Nat.reduceAdd, Nat.reducePow] at h0; omega)
theorem EncodingFits.chbeg (pricking : BitVec 5) (tdIn tdOut : BitVec 6) : EncodingFits.Statement (.chbeg pricking tdIn tdOut) := fits_of rfl (by
  have h0 := put_fits 17 pricking; have h1 := put_fits 11 tdIn; have h2 := put_fits 5 tdOut
  simp only [Nat.reduceAdd, Nat.reducePow] at h0 h1 h2; omega)
theorem EncodingFits.chstep (n : BitVec 4) : EncodingFits.Statement (.chstep n) := fits_of rfl (by
  have h0 := put_fits 18 n
  simp only [Nat.reduceAdd, Nat.reducePow] at h0; omega)
theorem EncodingFits.chrun : EncodingFits.Statement .chrun := fits_of rfl (by decide)
theorem EncodingFits.chend : EncodingFits.Statement .chend := fits_of rfl (by decide)
theorem EncodingFits.chgrad (tdLeft tdRight tdGrad : BitVec 6) : EncodingFits.Statement (.chgrad tdLeft tdRight tdGrad) := fits_of rfl (by
  have h0 := put_fits 16 tdLeft; have h1 := put_fits 10 tdRight; have h2 := put_fits 4 tdGrad
  simp only [Nat.reduceAdd, Nat.reducePow] at h0 h1 h2; omega)
theorem EncodingFits.chabort : EncodingFits.Statement .chabort := fits_of rfl (by decide)
theorem EncodingFits.copy (tdD tdS : BitVec 6) (hint : Hint) : EncodingFits.Statement (.copy tdD tdS hint) := fits_of rfl (by
  have h0 := put_fits 16 tdD; have h1 := put_fits 10 tdS; have h2 := put_fits 8 hint.code
  simp only [Nat.reduceAdd, Nat.reducePow] at h0 h1 h2; omega)
theorem EncodingFits.copyh (h : BitVec 4) (tdS : BitVec 6) (hint : Hint) : EncodingFits.Statement (.copyh h tdS hint) := fits_of rfl (by
  have h0 := put_fits 18 h; have h1 := put_fits 12 tdS; have h2 := put_fits 10 hint.code
  simp only [Nat.reduceAdd, Nat.reducePow] at h0 h1 h2; omega)
theorem EncodingFits.cbatch (addr value : BitVec 5) (counters : Bool) : EncodingFits.Statement (.cbatch addr value counters) := fits_of rfl (by
  have h0 := put_fits 17 addr; have h1 := put_fits 12 value; have h2 := put_fits 11 (BitVec.ofBool counters)
  simp only [Nat.reduceAdd, Nat.reducePow] at h0 h1 h2; omega)
theorem EncodingFits.gather (tdD tdS tdI : BitVec 6) (hint : Hint) : EncodingFits.Statement (.gather tdD tdS tdI hint) := fits_of rfl (by
  have h0 := put_fits 16 tdD; have h1 := put_fits 10 tdS; have h2 := put_fits 4 tdI; have h3 := put_fits 2 hint.code
  simp only [Nat.reduceAdd, Nat.reducePow] at h0 h1 h2 h3; omega)
theorem EncodingFits.scatter (tdD tdS tdI : BitVec 6) (hint : Hint) : EncodingFits.Statement (.scatter tdD tdS tdI hint) := fits_of rfl (by
  have h0 := put_fits 16 tdD; have h1 := put_fits 10 tdS; have h2 := put_fits 4 tdI; have h3 := put_fits 2 hint.code
  simp only [Nat.reduceAdd, Nat.reducePow] at h0 h1 h2 h3; omega)
theorem EncodingFits.amo (op : BitVec 4) (addr value result : BitVec 5) (order : Order) (w : Width) : EncodingFits.Statement (.amo op addr value result order w) := fits_of rfl (by
  have h0 := put_fits 18 op; have h1 := put_fits 13 addr; have h2 := put_fits 8 value; have h3 := put_fits 3 result; have h4 := put_fits 1 order.code; have h5 := put_fits 0 w.code
  simp only [Nat.reduceAdd, Nat.reducePow] at h0 h1 h2 h3 h4 h5; omega)
theorem EncodingFits.amocas (addr expected new result : BitVec 5) (order : Order) : EncodingFits.Statement (.amocas addr expected new result order) := fits_of rfl (by
  have h0 := put_fits 17 addr; have h1 := put_fits 12 expected; have h2 := put_fits 7 new; have h3 := put_fits 2 result; have h4 := put_fits 0 order.code
  simp only [Nat.reduceAdd, Nat.reducePow] at h0 h1 h2 h3 h4; omega)
theorem EncodingFits.qfence (mask : QMask) : EncodingFits.Statement (.qfence mask) := fits_of rfl (by
  have h0 := put_fits 17 mask.code
  simp only [Nat.reduceAdd, Nat.reducePow] at h0; omega)
theorem EncodingFits.stmap (entry : BitVec 3) (rec : BitVec 5) : EncodingFits.Statement (.stmap entry rec) := fits_of rfl (by
  have h0 := put_fits 19 entry; have h1 := put_fits 14 rec
  simp only [Nat.reduceAdd, Nat.reducePow] at h0 h1; omega)
theorem EncodingFits.stflush (mask : BitVec 8) : EncodingFits.Statement (.stflush mask) := fits_of rfl (by
  have h0 := put_fits 14 mask
  simp only [Nat.reduceAdd, Nat.reducePow] at h0; omega)
theorem EncodingFits.stinv (mask : BitVec 8) : EncodingFits.Statement (.stinv mask) := fits_of rfl (by
  have h0 := put_fits 14 mask
  simp only [Nat.reduceAdd, Nat.reducePow] at h0; omega)
theorem EncodingFits.pref (td : BitVec 6) (hint : Hint) : EncodingFits.Statement (.pref td hint) := fits_of rfl (by
  have h0 := put_fits 16 td; have h1 := put_fits 8 hint.code
  simp only [Nat.reduceAdd, Nat.reducePow] at h0 h1; omega)
theorem EncodingFits.decomp (tdS tdI : BitVec 6) (ratio : BitVec 4) : EncodingFits.Statement (.decomp tdS tdI ratio) := fits_of rfl (by
  have h0 := put_fits 16 tdS; have h1 := put_fits 10 tdI; have h2 := put_fits 6 ratio
  simp only [Nat.reduceAdd, Nat.reducePow] at h0 h1 h2; omega)
theorem EncodingFits.ddict (td : BitVec 6) : EncodingFits.Statement (.ddict td) := fits_of rfl (by
  have h0 := put_fits 16 td
  simp only [Nat.reduceAdd, Nat.reducePow] at h0; omega)
theorem EncodingFits.bkcmd (prog engines args : BitVec 5) : EncodingFits.Statement (.bkcmd prog engines args) := fits_of rfl (by
  have h0 := put_fits 17 prog; have h1 := put_fits 12 engines; have h2 := put_fits 7 args
  simp only [Nat.reduceAdd, Nat.reducePow] at h0 h1 h2; omega)
theorem EncodingFits.bkvec (td : BitVec 6) (engines : BitVec 5) : EncodingFits.Statement (.bkvec td engines) := fits_of rfl (by
  have h0 := put_fits 16 td; have h1 := put_fits 11 engines
  simp only [Nat.reduceAdd, Nat.reducePow] at h0 h1; omega)
theorem EncodingFits.lease (drow dcol : BitVec 4) (n : BitVec 6) (dur : BitVec 3) (status : BitVec 5) : EncodingFits.Statement (.lease drow dcol n dur status) := fits_of rfl (by
  have h0 := put_fits 18 drow; have h1 := put_fits 14 dcol; have h2 := put_fits 8 n; have h3 := put_fits 5 dur; have h4 := put_fits 0 status
  simp only [Nat.reduceAdd, Nat.reducePow] at h0 h1 h2 h3 h4; omega)
theorem EncodingFits.lrel (drow dcol : BitVec 4) (n : BitVec 6) (status : BitVec 5) : EncodingFits.Statement (.lrel drow dcol n status) := fits_of rfl (by
  have h0 := put_fits 18 drow; have h1 := put_fits 14 dcol; have h2 := put_fits 8 n; have h3 := put_fits 0 status
  simp only [Nat.reduceAdd, Nat.reducePow] at h0 h1 h2 h3; omega)
theorem EncodingFits.lrenew (drow dcol : BitVec 4) (dur : BitVec 3) (status : BitVec 5) : EncodingFits.Statement (.lrenew drow dcol dur status) := fits_of rfl (by
  have h0 := put_fits 18 drow; have h1 := put_fits 14 dcol; have h2 := put_fits 5 dur; have h3 := put_fits 0 status
  simp only [Nat.reduceAdd, Nat.reducePow] at h0 h1 h2 h3; omega)
theorem EncodingFits.lqry (drow dcol : BitVec 4) (d : BitVec 5) : EncodingFits.Statement (.lqry drow dcol d) := fits_of rfl (by
  have h0 := put_fits 18 drow; have h1 := put_fits 14 dcol; have h2 := put_fits 0 d
  simp only [Nat.reduceAdd, Nat.reducePow] at h0 h1 h2; omega)
theorem EncodingFits.colstep (group : BitVec 6) (step : BitVec 5) : EncodingFits.Statement (.colstep group step) := fits_of rfl (by
  have h0 := put_fits 16 group; have h1 := put_fits 11 step
  simp only [Nat.reduceAdd, Nat.reducePow] at h0 h1; omega)
theorem EncodingFits.persist (tdD tdS : BitVec 6) : EncodingFits.Statement (.persist tdD tdS) := fits_of rfl (by
  have h0 := put_fits 16 tdD; have h1 := put_fits 10 tdS
  simp only [Nat.reduceAdd, Nat.reducePow] at h0 h1; omega)
theorem EncodingFits.scmrd (tdD tdS : BitVec 6) : EncodingFits.Statement (.scmrd tdD tdS) := fits_of rfl (by
  have h0 := put_fits 16 tdD; have h1 := put_fits 10 tdS
  simp only [Nat.reduceAdd, Nat.reducePow] at h0 h1; omega)
theorem EncodingFits.xpose (d a : BitVec 6) (c : BitVec 3) (w : XW) (t : Bool) : EncodingFits.Statement (.xpose d a c w t) := fits_of rfl (by
  have h0 := put_fits 16 d; have h1 := put_fits 10 a; have h2 := put_fits 4 c; have h3 := put_fits 1 w.code; have h4 := put_fits 0 (BitVec.ofBool t)
  simp only [Nat.reduceAdd, Nat.reducePow] at h0 h1 h2 h3 h4; omega)
theorem EncodingFits.xcvt (d a : BitVec 6) (fin fout : Fmt) (round : XRound) : EncodingFits.Statement (.xcvt d a fin fout round) := fits_of rfl (by
  have h0 := put_fits 16 d; have h1 := put_fits 10 a; have h2 := put_fits 6 fin.code; have h3 := put_fits 2 fout.code; have h4 := put_fits 0 round.code
  simp only [Nat.reduceAdd, Nat.reducePow] at h0 h1 h2 h3 h4; omega)
theorem EncodingFits.xpack (d a b : BitVec 6) (bty : BitVec 2) (srcBf16 : Bool) : EncodingFits.Statement (.xpack d a b bty srcBf16) := fits_of rfl (by
  have h0 := put_fits 16 d; have h1 := put_fits 10 a; have h2 := put_fits 4 b; have h3 := put_fits 2 bty; have h4 := put_fits 1 (BitVec.ofBool srcBf16)
  simp only [Nat.reduceAdd, Nat.reducePow] at h0 h1 h2 h3 h4; omega)
theorem EncodingFits.xunpk (d a b : BitVec 6) (dstBf16 : Bool) : EncodingFits.Statement (.xunpk d a b dstBf16) := fits_of rfl (by
  have h0 := put_fits 16 d; have h1 := put_fits 10 a; have h2 := put_fits 4 b; have h3 := put_fits 1 (BitVec.ofBool dstBf16)
  simp only [Nat.reduceAdd, Nat.reducePow] at h0 h1 h2 h3; omega)
theorem EncodingFits.xtbl (d a : BitVec 6) (fn : BitVec 4) (t : Bool) : EncodingFits.Statement (.xtbl d a fn t) := fits_of rfl (by
  have h0 := put_fits 16 d; have h1 := put_fits 10 a; have h2 := put_fits 4 fn; have h3 := put_fits 0 (BitVec.ofBool t)
  simp only [Nat.reduceAdd, Nat.reducePow] at h0 h1 h2 h3; omega)
theorem EncodingFits.xtld (d a : BitVec 6) (fn : BitVec 4) : EncodingFits.Statement (.xtld d a fn) := fits_of rfl (by
  have h0 := put_fits 16 d; have h1 := put_fits 10 a; have h2 := put_fits 4 fn
  simp only [Nat.reduceAdd, Nat.reducePow] at h0 h1 h2; omega)
theorem EncodingFits.xtsw : EncodingFits.Statement .xtsw := fits_of rfl (by decide)
theorem EncodingFits.xexp (d k : BitVec 6) (n1 : BitVec 3) (adv : Bool) : EncodingFits.Statement (.xexp d k n1 adv) := fits_of rfl (by
  have h0 := put_fits 16 d; have h1 := put_fits 4 k; have h2 := put_fits 1 n1; have h3 := put_fits 0 (BitVec.ofBool adv)
  simp only [Nat.reduceAdd, Nat.reducePow] at h0 h1 h2 h3; omega)
theorem EncodingFits.xzip (d a b : BitVec 6) (w : XW) : EncodingFits.Statement (.xzip d a b w) := fits_of rfl (by
  have h0 := put_fits 16 d; have h1 := put_fits 10 a; have h2 := put_fits 4 b; have h3 := put_fits 1 w.code
  simp only [Nat.reduceAdd, Nat.reducePow] at h0 h1 h2 h3; omega)
theorem EncodingFits.xunzip (d a : BitVec 6) (w : XW) : EncodingFits.Statement (.xunzip d a w) := fits_of rfl (by
  have h0 := put_fits 16 d; have h1 := put_fits 10 a; have h2 := put_fits 1 w.code
  simp only [Nat.reduceAdd, Nat.reducePow] at h0 h1 h2; omega)
theorem EncodingFits.xexpand (d a b : BitVec 6) (w : XW) (t : Bool) : EncodingFits.Statement (.xexpand d a b w t) := fits_of rfl (by
  have h0 := put_fits 16 d; have h1 := put_fits 10 a; have h2 := put_fits 4 b; have h3 := put_fits 1 w.code; have h4 := put_fits 0 (BitVec.ofBool t)
  simp only [Nat.reduceAdd, Nat.reducePow] at h0 h1 h2 h3 h4; omega)
theorem EncodingFits.xcompr (d a b : BitVec 6) (w : XW) (t : Bool) : EncodingFits.Statement (.xcompr d a b w t) := fits_of rfl (by
  have h0 := put_fits 16 d; have h1 := put_fits 10 a; have h2 := put_fits 4 b; have h3 := put_fits 1 w.code; have h4 := put_fits 0 (BitVec.ofBool t)
  simp only [Nat.reduceAdd, Nat.reducePow] at h0 h1 h2 h3 h4; omega)
theorem EncodingFits.asyncTrapDelivery : EncodingFits.Statement .asyncTrapDelivery := trivial
theorem EncodingFits.stashFillComplete (ans : PeerAnswer) : EncodingFits.Statement (.stashFillComplete ans) := trivial
theorem EncodingFits.homeAccess (a : HomeAccess) : EncodingFits.Statement (.homeAccess a) := trivial
theorem EncodingFits.queueCommandStart (q : QueueId) : EncodingFits.Statement (.queueCommandStart q) := trivial
theorem EncodingFits.queueCommandComplete (q : QueueId) (k : Nat) : EncodingFits.Statement (.queueCommandComplete q k) := trivial
theorem EncodingFits.batchComplete (q : QueueId) : EncodingFits.Statement (.batchComplete q) := trivial
theorem EncodingFits.decoderResume : EncodingFits.Statement .decoderResume := trivial
theorem EncodingFits.arrayGrant : EncodingFits.Statement .arrayGrant := trivial
theorem EncodingFits.arrayPassComplete : EncodingFits.Statement .arrayPassComplete := trivial
theorem EncodingFits.mmarFetchReturn (ans : PeerAnswer) : EncodingFits.Statement (.mmarFetchReturn ans) := trivial
theorem EncodingFits.mmarFetchTimeout : EncodingFits.Statement .mmarFetchTimeout := trivial
theorem EncodingFits.bankCommandAccept : EncodingFits.Statement .bankCommandAccept := trivial
theorem EncodingFits.bankProgramStart : EncodingFits.Statement .bankProgramStart := trivial
theorem EncodingFits.bankProgramComplete : EncodingFits.Statement .bankProgramComplete := trivial
theorem EncodingFits.bnop : EncodingFits.Statement .bnop := trivial
theorem EncodingFits.bsetrLo (g : BitVec 4) (imm : BitVec 16) : EncodingFits.Statement (.bsetrLo g imm) := trivial
theorem EncodingFits.bsetrHi (g : BitVec 4) (imm : BitVec 16) : EncodingFits.Statement (.bsetrHi g imm) := trivial
theorem EncodingFits.bsetrAdd (g : BitVec 4) (imm : BitVec 16) : EncodingFits.Statement (.bsetrAdd g imm) := trivial
theorem EncodingFits.bseg (sg : BitVec 2) (gb gl : BitVec 4) : EncodingFits.Statement (.bseg sg gb gl) := trivial
theorem EncodingFits.bmac (acc sg : BitVec 2) (gv : BitVec 4) (ty : BTy) (n1 : BitVec 10) : EncodingFits.Statement (.bmac acc sg gv ty n1) := trivial
theorem EncodingFits.bmacn (acc sg : BitVec 2) (gv : BitVec 4) (ty : BTy) (n1 : BitVec 10) : EncodingFits.Statement (.bmacn acc sg gv ty n1) := trivial
theorem EncodingFits.bred (d s : BitVec 2) : EncodingFits.Statement (.bred d s) := trivial
theorem EncodingFits.bredTree (d : BitVec 2) : EncodingFits.Statement (.bredTree d) := trivial
theorem EncodingFits.bscl (acc : BitVec 2) (g : BitVec 4) : EncodingFits.Statement (.bscl acc g) := trivial
theorem EncodingFits.bcvt (acc : BitVec 2) (fmt : BFmt) : EncodingFits.Statement (.bcvt acc fmt) := trivial
theorem EncodingFits.bout (acc : BitVec 2) (go : BitVec 4) (n1 : BitVec 6) : EncodingFits.Statement (.bout acc go n1) := trivial
theorem EncodingFits.bclr (mask : BitVec 4) : EncodingFits.Statement (.bclr mask) := trivial
theorem EncodingFits.bloop (g : BitVec 4) : EncodingFits.Statement (.bloop g) := trivial
theorem EncodingFits.bend : EncodingFits.Statement .bend := trivial
theorem EncodingFits.bsig (g : BitVec 4) : EncodingFits.Statement (.bsig g) := trivial
theorem EncodingFits.bhalt : EncodingFits.Statement .bhalt := trivial
theorem EncodingFits.bldv (gv : BitVec 4) (sg : BitVec 2) (n1 : BitVec 10) : EncodingFits.Statement (.bldv gv sg n1) := trivial
theorem EncodingFits.fabricPacket (row col : BitVec 4) (flits : PacketFlits) : EncodingFits.Statement (.fabricPacket row col flits) := trivial
theorem EncodingFits.leaseAccept : EncodingFits.Statement .leaseAccept := trivial
theorem EncodingFits.leaseNoticeEnd : EncodingFits.Statement .leaseNoticeEnd := trivial
theorem EncodingFits.strandRetuneDone : EncodingFits.Statement .strandRetuneDone := trivial
theorem EncodingFits.leaseStarvationGrant : EncodingFits.Statement .leaseStarvationGrant := trivial
theorem EncodingFits.leaseExpiry : EncodingFits.Statement .leaseExpiry := trivial
theorem EncodingFits.dispatchDecision : EncodingFits.Statement .dispatchDecision := trivial
theorem EncodingFits.taskRetire : EncodingFits.Statement .taskRetire := trivial
theorem EncodingFits.waitYield : EncodingFits.Statement .waitYield := trivial
theorem EncodingFits.accountingCharge : EncodingFits.Statement .accountingCharge := trivial
theorem EncodingFits.regStart (v : Word) : EncodingFits.Statement (.regStart v) := trivial
theorem EncodingFits.regKill (v : Word) : EncodingFits.Statement (.regKill v) := trivial
theorem EncodingFits.regUpdate (v : Word) : EncodingFits.Statement (.regUpdate v) := trivial
theorem EncodingFits.elogLostClear (v : Word) : EncodingFits.Statement (.elogLostClear v) := trivial
theorem EncodingFits.systemRegisterWrite (index : BitVec 17) (v : Word) : EncodingFits.Statement (.systemRegisterWrite index v) := trivial
theorem EncodingFits.migCtl (v : Word) : EncodingFits.Statement (.migCtl v) := trivial
theorem EncodingFits.migrationHoldDone : EncodingFits.Statement .migrationHoldDone := trivial
theorem EncodingFits.migrationCopyDone : EncodingFits.Statement .migrationCopyDone := trivial
theorem EncodingFits.migrationForward : EncodingFits.Statement .migrationForward := trivial
theorem EncodingFits.migrationEnd : EncodingFits.Statement .migrationEnd := trivial
theorem EncodingFits.pwCap (v : Word) : EncodingFits.Statement (.pwCap v) := trivial
theorem EncodingFits.pwGive (v : Word) : EncodingFits.Statement (.pwGive v) := trivial
theorem EncodingFits.pwShed (v : Word) : EncodingFits.Statement (.pwShed v) := trivial
theorem EncodingFits.pwBo (v : Word) : EncodingFits.Statement (.pwBo v) := trivial
theorem EncodingFits.pwLgate (v : Word) : EncodingFits.Statement (.pwLgate v) := trivial
theorem EncodingFits.pwL2gate (b : Fin 4) (v : Word) : EncodingFits.Statement (.pwL2gate b v) := trivial
theorem EncodingFits.localBankWakeDone (bank : Fin 32) : EncodingFits.Statement (.localBankWakeDone bank) := trivial
theorem EncodingFits.l2WayWakeDone (b : Fin 4) (way : Fin 16) : EncodingFits.Statement (.l2WayWakeDone b way) := trivial
theorem EncodingFits.grantPeriodEnd (draw : BitVec 16) : EncodingFits.Statement (.grantPeriodEnd draw) := trivial
theorem EncodingFits.tokenArrival (n : BitVec 16) (period : BitVec 24) : EncodingFits.Statement (.tokenArrival n period) := trivial
theorem EncodingFits.brownoutShed (volts : BitVec 16) : EncodingFits.Statement (.brownoutShed volts) := trivial
theorem EncodingFits.brownoutAllShed (volts : BitVec 16) : EncodingFits.Statement (.brownoutAllShed volts) := trivial
theorem EncodingFits.brownoutRestore (volts : BitVec 16) : EncodingFits.Statement (.brownoutRestore volts) := trivial
theorem EncodingFits.inputLoss (volts : BitVec 16) : EncodingFits.Statement (.inputLoss volts) := trivial
theorem EncodingFits.hibernateQuiesce : EncodingFits.Statement .hibernateQuiesce := trivial
theorem EncodingFits.hibernateFlush : EncodingFits.Statement .hibernateFlush := trivial
theorem EncodingFits.hibernateDrain : EncodingFits.Statement .hibernateDrain := trivial
theorem EncodingFits.hibernateSeal : EncodingFits.Statement .hibernateSeal := trivial
theorem EncodingFits.powerOff (inputPresent : Bool) : EncodingFits.Statement (.powerOff inputPresent) := trivial
theorem EncodingFits.powerOn (volts : BitVec 16) : EncodingFits.Statement (.powerOn volts) := trivial
theorem EncodingFits.flashImageWrite (kind : BitVec 16) (slot : Bool) (image : List Byte) : EncodingFits.Statement (.flashImageWrite kind slot image) := trivial
theorem EncodingFits.hbCtlResume : EncodingFits.Statement .hbCtlResume := trivial
theorem EncodingFits.rejoinTimeout : EncodingFits.Statement .rejoinTimeout := trivial
theorem EncodingFits.hbCtlRelease : EncodingFits.Statement .hbCtlRelease := trivial
theorem EncodingFits.attCtl (v : Word) : EncodingFits.Statement (.attCtl v) := trivial
theorem EncodingFits.attestationDone : EncodingFits.Statement .attestationDone := trivial
theorem EncodingFits.partCtl (p : BitVec 3) (v : Word) : EncodingFits.Statement (.partCtl p v) := trivial
theorem EncodingFits.ostrCtl (s : StrandId) (v : Word) : EncodingFits.Statement (.ostrCtl s v) := trivial
theorem EncodingFits.strandPark : EncodingFits.Statement .strandPark := trivial
theorem EncodingFits.ostrWth (s : StrandId) (v : Word) : EncodingFits.Statement (.ostrWth s v) := trivial
theorem EncodingFits.autoWake : EncodingFits.Statement .autoWake := trivial
theorem EncodingFits.wakeComplete : EncodingFits.Statement .wakeComplete := trivial
theorem EncodingFits.orngHtr (r : RingId) (v : Word) : EncodingFits.Statement (.orngHtr r v) := trivial
theorem EncodingFits.orngMap (r : RingId) (v : Word) : EncodingFits.Statement (.orngMap r v) := trivial
theorem EncodingFits.lockLoopPeriod (chiplet : Fin 16) (drift : List Int) : EncodingFits.Statement (.lockLoopPeriod chiplet drift) := trivial
theorem EncodingFits.ringResettleDone : EncodingFits.Statement .ringResettleDone := trivial
theorem EncodingFits.cdrLoss : EncodingFits.Statement .cdrLoss := trivial
theorem EncodingFits.linkTraining (fibre : Fin 64) (res : TrainResult) : EncodingFits.Statement (.linkTraining fibre res) := trivial
theorem EncodingFits.nonInstruction (cls : SlotClass) (w : BitVec 32) : EncodingFits.Statement (.nonInstruction cls w) := trivial
theorem EncodingFits.crisumUnassigned (w : BitVec 32) : EncodingFits.Statement (.crisumUnassigned w) := trivial
theorem EncodingFits.rejoinTraffic (group : BitVec 6) (member : BitVec 8) (step : Word) : EncodingFits.Statement (.rejoinTraffic group member step) := trivial
theorem EncodingFits.eventAcknowledge : EncodingFits.Statement .eventAcknowledge := trivial
theorem EncodingFits.killBySupervisor : EncodingFits.Statement .killBySupervisor := trivial
theorem EncodingFits.supervisorPreempt : EncodingFits.Statement .supervisorPreempt := trivial
theorem EncodingFits.inBandControlFlit (peer : Fin 30) (strand : StrandId) (amask : BitVec 8) : EncodingFits.Statement (.inBandControlFlit peer strand amask) := trivial
theorem EncodingFits.coordinatorTokens (n : BitVec 16) (period : BitVec 24) : EncodingFits.Statement (.coordinatorTokens n period) := trivial

end

end Sys2Proof.Laws
end

