-- ==== Sys2Proof/Tests/Slice0.lean ====
section
/-! SUPPORT. Tests: words written out from the encoding tables, ill-formed terms, one step of a few instructions, and for each statement a
state and operands that meet its hypotheses. Expected values are worked out from the rules that the comments cite. -/

section

set_option Elab.async false

namespace Sys2Proof.Tests

open Sys2Proof Sys2Proof.Machine

/-! ### Words -/

/-- Each word decodes to the instruction beside it. -/
def decodesAll (f : BitVec 32 → Instr) (l : List (BitVec 32 × Instr)) : Bool := l.all fun (w, i) => f w == i

/-- Words of the K slot (07 R127). -/
theorem test_words_k_1 : (decodesAll (decodeSlot .k)
  [(0x00400005, .br 5), (0x50920000, .bri 9), (0xA0FFFFFE, .call 0x3FFFFE), (0xF1220000, .calli 17), (0x41400000, .ret),
   (0x91A38028, .loop 2 7 40), (0xE1D04003, .loopi 1 16 3), (0x32332809, .mloop 3 6 5 9), (0x82600000, .lexit 2), (0xD2800000, .exit),
   (0x22C00000, .yield), (0x73000000, .hbar), (0xC36EBC00, .waitf 11 700), (0x13900300, .waite 4 3), (0x63CC7500, .waita 6 7 .ge .w8),
   (0xB4210000, .waitb 33), (0x04640000, .waitq { ca := true, cb := false, m := false, bank := true, dec := false }),
   (0x54800000, .drain), (0xA4C64800, .probe 3 4 true), (0xF5118000, .spawn 8 12), (0x45500000, .spawnw 8), (0x9580ABCD, .trap 0xABCD)]) = true := by decide

/-- Words of the K slot (07 R127). -/
theorem test_words_k_2 : (decodesAll (decodeSlot .k)
  [(0x05F20000, .clkdiv .copy 2), (0x56000300, .rot 768), (0xA6400000, .tret), (0xFC000000, .rte), (0x4C4D5082, .mtsr 6 0x15082),
   (0x9C880002, .mfsr 4 2), (0xECC00000, .halt), (0x3D000000, .pfack), (0x8D4A6000, .xinv 5 6), (0xDD8A0000, .errack 5),
   (0x2DFE0000, .ckmark 31)]) = true := by decide

/-- Words of the S slot (07 R128, R129). -/
theorem test_words_s_1 : (decodesAll (decodeSlot .s)
  [(0x00443200, .add 2 3 4), (0x50864280, .sub 3 4 5), (0xA0C85300, .mul 4 5 6), (0xF10A6380, .mulh 5 6 7), (0x414C7400, .mulhn 6 7 8),
   (0x918E8480, .div 7 8 9), (0xE1D09500, .divn 8 9 10), (0x3212A580, .rem 9 10 11), (0x8254B600, .and 10 11 12),
   (0xD296C680, .or 11 12 13), (0x22D8D700, .xor 12 13 14), (0x731AE780, .shl 13 14 15), (0xC35CF800, .shr 14 15 16),
   (0x139F0880, .sra 15 16 17), (0x63E11900, .min 16 17 18), (0xB4232980, .max 17 18 19), (0x04653A00, .minn 18 19 20),
   (0x54A74A80, .maxn 19 20 21), (0xA4CE8000, .clz 7 8), (0xF512A000, .popc 9 10), (0x4542218D, .sel 1 2 3 13),
   (0x95AC4816, .addi 22 4 2070)]) = true := by decide

/-- Words of the S slot (07 R128, R129). -/
theorem test_words_s_2 : (decodesAll (decodeSlot .s)
  [(0x05EE4817, .andi 23 4 2071), (0x56304818, .ori 24 4 2072), (0xA6724819, .xori 25 4 2073), (0xF6B44023, .shli 26 4 35),
   (0x46F64024, .shri 27 4 36), (0x97384025, .srai 28 4 37), (0xE747FFFF, .movi 3 0x1FFFF), (0x37BD0001, .movh 30 0x10001),
   (0x87C48649, .cmp 1 2 3 4 .gtn), (0xD80487F0, .cmpeqi 1 2 3 0x1F0), (0x28514C07, .cmplti 4 5 6 7), (0x78BC3E01, .cmpltni 15 0 31 1),
   (0xC8C48C00, .pand 1 2 3), (0x19115800, .por 4 5 6), (0x695E2400, .pxor 7 8 9), (0xB9AAF000, .pandn 10 11 12),
   (0x09C22755, .ldl 1 2 .i16 0x155), (0x5A064C08, .stl 3 4 .d64 8), (0xAA4A07FF, .ldsp 5 0x7FF), (0xFA8C000C, .stsp 6 12),
   (0x4ACE0014, .mfc 7 0x014), (0x9B10001B, .mtc 8 0x01B)]) = true := by decide

/-- Words of the S slot (07 R128, R129). -/
theorem test_words_s_3 : (decodesAll (decodeSlot .s)
  [(0x0B53FE40, .mfv 9 63 100), (0x5BBE5630, .mtv 62 10 99), (0xABC22180, .fadd 1 2 3), (0xFC085300, .fsub 4 5 6),
   (0x4C4E8480, .fmul 7 8 9), (0x9C822190, .fma 1 2 3 4), (0xECCA6000, .fcvtif 5 6), (0x3D0E8000, .fcvtfi 7 8),
   (0x8D44864A, .fcmp 1 2 3 4 .un), (0xDDBA8000, .bdmov 14 20), (0x2DE12020, .tdld 33 4 32), (0x7E222840, .tdst 34 5 64),
   (0xCE498A80, .tdset 9 .scaleOff 21), (0x1E8E6000, .hset 3 19), (0x6ECCB008, .haddr 6 5 513), (0xBF1FE800, .advc 7 1000),
   (0x0F600100, .advp 8 1), (0x5FA98E00, .chset 5 6 7)]) = true := by decide

/-- Words of the V slot (07 R131, R132). -/
theorem test_words_v_1 : (decodesAll (decodeSlot .v)
  [(0x0042F860, .vadd 2 62 6 .f32 false), (0x5083F473, .vsub 3 61 7 .bf16 true), (0xA0C4F084, .vmul 4 60 8 .f16 false),
   (0xF105EC97, .vfma 5 59 9 .i32 true), (0x4146E8A8, .vfms 6 58 10 .n32 false), (0x9187E4BB, .vmin 7 57 11 .i16 true),
   (0xE1C8E0CC, .vmax 8 56 12 .i8 false), (0x32082400, .vabs 8 9 .f32 false), (0x824A2C0B, .vneg 10 11 .i16 true),
   (0xD28BD4F6, .vand 11 53 15 .i32 false), (0x22CCD109, .vor 12 52 16 .n32 true), (0x730DCD1A, .vxor 13 51 17 .i16 false),
   (0xC34EC92D, .vshl 14 50 18 .i8 true), (0x138FC53E, .vshr 15 49 19 .n8 false), (0x63D0C147, .vsra 16 48 20 .i32 true),
   (0xB411BD5E, .vsel 17 47 21 .n8 false), (0x0452B96D, .vcmpeq 18 46 22 .i8 true), (0x5493B57A, .vcmplt 19 45 23 .i16 false),
   (0xA4D4B189, .vcmple 20 44 24 .n32 true), (0xF514A1F1, .vadds 20 40 31 .f32 true), (0x4555A5E3, .vmuls 21 41 30 .bf16 true),
   (0x9596A9D5, .vfmas 22 42 29 .f16 true)]) = true := by decide

/-- Words of the V slot (07 R131, R132). -/
theorem test_words_v_2 : (decodesAll (decodeSlot .v)
  [(0x05D7ADC7, .vmaxs 23 43 28 .i32 true), (0x5608042F, .vwmul 8 1 2 .n8 .quad), (0xA6460C4A, .vwadd 6 3 4 .i16 .pair),
   (0xF685F00D, .vnarrow 5 60 .i8 .quad), (0x46C1098D, .vcvt 1 2 .i8 .i32 true), (0x97010801, .vrsqe 1 2 true),
   (0xE7431000, .vrcpe 3 4 false), (0x37851801, .vexp2e 5 6 true), (0x87C72000, .vlog2e 7 8 false),
   (0xD8092828, .vred 9 10 .min .n32 false), (0x284B3015, .vscan 11 12 .max .f16 true), (0x78A3767A, .vperm 35 29 39 .i16 false),
   (0xC8E47283, .vshuf 36 28 40 .bf16 true), (0x190109EE, .vbcast 1 2 30 .n8 false), (0x6944146D, .vdot 4 5 6 .i8 true),
   (0xB987209D, .vch 7 8 9 6 true), (0x09C18406, .vmov 1 33 .i32 false), (0x5A0201F3, .vmovs 2 31 .bf16 true),
   (0xAA43000A, .viota 3 .i16 false), (0xFA841401, .vcnt 4 5 .f32 true), (0x4AFF3FFF, .vld 63 7 0x7FF), (0x9B3E4001, .vst 62 8 1)]) = true := by decide

/-- Words of the V slot (07 R131, R132). -/
theorem test_words_v_3 : (decodesAll (decodeSlot .v)
  [(0x0B4110FF, .vldc 1 2 3 63), (0x5B8429A0, .vstc 4 5 6 32), (0xABC9AFFC, .vldh 9 10 1023), (0xFC0BC800, .vsth 11 12 512),
   (0x4C406DE0, .vwin 13 1504)]) = true := by decide

/-- Words of the M slot (07 R133). -/
theorem test_words_m : (decodesAll (decodeSlot .m)
  [(0x00400000, .mlease), (0x50800000, .mrel), (0xA0D4A140, .omclm 20 40 5), (0xF1150C00, .omrel 21 3),
   (0x41410A80, .mma 1 2 true false true false), (0x91831140, .mmar 3 4 false true false true), (0xE1C00000, .mzero),
   (0x323F0000, .mdrain 63), (0x82400000, .mresume), (0xD2A20000, .mstat 17), (0x22C90000, .macc 9), (0x740B4520, .chbeg 5 40 41),
   (0xC4600000, .chstep 8), (0x14800000, .chrun), (0x64C00000, .chend), (0xB532CF40, .chgrad 50 51 52), (0x05400000, .chabort)]) = true := by decide

/-- Words of the C slots (07 R134). -/
theorem test_words_c_1 : (decodesAll (decodeSlot .c)
  [(0x00410A00, .copy 1 2 .sticky), (0x50BC3400, .copyh 15 3 .streaming), (0xA0CC7800, .cbatch 6 7 true),
   (0xF101083C, .gather 1 2 3 .bypass), (0x41441460, .scatter 4 5 6 .dflt), (0x9198221D, .amo 6 1 2 3 .rel .w8),
   (0xE1C8531F, .amocas 4 5 6 7 .acqrel), (0x32120000, .qfence { ca := false, cb := true, m := false, bank := false, dec := true }),
   (0x827A4000, .stmap 7 9), (0xD2A04000, .stflush 0x81), (0x22D08000, .stinv 0x42), (0x73210200, .pref 33 .sticky),
   (0xC3410BC0, .decomp 1 2 15), (0x13890000, .ddict 9), (0x63C22180, .bkcmd 1 2 3), (0xB4282800, .bkvec 40 5),
   (0x04440C69, .lease 1 0 12 3 9), (0x5483C40A, .lrel 0 15 4 10), (0xA4C800CB, .lrenew 2 0 6 11), (0xF501C00C, .lqry 0 7 12),
   (0x457F2000, .colstep 63 4), (0x9C010800, .persist 1 2)]) = true := by decide

/-- Words of the C slots (07 R134). -/
theorem test_words_c_2 : (decodesAll (decodeSlot .c)
  [(0x0C431000, .scmrd 3 4)]) = true := by decide

/-- Words of the X slot (07 R135, 11 R225). -/
theorem test_words_x : (decodesAll (decodeSlot .x)
  [(0x00410855, .xpose 1 2 5 .w8 true), (0x508310DA, .xcvt 3 4 .e4m3 .i8 .sr), (0xA0C5209A, .xpack 5 8 9 2 true),
   (0xF10C34E0, .xunpk 12 13 14 false), (0x414108B1, .xtbl 1 2 11 true), (0x918740F0, .xtld 7 16 15), (0xE1C00000, .xtsw),
   (0x321403FF, .xexp 20 63 7 true), (0x82420C46, .xzip 2 3 4 .w4), (0xD2851802, .xunzip 5 6 .w16),
   (0x22C10834, .xexpand 1 2 3 .w8 false), (0x73041461, .xcompr 4 5 6 .w32 true)]) = true := by decide

/-- Crisum words (14 R292). -/
theorem test_words_bank : (decodesAll decodeCrisum
  [(0x00000000, .bnop), (0x0C80BEEF, .bsetrLo 9 0xBEEF), (0x0C200001, .bsetrHi 8 1), (0x0BC08000, .bsetrAdd 7 0x8000),
   (0x168A0000, .bseg 3 4 5), (0x1B33FF80, .bmac 1 2 6 .e4m3 1023), (0x263E0280, .bmacn 3 0 7 .b4 5), (0x2B000000, .bred 1 2),
   (0x2C400000, .bredTree 2), (0x37200000, .bscl 3 9), (0x3B000000, .bcvt 1 .f16), (0x455F8000, .bout 2 10 63), (0x4A800000, .bclr 5),
   (0x55800000, .bloop 11), (0x58000000, .bend), (0x66000000, .bsig 12), (0x68000000, .bhalt), (0x76A03F80, .bldv 13 1 127)]) = true := by decide

/-! ### Ill-formed terms -/

/-- No slot word of this class encodes an instruction. -/
def refusesAll (cls : SlotClass) (l : List (BitVec 32)) : Bool := l.all fun w => decodeSlot cls w == .nonInstruction cls w

/-- Each check of `Instr.wf` refuses a term that has no encoding: unimplemented types (09 R183, R189) and unaligned groups (03 R49). -/
theorem test_wf_refuses : ([Instr.vabs 8 9 .n32 false, .vneg 10 11 .n8 true, .vshl 14 50 18 .f32 true, .vshr 14 50 18 .bf16 true,
    .vsra 14 50 18 .f16 true, .vwmul 8 1 2 .f32 .quad, .vwmul 6 1 2 .n8 .quad, .vwadd 7 3 4 .i16 .pair, .vwadd 8 3 4 .bf16 .quad,
    .vnarrow 5 60 .i32 .pair, .vshuf 36 28 40 .i8 true, .vdot 4 5 6 .i16 true, .xcvt 3 4 .b4 .i8 .sr, .xcvt 3 4 .i8 .b4 .sr,
    .xpack 5 7 9 2 true, .xpack 5 6 9 2 false, .xunpk 14 13 14 false, .xtld 7 18 15, .xzip 3 3 4 .w4, .xunzip 5 7 .w16].all
      fun i => !i.wf) = true := by decide

/-- The aligned and implemented neighbours of those terms are well-formed. -/
theorem test_wf_admits : ([Instr.vabs 8 9 .i32 false, .vneg 10 11 .i8 true, .vshl 14 50 18 .n8 true, .vwmul 8 1 2 .n8 .quad,
    .vwadd 6 3 4 .i16 .pair, .vnarrow 5 60 .i8 .pair, .vshuf 36 28 40 .i16 true, .vdot 4 5 6 .i8 true, .xcvt 3 4 .e4m3 .i8 .sr,
    .xpack 5 8 9 2 true, .xunpk 12 13 14 false, .xtld 7 16 15, .xzip 2 3 4 .w4, .xunzip 5 6 .w16].all fun i => i.wf) = true := by decide

/-- The V-slot words of ill-formed terms encode no instruction (09 R183). -/
theorem test_words_v_refused : refusesAll .v
  [0x02082408, 0x024A2C0F, 0x034EC921, 0x03CEC925, 0x06080421, 0x0606042F, 0x06470C4A, 0x06480C43, 0x0685F006, 0x08E4728D, 0x0944146B]
    = true := by decide

/-- The X-slot words of ill-formed terms encode no instruction (11 R225). -/
theorem test_words_x_refused : refusesAll .x [0x0083115A, 0x00831196, 0x00C51C9A, 0x00C51898, 0x010E34E0, 0x018748F0, 0x02430C46, 0x02851C02]
    = true := by decide

/-- Reserved bits, modes and opcodes of Crisum words (14 R292): BSETR mode 3, BCVT fmt 3, BRED tree with s ≠ 0, opcode 31. -/
theorem test_words_bank_refused : ([0x0C60BEEF, 0x3B800000, 0x2CC00000, 0xF8000000, 0x00000001].all fun (w : BitVec 32) =>
    decodeCrisum w == .crisumUnassigned w) = true := by decide

/-! ### States for the witnesses -/

/-- The module after reset, with core 0 so. -/
def mk (f : Core → Core) : State := State.reset.withMe (f {})

/-- A scalar register file with s1, s2 and s3 so. -/
def sregs (a b c : Word) : Vector Word 32 := (((Vector.replicate 32 0).set 1 a).set 2 b).set 3 c

def priv (c : Core) : Core := { c with sys := { c.sys with mode := true } }

/-- A handle of four slots of 512 bytes with one of them filled. -/
def hnd : Handle := { base := 1024, slotBytes := 512, slotCount := 4, prod := 1, cons := 0 }

/-- Every handle so configured. -/
def handled (c : Core) : Core := { c with handles := Vector.replicate 16 (some hnd) }

/-! ### Witnesses: the S slot -/

/-- Division by zero, the overflowing quotient, and an ordinary one. -/
theorem witness_DivisionAndBitCountsDeliver :
    (mk fun c => { c with s := sregs 7 0 0 }).me.rs 2 = 0 ∧
    ((mk fun c => { c with s := sregs (BitVec.intMin 64) (BitVec.allOnes 64) 0 }).me.rs 1 = BitVec.intMin 64 ∧
      (mk fun c => { c with s := sregs (BitVec.intMin 64) (BitVec.allOnes 64) 0 }).me.rs 2 = BitVec.allOnes 64) ∧
    (mk fun c => { c with s := sregs 1 (BitVec.allOnes 64) 0 }).me.rs 1 ≠ 0 := by decide +kernel

/-- A scratchpad store of two bytes at its last address, with no stash. -/
theorem witness_LocalStoreWritesItsBytes :
    let st : LocalStore := { due := 0, slot := 1, issue := 0, addr := 0xFFFFE, bytes := [1, 0], half := false }
    st.half = false ∧ st.bytes ≠ [] ∧ st.addr + st.bytes.length ≤ (State.reset.core 0).stashBase ∧ (State.reset.core 0).loc.lmem.wf = true := by
  decide +kernel

/-- Scalar loads and stores at the last word of the scratchpad; spill moves at the last declared word and one beyond it. -/
theorem witness_LocalAndSpillMovesDeliver :
    (let s := mk fun c => { c with s := sregs 0xFFFF8 0 0 };
      s.me.localCheck (s.me.rs 1 + (0 : BitVec 9).signExtend 64).toNat (sizeSpec .d64) false = none ∧
      s.me.localCheck (s.me.rs 1 + (0 : BitVec 9).signExtend 64).toNat (sizeSpec .d64) true = none) ∧
    (let s := mk fun c => { c with loc := { c.loc with spillLimit := 64 } };
      8 * (7 : BitVec 11).toNat + 8 ≤ s.me.loc.spillLimit ∧ s.me.loc.spillLimit < 8 * (8 : BitVec 11).toNat + 8) := by
  decide +kernel

/-- Accesses that run past the scratchpad, into its last byte, and into the stash where no entry is; loads of two bytes; a handle record that is
good and one of a slot that is none. -/
theorem witness_LocalAndSpillMovesDeliver_loads :
    (let s := mk fun c => { c with s := sregs 0xFFFFC 0 0 };
      s.me.localCheck (s.me.rs 1 + (0 : BitVec 9).signExtend 64).toNat (sizeSpec .d64) false = some 1 ∧
      s.me.localCheck (s.me.rs 1 + (0 : BitVec 9).signExtend 64).toNat (sizeSpec .d64) true = some 1 ∧
      2 ^ 20 < 0xFFFFC + 8 ∧ 0xFFFF8 + 8 ≤ s.me.stashBase ∧ 0xFFFF8 + 8 ≤ 2 ^ 20 ∧ s.me.gatedSpan 0xFFFF8 8 = false) ∧
    (let s := mk fun c => { c with loc := { c.loc with stashSteps := 1 } };
      s.me.stashBase ≤ 0xF8000 ∧ s.me.stashEntry 0xF8000 = none ∧ s.me.gatedSpan 0xF8000 8 = false ∧
      s.me.localCheck 0xF8000 8 false = some 2) ∧
    (let l : LocalLoad := { due := 2, readyAt := 4, slot := 1, ord := 0, addr := 0, len := 2, dest := .s 1 true };
      ([0x80, 0xFF] : List Byte).length = l.len ∧ l.dest = .s 1 true ∧ ({ l with dest := .vec 5 } : LocalLoad).dest = .vec 5 ∧
      ({ l with dest := .td 5 } : LocalLoad).dest = .td 5 ∧ ({ l with dest := .handle 5 4096 } : LocalLoad).dest = .handle 5 4096) ∧
    (handleOf 4096 (1024 + 512 * 2 ^ 32 + 4 * 2 ^ 64)).isSome = true ∧ handleOf 4096 0 = none := by
  decide +kernel

/-- rsize readable, its greatest legal value and the multiple of 32 above it, an index that names no register; names on both sides of v31. -/
theorem witness_RegisterMovesDeliver :
    (State.reset.ctlRead 0 0x017).isSome = true ∧ ctlLegal 0x017 1024 = true ∧ ctlLegal 0x017 1056 = false ∧
    State.reset.ctlRead 0 0xFFF = none ∧
    (mk fun c => { c with ctl := { c.ctl with rsize := 32 } }).me.usable [31, 32, 63] := by
  and_intros
  on_goal 5 => simp [mk, Core.usable]
  all_goals decide +kernel

/-- BDMOV at 1, 512, 0 and 513, descriptors at the last aligned address, a handle with one slot filled of four, and a handle record. -/
theorem witness_DescriptorAndHandleMovesDeliver :
    (let s := mk fun c => { c with s := sregs 1 512 513 };
      1 ≤ (s.me.rs 1).toNat ∧ (s.me.rs 2).toNat ≤ 512 ∧ s.me.rs 0 = 0 ∧ 512 < (s.me.rs 3).toNat) ∧
    (let s := mk fun c => { c with s := sregs 0xFFFC0 0 0 };
      (s.me.rs 1 + 32 * (1 : BitVec 11).setWidth 64).toNat % 32 = 0 ∧
      s.me.localCheck (s.me.rs 1 + 32 * (1 : BitVec 11).setWidth 64).toNat 32 false = none ∧
      s.me.localCheck (s.me.rs 1 + 32 * (1 : BitVec 11).setWidth 64).toNat 32 true = none) ∧
    (let s := mk handled;
      s.me.handles[3] = some hnd ∧ 1 ≤ hnd.filled ∧ hnd.filled < 2 ∧ 3 ≤ hnd.slotCount - hnd.filled ∧ hnd.slotCount - hnd.filled < 4) ∧
    (let s := mk fun c => { c with s := sregs 0x200 0 0, loc := { c.loc with lmem := [(0x201, 4), (0x205, 2), (0x208, 4)] } };
      (s.me.rs 1).toNat % 16 = 0 ∧ s.me.localCheck (s.me.rs 1).toNat 16 false = none ∧
      s.hsetRecord 1 = some { base := 1024, slotBytes := 512, slotCount := 4, prod := 0, cons := 0 } ∧
      handleOf s.me.stashBase (natOfBytes (s.me.loc.lmem.bytes 0x200 16)) =
        some { base := 1024, slotBytes := 512, slotCount := 4, prod := 0, cons := 0 } ∧
      (s.me.q.all.any fun k => k.kind.names 3) = false) := by
  decide +kernel

/-- A descriptor address off the grid and one past the scratchpad; a handle without a configuration; records that are misaligned, out of local
memory and bad, and one for a handle that a command names. -/
theorem witness_DescriptorAndHandleMovesDeliver_traps :
    (let s := mk fun c => { c with s := sregs 8 (2 ^ 20) 0 };
      (s.me.rs 1 + 32 * (0 : BitVec 11).setWidth 64).toNat % 32 ≠ 0 ∧ (s.me.rs 2 + 32 * (0 : BitVec 11).setWidth 64).toNat % 32 = 0 ∧
      s.me.localCheck (s.me.rs 2 + 32 * (0 : BitVec 11).setWidth 64).toNat 32 false = some 1 ∧
      s.me.localCheck (s.me.rs 2 + 32 * (0 : BitVec 11).setWidth 64).toNat 32 true = some 1 ∧ s.me.handles[3] = none ∧
      (s.me.rs 1).toNat % 16 ≠ 0 ∧ (s.me.rs 2).toNat % 16 = 0 ∧ s.me.localCheck (s.me.rs 2).toNat 16 false = some 1 ∧
      (s.me.rs 0).toNat % 16 = 0 ∧ s.me.localCheck (s.me.rs 0).toNat 16 false = none ∧ s.hsetRecord 0 = none) ∧
    (let s := mk fun c => { c with q := { c.q with ca := [{ id := 0, issue := 0, kind := .copyh 3 0 {}, wins := Vector.replicate 8 {}, fmode := 0 }] } };
      (s.me.q.all.any fun k => k.kind.names 3) = true) := by
  decide +kernel

/-- A core with nothing in flight. -/
theorem witness_ResultsBecomeReadable :
    let s := State.reset
    s.me.pend = [] ∧ s.me.loc.loads = [] ∧ s.me.loc.stores = [] ∧ s.me.cyc.toNat + 1 < 2 ^ 64 := by
  decide +kernel

/-! ### Witnesses: the K slot -/

/-- A bundle address, the highest one, one that is not aligned and one beyond the address space. -/
theorem witness_BranchesRedirect :
    let good := fun (w : Word) => w.toNat % 32 = 0 ∧ w.toNat < 2 ^ 48
    let s := mk fun c => { c with s := sregs (2 ^ 48 - 32) 16 (2 ^ 48) };
    good (s.me.rs 1) ∧ good s.me.ctl.ln ∧ ¬good (s.me.rs 2) ∧ ¬good (s.me.rs 3) ∧
    ¬good (mk fun c => { c with ctl := { c.ctl with ln := 8 } }).me.ctl.ln ∧
    (let s := mk fun c => { c with pc := 2 ^ 48 - 32 };
      (s.me.pc + 32 * (0 : BitVec 22).signExtend 64).toNat < 2 ^ 48 ∧ 2 ^ 48 ≤ (s.me.pc + 32 * (1 : BitVec 22).signExtend 64).toNat) := by
  decide +kernel

/-- A record of counter 0. -/
def aLoop (modulo : Bool) (order : Nat) : LoopRec := { active := true, start := 32, stop := 64, modulo := modulo, stages := 2, order := order }

/-- Counts of zero and of one, lengths of zero and one, a modulo loop within and beyond its bounds, an active and an inactive record. -/
theorem witness_LoopsStartAndEnd :
    (let s := mk fun c => { c with s := sregs 0 1 (2 ^ 32 - 1) };
      0 < (1 : BitVec 15).toNat ∧ (s.me.rs 1).toNat % 2 ^ 32 = 0 ∧ (s.me.rs 2).toNat % 2 ^ 32 ≠ 0 ∧ (1 : BitVec 10) ≠ 0 ∧
      2 ^ 32 - ((7 : BitVec 4).toNat + 1) < (s.me.rs 3).toNat % 2 ^ 32 ∧ 8 < (8 : BitVec 4).toNat + 1 ∧
      ¬((1 : BitVec 11) = 0 ∨ 8 < (7 : BitVec 4).toNat + 1 ∨ 2 ^ 32 - ((7 : BitVec 4).toNat + 1) < (s.me.rs 2).toNat % 2 ^ 32 ∨
        ∃ k : Fin 4, k.val ≠ 0 ∧ (s.me.loops[k]).active = true ∧ (s.me.loops[k]).modulo = true) ∧
      (s.me.loops[0]).active = false) ∧
    (let s := mk fun c => { c with loops := c.loops.set 1 (aLoop true 0) };
      (∃ k : Fin 4, k.val ≠ 0 ∧ (s.me.loops[k]).active = true ∧ (s.me.loops[k]).modulo = true) ∧ (s.me.loops[1]).active = true) := by
  decide +kernel

/-- An ordinary and a modulo record that the bundle ends, with two iterations left, without a region and with a full one. -/
theorem witness_LoopBackRepeats :
    let core := fun (modulo : Bool) (size : BitVec 11) => ({
      pc := 64, loops := (Vector.replicate 4 {}).set 0 (aLoop modulo 1)
      ctl := { lc := (Vector.replicate 4 0).set 0 2, rsize := size } } : Core)
    let meets := fun (c : Core) => (c.loops[0]).active = true ∧ (c.loops[0]).maskU = false ∧ (c.loops[0]).maskS = false ∧
      (c.loops[0]).stop = c.pc ∧ (∀ m : Fin 4, m ≠ 0 → (c.loops[m]).active = true → (c.loops[m]).order < (c.loops[0]).order) ∧
      1 < (c.ctl.lc[0]).toNat
    meets (core false 0) ∧ meets (core true 1024) ∧ ((core false 0).loops[0]).modulo = false ∧
    ((core true 1024).loops[0]).modulo = true ∧ (core false 0).ctl.rsize = 0 ∧ (core true 1024).ctl.rsize.toNat ≤ 1024 := by
  decide +kernel

/-- A record that the bundle ends with one iteration left inside of one that goes on, and one that a handler's entry has masked. -/
theorem witness_LoopBackRepeats_fallOut :
    let ends := fun (c : Core) (m : Fin 4) =>
      (c.loops[m]).active = true ∧ (c.loops[m]).maskU = false ∧ (c.loops[m]).maskS = false ∧ (c.loops[m]).stop = c.pc
    (let c : Core := { pc := 64, loops := ((Vector.replicate 4 {}).set 0 (aLoop false 1)).set 1 (aLoop false 2), ctl := { lc := #v[2, 1, 0, 0] } };
      ends c 1 ∧ (∀ m, m ≠ 1 → ends c m → (c.loops[m]).order < (c.loops[(1 : Fin 4)]).order) ∧ (c.ctl.lc[(1 : Fin 4)]).toNat ≤ 1) ∧
    (let c : Core := { pc := 64, loops := (Vector.replicate 4 {}).set 0 { aLoop false 1 with maskU := true } }; ∀ m, ¬ ends c m) := by
  decide +kernel

/-- Three windows' worth of address space in one: the first 2 MiB of module 0, readable, writable and executable. -/
def windowed (c : Core) : Core :=
  { c with s := sregs 0x40 5 0, sys := { c.sys with wins := c.sys.wins.set 0 { va := 0, len := 2 ^ 21, ia := 0, ctl := 15 } } }

/-- The page at 0 stands in frame 1 of HBM, in the scope of the module, migratable and of partition 0, which owns every die; the word at
0x40 of it holds 5. -/
def mapped (s : State) : State :=
  { s with hbm := [(0, 0x25), (4, 1), (0x200040, 5)], trans := { s.trans with ptCtl := true }
           parts := s.parts.set 0 { ctl := 0xFF01 } }

theorem ok_of_isOk {ε α : Type} {x : Except ε α} (h : x.isOk = true) : ∃ a, x = .ok a := by
  cases x with
  | error e => simp [Except.isOk, Except.toBool] at h
  | ok a => exact ⟨a, rfl⟩

/-- Handles that hold what is asked and handles that do not; a queue wait that names no copy queue; a first wait; and a word that the windows
let the core read. -/
theorem witness_WaitsSampleAtIssue :
    (let s := mk handled;
      s.me.handles[2] = some hnd ∧ (4 : BitVec 10).toNat ≤ hnd.slotCount ∧ hnd.slotCount < (5 : BitVec 10).toNat) ∧
    State.reset.me.handles[2] = none ∧ State.reset.me.counting = none ∧
    (mk fun c => { c with counting := some (.batches 3) }).me.counting = some (.batches (3 : BitVec 6).toNat) ∧
    (let q : QMask := { ca := false, cb := true, m := true, bank := true, dec := true };
      (mk fun c => { c with counting := some (.queues q) }).me.counting = some (.queues q)) ∧
    State.reset.me.again = false ∧ (mk fun c => { c with again := true }).me.again = true ∧
    (let s := mapped (mk windowed);
      (s.me.rs 1).toNat % 8 = 0 ∧ translate s.me.sys.wins { r := true } (s.me.rs 1).toNat = .ok 0x40 ∧
      (s.readLine (.core s.cur) 0x40 8).isOk = true) ∧ (mk fun c => { c with s := sregs 1 0 0 }).me.rs 1 ≠ 0 := by
  decide +kernel

theorem witness_WaitsSampleAtIssue_word : ∃ a, (mapped (mk windowed)).waited.readLine (.core 0) 0x40 8 = .ok a :=
  ok_of_isOk (by decide +kernel)

/-- A task that runs on core 0, in region 1. -/
def aTask : Task :=
  { va := 0x1000, kind := 0, w := 1, h := 1, prio := 0, region := 1, spawnQuota := 0xFFFF, affinity := 0xFF, rdDefault := false
    waitYield := false, spill := 0, vfoot := 0, entry := 0, succ := 0, mb := [], operands := [], wins := Vector.replicate 8 {}
    state := .running, cores := [0] }

/-- Region 1, with a handler, strands, tickets and room. -/
def aRegion : Region :=
  { id := 1, parent := 1, maxCores := 4, mtickets := 3, strands := 8, quota := 16, handler := 0x4000, trapRec := 0x800 }

/-- Core 0 runs aTask. -/
def tasked (s : State) : State := { s with tasks := [aTask], regions := [aRegion] }

def inRegion (c : Core) : Core := { c with ctl := { c.ctl with taskid := 0x1000, region := 1 }, status := .running }

/-- A supervisor's core. -/
def superTasked (s : State) : State := { s with tasks := [aTask], regions := [{ aRegion with super := true }] }

/-- A task descriptor at 0x80: a hoop of one core, in region 1. -/
def withDescriptor (s : State) : State :=
  { mapped s with hbm := [(0, 0x25), (4, 1), (0x200089, 1), (0x20008A, 1), (0x20008C, 1)], regions := [aRegion] }

/-- The answer of the submission that a SPAWN of the descriptor at s1 makes. -/
def answer (s : State) : Submission :=
  let f := s.flushStores s.cur
  (f.submit (f.me.rs 1) (.core f.cur) f.me.sys.wins f.me.ctl.region.toNat ((f.taskOf f.cur).map (·.va))).2

/-- The answer of SPAWNW's look. -/
def spawnLook (s : State) : Except Raise (Bool × Wait) :=
  let f := s.flushStores s.cur
  (f.waited.look f.cur (.spawn (s.me.rs 1))).2

def spawning (va : Word) (c : Core) : Core := { windowed (inRegion c) with s := sregs va 0 0 }

/-- Probes of nothing, of a mapped span, up to 2^48 and beyond; divisor codes that R18 allows and forbids, and a reserved one. -/
theorem witness_ProbesSpawnsAndClocksAct :
    (let s := mapped (mk windowed);
      (s.me.rs 3).toNat = 0 ∧ (s.me.rs 2).toNat ≠ 0 ∧ (s.me.rs 1).toNat + (s.me.rs 2).toNat ≤ 2 ^ 48 ∧
      ∀ va ∈ probePieces (s.me.rs 1).toNat (s.me.rs 2).toNat, s.probePiece true va = none) ∧
    (let s := mk fun c => { c with s := sregs (2 ^ 48 - 1) 1 2 };
      (s.me.rs 1).toNat + (s.me.rs 2).toNat ≤ 2 ^ 48 ∧ 2 ^ 48 < (s.me.rs 1).toNat + (s.me.rs 3).toNat) ∧
    codesLegal (codesOf (State.reset.me.asked.set 1 6) State.reset.me.granted) = true ∧
    codesLegal (codesOf (State.reset.me.asked.set 0 6) State.reset.me.granted) = false ∧ 7 ≤ (7 : BitVec 4).toNat := by
  decide +kernel

/-- Spawns accepted, lacking room, failed and not readable; a core whose earlier store has not performed, and one with a SPAWN that waits. -/
theorem witness_SpawnsSubmit :
    (withDescriptor (mk (spawning 0x80))).me.drained = true ∧ (withDescriptor (mk (spawning 0x80))).me.spawns = [] ∧
    answer (withDescriptor (mk (spawning 1))) = .failed 9 ∧
    answer (withDescriptor (mk (spawning 0x400000))) = .violation clsWindow 0x400000 ∧
    (mk fun c => { c with
      issue := 1, q := { c.q with ca := [{ id := 0, issue := 0, kind := .stflush [(0, 1)], wins := Vector.replicate 8 {}, fmode := 0 }] } }).me.drained
      = false ∧
    (mk fun c => { c with spawns := [{ issue := 0, pc := 0, task := 0, pd := 1, readyAt := 16 }] }).me.spawns ≠ [] ∧
    spawnLook (withDescriptor (mk (spawning 0x400000))) = .error (.violation clsWindow 0x400000) := by
  decide +kernel

theorem witness_SpawnsSubmit_accepted : answer (withDescriptor (mk (spawning 0x80))) = .accepted := by
  decide +kernel

theorem witness_SpawnsSubmit_lacking :
    answer { withDescriptor (mk (spawning 0x80)) with tasks := [{ aTask with va := 0x80 }] } = .lacking := by
  decide +kernel

theorem witness_SpawnsSubmit_look : spawnLook (withDescriptor (mk (spawning 0x80))) = .ok (true, .spawn 0x80) := by
  decide +kernel

theorem witness_SpawnsSubmit_wait :
    spawnLook { withDescriptor (mk (spawning 0x80)) with tasks := [{ aTask with va := 0x80 }] } = .ok (false, .spawn 0x80) := by
  decide +kernel

/-! ### Witnesses: traps and the system instructions -/

/-- A core in user mode, outside handlers, whose region has a handler and a trap record at the scratchpad's end; and a TRAP's cause. -/
theorem witness_UserTrapEntry :
    let s := tasked (mk fun c => { inRegion c with sys := { c.sys with trapRec := 0xFFFE0 } })
    let x := s.core 0
    (0x05 ≠ 0x0E ∧ 0x05 ≠ 0x14 ∧ 0x05 ≠ 0x15) ∧ x.sys.mode = false ∧ x.sys.uh = false ∧ s.userEntry 0 ≠ 0 ∧ x.pend = [] ∧
    x.loc.loads = [] ∧ x.loc.stores = [] ∧ x.loc.lmem.wf = true ∧ x.sys.trapRec + 32 ≤ x.stashBase ∧ x.cyc.toNat + 3 < 2 ^ 64 ∧
    x.gatedSpan x.sys.trapRec 32 = false ∧
    ({ x with loc := { x.loc with gated := 0x80000000 } } : Core).gatedSpan x.sys.trapRec 32 = true := by
  decide +kernel

/-- A system cause in user mode, a user cause in privileged mode, and an asynchronous one there inside a user handler. -/
theorem witness_SystemTrapEntry :
    let meets := fun (s : State) (cause : Nat) (sync : Bool) =>
      let x := s.core 0
      (cause = 0x0E ∨ cause = 0x14 ∨ cause = 0x15 ∨ (x.sys.mode = true ∧ (sync = false ∨ x.sys.uh = false))) ∧ x.sys.sh = false ∧
      cause < 256 ∧ x.pend = [] ∧ x.loc.loads = [] ∧ x.loc.stores = [] ∧ x.cyc.toNat + 3 < 2 ^ 64
    meets State.reset 0x15 true ∧ meets (mk priv) 0x01 true ∧
    meets (mk fun c => { c with sys := { c.sys with mode := true, uh := true } }) 0x08 false := by
  decide +kernel

/-- An instruction outside a trial, a user handler and a system handler. -/
theorem witness_RaisedAndNestedTraps :
    State.reset.trial = false ∧
    (let s := mk fun c => { c with sys := { c.sys with uh := true } };
      systemCause 0x05 = false ∧ (s.core 0).sys.mode = false ∧ (s.core 0).sys.uh = true) ∧
    (let s := mk fun c => { c with sys := { c.sys with sh := true, mode := true } };
      ((s.core 0).sys.mode = true ∧ (s.core 0).sys.uh = false) ∧ (s.core 0).sys.sh = true) ∧ systemCause 0x15 = true := by
  decide +kernel

theorem witness_TrapReturns :
    (mk fun c => { c with sys := { c.sys with uh := true } }).me.sys.uh = true ∧ State.reset.me.sys.uh = false ∧
    (let s := mk fun c => { c with sys := { c.sys with sh := true, mode := true } };
      s.me.sys.mode = true ∧ s.me.sys.sh = true) := by
  decide +kernel

theorem witness_PrivilegedInstructionsNeedTheMode : State.reset.me.sys.mode = false := by decide +kernel

/-- A core-local and a module-shared register, an index that names none, a task to mark, a halt inside and outside the PFW handler. -/
theorem witness_SystemInstructionsAct :
    (let s := superTasked (mk fun c => priv (inRegion c));
      s.me.sys.mode = true ∧ sharedIndex 0x00006 = false ∧ (s.sysLocalRead s.cur 0x06).isSome = true ∧
      sharedIndex 0x10801 = true ∧ s.superTask = true ∧ (s.sharedRead 0x10801).isSome = true ∧ s.sysRead 0x1FFFF = none ∧
      s.taskOf s.cur = some aTask ∧ s.me.sys.inPfw = false) ∧
    (let s := mk fun c => { c with sys := { c.sys with inPfw := true, mode := true } };
      s.me.sys.mode = true ∧ s.me.sys.inPfw = true) := by
  decide +kernel

/-! ### Witnesses: the V and X slots -/

/-- A rotating region of 32 registers. -/
def region32 (c : Core) : Core := { c with ctl := { c.ctl with rsize := 32 } }

/-- Register names on both sides of v31, with a region, and v31 without one. -/
theorem witness_usable : (mk region32).me.usable [0, 31, 32, 63] ∧ (mk id).me.usable [0, 31] := by
  simp [mk, region32, Core.usable]

theorem witness_VectorArithmeticDelivers : (mk region32).me.usable [(63 : BitVec 6).toNat, (31 : BitVec 6).toNat, (32 : BitVec 6).toNat] := by
  simp [mk, region32, Core.usable]

/-- The last element of each of the widths. -/
theorem witness_VectorIntegerElements :
    (Ty.isInt .i32 = true ∧ 127 < elemCount (tyBits .i32)) ∧ (Ty.isInt .i16 = true ∧ 255 < elemCount (tyBits .i16)) ∧
    (Ty.isInt .n8 = true ∧ 511 < elemCount (tyBits .n8)) := by
  decide

theorem witness_VectorBitsAndComparesDeliver :
    (mk region32).me.usable [(63 : BitVec 6).toNat, (31 : BitVec 6).toNat, (32 : BitVec 6).toNat] := by
  simp [mk, region32, Core.usable]

theorem witness_VectorScalarFormsAndMovesDeliver : (mk region32).me.usable [(63 : BitVec 6).toNat, (31 : BitVec 6).toNat] := by
  simp [mk, region32, Core.usable]

/-- Groups of two and four registers, and the scan of a list of 512 numbers under addition. -/
theorem witness_WideningReductionsAndScansDeliver :
    (mk region32).me.usable ((List.range Group.quad.count).map ((60 : BitVec 6).toNat + ·) ++ [(0 : BitVec 6).toNat, (31 : BitVec 6).toNat]) ∧
    (mk region32).me.usable ((List.range Group.pair.count).map ((62 : BitVec 6).toNat + ·) ++ [(0 : BitVec 6).toNat, (31 : BitVec 6).toNat]) ∧
    (∀ x y z : Nat, x + y + z = x + (y + z)) ∧ (List.replicate 512 1).length ≤ 512 := by
  refine ⟨?_, ?_, Nat.add_assoc, le_of_eq List.length_replicate⟩ <;> simp [mk, region32, Core.usable, List.range_succ, Group.count]

/-- Conversions of zeros count nothing; a count that reaches the threshold passes nothing, one more passes counter 0. -/
theorem witness_ConversionsDeliverAndCount :
    (mk id).me.usable [(1 : BitVec 6).toNat, (2 : BitVec 6).toNat] ∧
    (mk id).convTrap (convCounts ((mk id).vcvtConv 2 .f32 .i8)) = none ∧
    (mk id).me.usable ((1 : BitVec 6).toNat :: (List.range Group.pair.count).map ((2 : BitVec 6).toNat + ·)) ∧
    (mk id).convTrap (convCounts ((mk id).vnarrowConv 2 .bf16 .pair)) = none ∧
    (let s := mk fun c => { c with ctl := { c.ctl with cvthr := 3 } };
      ¬(0 < pick3 (3, 0, 0) 0 ∧ s.me.ctl.cvthr.toNat < min 0xFFFFFFFF (s.me.running 0 + pick3 (3, 0, 0) 0)) ∧
      (0 < pick3 (4, 0, 0) 0 ∧ s.me.ctl.cvthr.toNat < min 0xFFFFFFFF (s.me.running 0 + pick3 (4, 0, 0) 0))) := by
  and_intros
  on_goal 1 => simp [mk, Core.usable]
  on_goal 2 => simp [mk, Core.usable, List.range_succ, Group.count]
  all_goals decide +kernel

/-- A legal chain entry and an illegal one; window bases at 1,504, at 1,536 and off the grid; an empty region and one that leaves the file. -/
theorem witness_ChainsAndWindowsOfNames :
    (chLegal 0 = true ∧ chTy 0 = some .f32 ∧ (mk id).me.usable [1, 2, 3]) ∧ chLegal (2 ^ 30) = false ∧
    (let s := mk fun c => { c with s := sregs 1504 1536 8 };
      ((s.me.rs 1 + (0 : BitVec 11).signExtend 64).toNat % 32 = 0 ∧ (s.me.rs 1 + (0 : BitVec 11).signExtend 64).toNat ≤ 1504) ∧
      1504 < (s.me.rs 2 + (0 : BitVec 11).signExtend 64).toNat ∧ (s.me.rs 3 + (0 : BitVec 11).signExtend 64).toNat % 32 ≠ 0) ∧
    (32 ≤ (32 : BitVec 6).toNat ∧ (mk id).me.ctl.rsize = 0) ∧
    (let s := mk fun c => { c with ctl := { c.ctl with rbase := 1505, rsize := 32 } };
      1536 < s.me.ctl.rbase.toNat + s.me.ctl.rsize.toNat) ∧
    (let first := fun (i : Instr) => ((mk id).vectorNames i).find? (fun n => decide (32 ≤ n));
      first (.vadd 1 2 40 .f32 true) = some 40 ∧ first (.vwmul 30 1 2 .n8 .quad) = some 32 ∧ first (.vst 63 0 0) = some 63 ∧
      first (.mfv 1 33 0) = some 33 ∧ first (.xunzip 1 62 .w8) = some 62 ∧ first (.vch 1 2 34 0 false) = some 34 ∧ first (.add 1 2 3) = none) := by
  and_intros
  on_goal 3 => simp [mk, Core.usable]
  all_goals decide +kernel

/-- The last line of the scratchpad, a counted length of some bytes and of none, and a slot of a handle. -/
theorem witness_VectorLocalMovesDeliver :
    (mk id).me.usable [(31 : BitVec 6).toNat] ∧ (mk handled).me.handles[(3 : BitVec 4).toNat] = some hnd ∧ (mk id).me.handles[3] = none ∧
    (let s := mk fun c => { handled c with s := sregs 0xFFE00 (4 * 33 + 3) 2 };
      s.me.localCheck (s.me.rs 1 + 512 * (0 : BitVec 11).signExtend 64).toNat 512 false = none ∧
      s.me.localCheck (s.me.rs 1 + 512 * (0 : BitVec 11).signExtend 64).toNat 512 true = none ∧
      (min ((s.me.rs 2).toNat / 4) (4096 / 4) * 4 + 7) / 8 = 17 ∧ s.me.localCheck (s.me.rs 1).toNat 17 true = none ∧
      (min ((s.me.rs 3).toNat / 4) (4096 / 8) * 8 + 7) / 8 = 0 ∧
      s.me.localCheck (hnd.base + (hnd.prod + 1) % hnd.slotCount * hnd.slotBytes) 512 true = none) := by
  refine ⟨by simp [mk, Core.usable], by decide +kernel, by decide +kernel, by decide +kernel⟩

/-- Names for every rearrangement, and conversions and packs of zeros. -/
theorem witness_TransformsDeliver :
    (mk region32).me.usable [(62 : BitVec 6).toNat, (62 : BitVec 6).toNat + 1, (30 : BitVec 6).toNat, (30 : BitVec 6).toNat + 1] ∧
    fmtElt .e4m3 = some (.flt .e4m3) ∧ fmtElt .i8 = some (.int 8 true) ∧
    (mk id).convTrap (convCounts ((mk id).xcvtConv 2 (.flt .e4m3) (.int 8 true) .rne)) = none ∧
    (mk id).trapXpack 1 2 4 0 true = none ∧
    (mk region32).me.usable ((List.range 4).map ((60 : BitVec 6).toNat + ·) ++ [(1 : BitVec 6).toNat, (2 : BitVec 6).toNat]) := by
  and_intros
  on_goal 1 => simp [mk, region32, Core.usable]
  on_goal 5 => simp [mk, region32, Core.usable, List.range_succ]
  all_goals decide +kernel

/-- A function in the active bank, one that is not there, and a filled slot of h15. -/
theorem witness_TablesAndExpansionDeliver :
    let s := mk fun c => { handled c with xs := { c.xs with active := c.xs.active.set 3 (some { lo := 0, scale := 0, bf16 := true, segs := [] }) } }
    s.me.xs.active[(3 : BitVec 4).toNat] = some { lo := 0, scale := 0, bf16 := true, segs := [] } ∧ s.me.xs.active[(4 : BitVec 4).toNat] = none ∧
    s.me.handles[15] = some hnd ∧ s.trapXexp 5 0 0 = none ∧
    s.me.usable ((1 : BitVec 6).toNat :: (List.range 4).map ((28 : BitVec 6).toNat + ·)) := by
  and_intros
  on_goal 5 => simp [mk, handled, Core.usable, List.range_succ]
  all_goals decide +kernel

/-- The last two rows of a slot of four; h15 without a configuration, empty, and with too few rows. -/
theorem witness_TablesAndExpansionDeliver_rows :
    (let s := mk fun c => { c with handles := Vector.replicate 16 (some { hnd with slotBytes := 2048 }) };
      s.trapXexp 30 2 1 = none ∧ s.me.handles[15] = some { hnd with slotBytes := 2048 } ∧ (2048 / 512 : Nat) < (2 : BitVec 6).toNat + (2 : BitVec 3).toNat + 1) ∧
    (mk id).me.handles[15] = none ∧ ({ hnd with cons := 1 } : Handle).filled = 0 ∧
    (mk id).me.usable ((List.range ((1 : BitVec 3).toNat + 1)).map ((30 : BitVec 6).toNat + ·)) := by
  and_intros
  on_goal 6 => simp [mk, Core.usable, List.range_succ]
  all_goals decide +kernel

/-! ### Witnesses: the M slot -/

/-- A descriptor: space, place, format code, rows, columns, stride. -/
def tdw (space place fmt rows cols stride : Nat) : TdWord :=
  BitVec.ofNat 256 (place + space * 2 ^ 60 + fmt * 2 ^ 64 + rows * 2 ^ 96 + cols * 2 ^ 112 + stride * 2 ^ 128)

/-- The same as a link of factors 2 and 2, with incoming bond 0 and outgoing bond 1. -/
def linkw (space place fmt rows cols stride : Nat) : TdWord :=
  tdw space place fmt rows cols stride ||| BitVec.ofNat 256 (2 ^ 72 + 2 ^ 224 + 2 ^ 230 + 2 ^ 240)

/-- The slots claimed by another core, by this one, and free; the last slot; ranges of none and past the end. -/
theorem witness_SlotsAreClaimedAndReleased :
    (0 < (1 : BitVec 6).toNat ∧ (63 : BitVec 6).toNat + (1 : BitVec 6).toNat ≤ 64 ∧ State.reset.slotOwner 0 63 = none ∧
      (State.reset.cluster 0).omem.wf = true ∧ (State.reset.cluster 0).side.wf = true) ∧
    (let s := { State.reset with
        cores := State.reset.cores.set 1 { mx := { names := BitVec.ofNat 64 (2 ^ 63) } }
        clusters := State.reset.clusters.set 0 { owner := (Vector.replicate 64 none).set 63 (some 1) } };
      s.slotOwner 0 63 ≠ none ∧ ¬(s.slotOwner 0 63 = some s.cur ∧ s.me.claims 63 = true)) ∧
    (0 : BitVec 6).toNat = 0 ∧ 64 < (63 : BitVec 6).toNat + (2 : BitVec 6).toNat := by
  decide +kernel

/-- Operand tiles in slots 0 and 1, an f32 tile in the scratchpad, and the holder's right to the array. -/
def arrayCore (c : Core) : Core :=
  { inRegion c with
    td := ((Vector.replicate 64 0).set 1 (tdw 2 0 1 128 128 256)).set 2 (tdw 2 1 1 128 128 256) |>.set 3 (tdw 0 0 0 128 128 512)
    mx := { c.mx with names := 3, contender := some 1 } }

def anMmar : Cmd := { id := 7, issue := 0, kind := .mma {} {} false false false false true, wins := Vector.replicate 8 {}, fmode := 0
                      phase := .suspended }

theorem witness_ArrayCommandsQueue :
    (let s := tasked (mk arrayCore);
      s.trapMma 1 2 true false [2] = none ∧ s.trapMma 1 2 false false [2, 3, 7] = none ∧ s.trapMacc 3 = none ∧ s.trapMdrain 3 = none ∧
      ((s.regionOf s.cur).map (·.mtickets)).getD 0 ≠ 0 ∧ s.me.mx.contender.isSome = true ∧ s.me.suspendedMmar = none) ∧
    ((mk id).me.mx.contender = none ∧ (((mk id).regionOf (mk id).cur).map (·.mtickets)).getD 0 = 0) ∧
    (mk fun c => { c with q := { c.q with m := [anMmar] } }).me.suspendedMmar = some anMmar := by
  decide +kernel

/-- A rival on core 1 whose pass is ready, with the least P, and none. -/
theorem witness_ArrayCommandsQueue_rivals :
    (let k : Cmd := {
        id := 3, issue := 0, kind := .mma { td := tdw 2 0 1 128 128 256 } { td := tdw 2 1 1 128 128 256 } false false false false false
        wins := Vector.replicate 8 {}, fmode := 0 };
      let s := { tasked (mk inRegion) with
        cores := State.reset.cores.set 1 { arrayCore {} with q := { m := [k] }, mx := { (arrayCore {}).mx with passVal := 9 } } };
      s.rivals 0 = [1] ∧ (s.core 1).mx.passVal = 9) ∧ State.reset.rivals 0 = [] := by
  decide +kernel

/-- The corners of the tile; two finite products, and zero times infinity. -/
theorem witness_PassesAccumulate :
    (0 < 128 ∧ 0 < 128) ∧ (127 < 128 ∧ 127 < 128) ∧
    (∀ p ∈ [((.fin true 3 2, .fin false 1 4) : Sys2Proof.Machine.Num × Sys2Proof.Machine.Num)],
      (∃ neg n d, p.1 = .fin neg n d ∧ 0 < d) ∧ ∃ neg n d, p.2 = .fin neg n d ∧ 0 < d) ∧
    (Sys2Proof.Machine.Num.fin false 0 1).mul (.inf false) = .nan := by
  refine ⟨by decide, by decide, fun p h => ?_, by decide⟩
  rw [List.mem_singleton] at h
  exact ⟨⟨true, 3, 2, by rw [h], by decide⟩, ⟨false, 1, 4, by rw [h], by decide⟩⟩

/-- A pricking of one step in the scratchpad at 0x400, its link in slot 5, its buffers in slots 2 and 3, its input in slot 4; gradient
operands in slot 4. -/
def chainCore (c : Core) : Core :=
  { c with
    s := sregs 0x400 0 0
    loc := { c.loc with lmem := [(0x400, 1), (0x403, 1), (0x404, 2), (0x405, 3), (0x409, 0x80), (0x420, 10), (0x422, 1), (0x423, 2),
      (0x424, 2), (0x425, 4)] }
    td := (Vector.replicate 64 0).set 10 (linkw 2 5 1 4 1 2) |>.set 11 (tdw 2 4 0 1 2 8) |>.set 12 (tdw 0 0 0 1 2 8)
      |>.set 20 (tdw 2 4 1 1 2 4) |>.set 22 (linkw 0 0 0 4 1 4)
    mx := { c.mx with names := 0x3C, contender := some 1 } }

/-- The pricking that stands there. -/
def aPricking : Pricking :=
  { steps := [{ td := 10, bdIn := 0, bdOut := 1, m := 2, n := 2, transpose := false, scale := false, final := true }]
    slotA := 2, slotB := 3, buflen := 32768 }

def opened (n : Nat) (c : Core) : Core :=
  { chainCore c with mx := { (chainCore c).mx with chain := { isOpen := true, pk := aPricking, issued := n } } }

/-- A chain that is closed, one with its step to issue, and one with every step issued. -/
theorem witness_ChainCommandsQueue :
    ((mk chainCore).trapChbeg 1 11 12 = none ∧ (mk chainCore).readPricking ((mk chainCore).me.rs 1).toNat = .ok aPricking ∧
      (mk chainCore).me.mx.chain.isOpen = false) ∧
    ((mk (opened 0)).trapChbeg 1 11 12 = none ∧ (mk (opened 0)).me.mx.chain.keeps aPricking = true) ∧
    (0 < (8 : BitVec 4).toNat ∧ (8 : BitVec 4).toNat ≤ 8 ∧ (mk (opened 0)).trapChain 8 = none) ∧
    ((mk (opened 1)).me.mx.chain.isOpen = true ∧ (mk (opened 1)).me.mx.chain.pk.steps.length ≤ (mk (opened 1)).me.mx.chain.issued) ∧
    (mk (opened 0)).me.mx.chain.issued < (mk (opened 0)).me.mx.chain.pk.steps.length ∧
    (mk chainCore).trapChgrad 20 20 22 = none ∧ 8 < (9 : BitVec 4).toNat ∧ ((mk chainCore).trapChbeg 4 11 12).isSome = true := by
  decide +kernel

/-! ### Witnesses: the C slots -/

/-- Tensors of one row of 32 f32 elements in the scratchpad, in global memory and on SCM, a table of 4 rows, two rows to move, two indices in
the scratchpad; bytes and entries for the decoder, in global memory and in the scratchpad; a dictionary; a bank vector. -/
def copyCore (c : Core) : Core :=
  { handled (windowed c) with
    td := (Vector.replicate 64 0).set 1 (tdw 0 0x2000 0 1 32 128) |>.set 2 (tdw 3 0x1000 0 1 32 128) |>.set 3 (tdw 8 0 0 1 32 128)
      |>.set 4 (tdw 3 0x2000 0 4 32 128) |>.set 5 (tdw 0 0x3000 0 2 32 128) |>.set 6 (tdw 0 0x100 9 1 2 8)
      |>.set 7 (tdw 3 0 7 1 64 64) |>.set 8 (tdw 3 0 10 1 2 8) |>.set 9 (tdw 0 0x100 10 1 2 8) |>.set 10 (tdw 0 0 7 1 4096 4096) }

/-- A register write of 0x200: one engine, number 0. -/
def oneEngine : Word := 0x200

theorem witness_MemoryCommandsQueue :
    (let s := mk copyCore;
      s.trapCopy 1 2 copyDests copySources = none ∧ s.tdCheck 2 copySources = none ∧ s.trapCopyh 3 2 = none ∧ s.me.handles[3] = some hnd ∧
      s.trapRows 5 4 6 4 5 copyDests tableSpaces = none ∧ s.indicesAtIssue 6 = .ok [0, 0] ∧
      s.trapRows 4 5 6 4 5 tableSpaces copySources = none ∧ s.trapDecomp 7 8 = none ∧ s.trapDecomp 7 9 = none ∧
      s.indicesAtIssue 9 = .ok [0, 0] ∧ s.me.handles[15] = some hnd ∧ tdSpace s.me.td[8] ≠ 0 ∧ tdSpace s.me.td[8] ≠ 4 ∧
      tdSpace s.me.td[9] = 0 ∧ s.trapDdict 10 = none) ∧
    (let s := mk fun c => priv (copyCore c);
      s.me.sys.mode = true ∧ s.trapCopy 3 2 [8] copySources = none ∧ s.trapScm 3 2 = none ∧
      s.trapCopy 1 3 copyDests [8] = none ∧ s.trapScm 1 3 = none) ∧
    (let s := mk fun c => { copyCore c with td := (copyCore c).td.set 6 (tdw 0 0xFFFF8 9 1 4 16) |>.set 9 (tdw 0 0xFFFF8 10 1 4 16) };
      s.indicesAtIssue 6 = .error (clsLocal, 0xFFFF8) ∧ s.indicesAtIssue 9 = .error (clsLocal, 0xFFFF8)) ∧
    ((9 : BitVec 4).toNat ≤ 9 ∧ ¬((9 : BitVec 4).toNat = 9 ∧ Width.w4 = .w8)) ∧ 9 < (10 : BitVec 4).toNat := by
  decide +kernel

/-- A core with 64 KiB of stash, a stash map record of 4 KiB at 0x300, one of length 0 at 0x340, and entry 1 in use. -/
def stashCore (c : Core) : Core :=
  { windowed c with
    s := sregs 0x300 0x340 8
    loc := { c.loc with
      stashSteps := 1, lmem := [(0x302, 0x0F), (0x305, 0x10), (0x310, 1)]
      map := c.loc.map.set 1 (some { lbase := 0xF8000, va := 0x8000, ia := 0x8000, len := 0x1000, write := true }) } }

/-- Lines of PREF that can be brought in and one that cannot; good and bad engine sets; stash records that make and end an entry. -/
theorem witness_BatchStashAndBankCommandsAct :
    (let s := mapped (mk copyCore);
      s.tdCheck 2 [3, 7] = none ∧
      ∀ x ∈ s.pieces s.cur s.me.sys.wins { r := true } (s.me.opnd 2), s.prefPiece (.core s.cur) x.1 = none) ∧
    (let s := mk copyCore;
      (s.pieces s.cur s.me.sys.wins { r := true } (s.me.opnd 2)).findSome? (fun x => s.prefPiece (.core s.cur) x.1)
        = some (clsNotResident, 0x1000)) ∧
    (let s := mk fun c => { copyCore c with s := sregs 0x40 (511 + 512) 512 };
      engineSet (s.me.rs 2) = some (511, 1) ∧ (s.me.rs 1).toNat % 4 = 0 ∧ s.trapBkvec 7 2 = none ∧ engineSet (s.me.rs 1) = none) ∧
    (let s := mk stashCore;
      s.meetsStmap 0 1 = none ∧ s.me.loc.map[(0 : BitVec 3).toNat] = none ∧ (s.stmapRecord 1).len ≠ 0 ∧
      s.me.stashWindow (s.stmapRecord 1) = .ok (0, true) ∧ (s.meetsStmap 0 3).isSome = true ∧
      s.meetsStmap 1 2 = none ∧ s.meetsStmap 0 2 = none ∧ (s.stmapRecord 2).len = 0 ∧ (s.me.loc.map[(1 : BitVec 3).toNat]).isSome = true ∧
      s.me.maskedEntries 1 = [] ∧ (s.me.maskedEntries 2).length = 1) := by
  decide +kernel

/-! ### Witnesses: the bank engines -/

/-- Engine 0 runs job 0, whose input is 256 bytes at 0 and whose output 256 bytes there. -/
def aJob : BankJob :=
  { id := 0, core := some 0, task := 0x1000, region := 1, prog := 0, first := 0, count := 1, args := 0x40
    wins := (mk windowed).me.sys.wins, started := true, ilen := 256, olen := 256 }

def engine (x : Engine) : State := { mapped (mk windowed) with engines := State.reset.engines.set 0 { x with job := some 0 }, jobs := [aJob] }

/-- Segments at the end of the input and one beat beyond it, loops of zero, one and two, the nested loops' last turn. -/
theorem witness_EngineCommandsAct :
    (let s := engine { g := (Vector.replicate 16 0).set 1 128 };
      let limit := (s.engJob.map (·.ilen)).getD 0;
      (s.eng.g[1]).toNat % 128 = 0 ∧ (s.eng.g[1]).toNat + (s.eng.g[1]).toNat ≤ limit ∧ s.eng.g[1] ≠ 0 ∧ s.eng.g[2] = 0) ∧
    (let s := engine { g := (Vector.replicate 16 0).set 1 256 |>.set 2 128 |>.set 3 1 };
      let limit := (s.engJob.map (·.ilen)).getD 0;
      limit < (s.eng.g[1]).toNat + (s.eng.g[2]).toNat ∧ (s.eng.g[3]).toNat % 128 ≠ 0) ∧
    ((engine { loops := [(1, 2)] }).eng.loops = (1, 2) :: [] ∧ 1 < 2) ∧ ((engine { loops := [(1, 1)] }).eng.loops = (1, 1) :: [] ∧ 1 ≤ 1) := by
  decide +kernel

/-- A segment of two beats. -/
def streaming : Engine := { sg := Vector.replicate 4 { base := 0, len := 256, pos := 0 } }

/-- The output's last line and one beyond it, a beat beyond its segment, vector indices at and past the end, and a signal. -/
theorem witness_EngineStreamsAndOutputs :
    (let s := engine { sg := Vector.replicate 4 { base := 0, len := 256, pos := 256 }, g := (Vector.replicate 16 0).set 1 16256 |>.set 2 16384 };
      s.beats 0 0 0 .bf16 1 s.eng = .error 3 ∧ (s.eng.g[1]).toNat % 128 = 0 ∧ (s.eng.g[1]).toNat + 128 ≤ 16384 ∧
      (s.eng.sg[0]).len < (s.eng.sg[0]).pos + 128 ∧ 16384 < (s.eng.g[2]).toNat + 128) ∧
    (let s := engine { g := (Vector.replicate 16 0).set 1 252 };
      s.engJob = some aJob ∧ (s.eng.g[1]).toNat % 4 = 0 ∧ (s.eng.g[1]).toNat + 4 ≤ aJob.olen ∧ aJob.olen < (s.eng.g[1]).toNat + 8 ∧
      s.outHeld aJob = false ∧ s.outputs s.curEng = false ∧ translate aJob.wins { w := true } (aJob.args.toNat + 0x34) = .ok 0x74) ∧
    (let s := { engine {} with accesses := [{ owner := .engine 0 7, target := .global 0, op := .write [1] }] };
      s.engJob = some aJob ∧ s.outputs s.curEng = true) := by
  decide +kernel

/-- The last column of the vector buffer, one past it, and a scale segment with no beat left. -/
theorem witness_EngineStreamsAndOutputs_beats :
    (let x := ({ sg := Vector.replicate 4 { base := 0, len := 256, pos := 0 } |>.set 1 { base := 0, len := 8, pos := 1 }, g := #v[8188, 8189, 0, 0, 0, 0, 0, 0, 0, 0, 0, 0, 0, 0, 0, 0] } : Engine);
      (x.sg[0]).pos + 128 ≤ (x.sg[0]).len ∧ (x.g[0]).toNat + 4 ≤ 8192 ∧ 8192 < (x.g[1]).toNat + 4 ∧ (x.sg[1]).len < (x.sg[1]).pos + 8 ∧
      (x.sg[2]).pos + 8 ≤ (x.sg[2]).len) ∧ (streaming.sg[0]).pos + 8 ≤ (streaming.sg[0]).len := by
  decide +kernel

/-- A scratchpad output whose core's die is shed, input that is not resident, and an argument block in no window. -/
theorem witness_EngineStreamsAndOutputs_stops :
    (let j := { aJob with ospace := true }
      let s := { engine {} with cores := State.reset.cores.set 0 { shed := true }, jobs := [j] };
      s.engJob = some j ∧ s.outHeld j = true) ∧
    (engine {}).engInput 0 128 = .error 6 ∧ translate aJob.wins { w := true } 0x400034 = .error clsWindow := by
  decide +kernel

/-- Engine 0 over a BANK page of its own pseudo-channel, whose frame 0 the page table itself starts. -/
def banked : State := { engine streaming with hbm := [(0, 0x15)] }

/-- A BANK page of a pseudo-channel below 2 that the module has is a page. -/
theorem bank_page (ch : Nat) (hch : ch < 2) (h : Config.excluded (Fin.ofNat 512 ch) = false) :
    ∃ p, pageOfEntry (0x15 + ch * 2 ^ 32) true = some p ∧ p.bank = true ∧ p.channel = ch ∧ p.scope = 1 ∧ p.part = 0 ∧
      p.key = bankKey ch 0 ∧ p.size = 2 ^ 21 := by
  refine ⟨{ key := bankKey ch 0, size := 2 ^ 21, scope := 1, bank := true, channel := ch, migratable := false, transit := false, part := 0
            die := 0, owner := 0, raw := 0x15 + ch * 2 ^ 32 }, ?_, rfl, rfl, rfl, rfl, rfl, rfl⟩
  obtain rfl | rfl : ch = 0 ∨ ch = 1 := by omega
  all_goals
    have h' : Config.excluded _ = false := h
    simp only [pageOfEntry, bitsOf, bankKey]
    simp at h' ⊢
    exact h'

/-- With that pseudo-channel in service, a beat and a line of BLDV have their input. -/
theorem witness_beats : Config.excluded 0 = false →
    (∃ bs, banked.engInput 0 128 = .ok bs ∧ bs.length = 128) ∧ (∃ y, banked.beats 0 0 0 .bf16 1 banked.eng = .ok y) ∧ ∃ sc, banked.engInput 0 8 = .ok sc := by
  have he : banked.eng.sg[0] = { base := 0, len := 256, pos := 0 } := by decide +kernel
  intro h
  obtain ⟨p, hp, hb, hc, hs, hq, -, -⟩ := bank_page 0 (by decide) h
  have hw : banked.walk 0 = some (0, 0x15, true) := by decide +kernel
  have hpage : banked.page 0 = some p := by
    have ht : banked.trans.tlb = [] := by decide +kernel
    have hm : banked.trans.migState = .idle := by decide +kernel
    have hp' : pageOfEntry 0x15 true = some p := hp
    simp [State.page, ht, hm, State.freshPage, hw, hp']
  have hj : banked.engJob = some aJob := by decide +kernel
  have hcur : banked.curEng = 0 := rfl
  have hwho : aJob.who = .engine 0 1 0x1000 := rfl
  have htr : translate aJob.wins { r := true } 0 = .ok 0 := by decide +kernel
  have hmod : banked.onModule 0 = true := by decide +kernel
  have hiva : aJob.iva = 0 := rfl
  have hcut : cutAt 128 0 128 = [(0, 128)] := by decide
  have hcut8 : cutAt 128 0 8 = [(0, 8)] := by decide
  have hin : ∃ bs, banked.engInput 0 128 = .ok bs ∧ bs.length = 128 := by
    simp [State.engInput, hj, hiva, hcut, htr, hmod, iaLocal, hpage, State.checkPage, hwho, hb, hc, hs, hq, hcur, Mem.bytes]
  have hin8 : ∃ sc, banked.engInput 0 8 = .ok sc := by
    simp [State.engInput, hj, hiva, hcut8, htr, hmod, iaLocal, hpage, State.checkPage, hwho, hb, hc, hs, hq, hcur]
  have hr : (banked.eng.reg 0#4).toNat = 0 := by decide +kernel
  refine ⟨hin, ?_, hin8⟩
  obtain ⟨bs, hbs, -⟩ := hin
  simp [State.beats, State.beat, State.beatScales, he, hr, hbs, beatCols]

/-! ### Witnesses: the events of a core and of its queues -/

/-- A bundle that guards its only instruction, ADDI s1, s0, 7 in slot 1, with p1. -/
def guarded : BitVec 256 := BitVec.ofNat 256 (0x15820007 * 2 ^ 32)

def withAsync (cause : Nat) (c : Core) : Core := { c with sys := { c.sys with asyncs := [{ cause := cause, tinfo0 := 0, tinfo1 := 0, since := 0 }] } }

def waitingOn (w : Wait) (c : Core) : Core := { inRegion c with status := .waiting w }

/-- A task of one core that is Ready, and one that waits to spawn the descriptor at 0. -/
def readyTask : Task := { aTask with va := 0x2000, state := .ready, affinity := 0, cores := [] }
def spawner : Task := { aTask with state := .spawnWait 0 }

/-- The state in which core 0 is about to fetch a bundle, and the state once it has. -/
def beforeFetch (b : BitVec 256) : State := { State.reset.withFetchWord 256 b.toNat with agenda := [] }

def afterFetch (b : BitVec 256) : State := ((beforeFetch b).fetchBundle.toOption.map (·.1)).getD State.reset

/-- A bundle of ADDI s1, s0, 7 alone, and one of VMOV v1, v2 in slot va. -/
def addBundle : BitVec 256 := BitVec.ofNat 256 (0x05820007 * 2 ^ 32)

def vecBundle : BitVec 256 := BitVec.ofNat 256 (0x09C10200 * 2 ^ 64)

/-- Nothing keeps core 0 from issuing that bundle. -/
def due (b : BitVec 256) : Bool :=
  let s := beforeFetch b
  s.me.status == .running && !s.me.shed && s.boundary.isNone && !s.me.exhausted && s.fetchBundle.isOk

/-- A bundle that may be skipped, one that may not, one that needs a vector cycle that does not begin here, a core that a trap and one that its
die's halt keeps from issuing. -/
theorem witness_NullifierSkips :
    due guarded = true ∧ due addBundle = true ∧ due vecBundle = true ∧
    (afterFetch guarded).skippable guarded = true ∧ vectorBundle guarded = false ∧ (afterFetch addBundle).skippable addBundle = false ∧
    vectorBundle vecBundle = true ∧ (beforeFetch vecBundle).me.vecAligned = true ∧
    ({ (beforeFetch vecBundle).me with codes := #v[0, 2, 0, 0], cyc := 1 } : Core).vecAligned = false ∧
    (mk fun c => withAsync 0x14 { c with status := .running }).boundary.isSome = true ∧ (mk fun c => { c with shed := true }).me.shed = true ∧
    State.reset.me.takesUp = none ∧ ({ (beforeFetch guarded).me with kept := some (beforeFetch guarded).me.pc } : Core).kept = some (beforeFetch guarded).me.pc := by
  decide +kernel

/-- An asynchronous trap, with no task, with one, and with one that is to be pre-empted; a PFW that comes before another trap and into a system
handler; a boundary that is past. -/
theorem witness_TrapsAreDelivered :
    let a : AsyncTrap := { cause := 0x08, tinfo0 := 0, tinfo1 := 0, since := 0 }
    let pfw : AsyncTrap := { cause := 0x14, tinfo0 := 0, tinfo1 := 0, since := 5 }
    let x := fun (c : Core) => ({ inRegion c with sys := { c.sys with asyncs := [a, pfw] } } : Core)
    (let s := mk fun c => withAsync 0x08 { c with status := .running };
      s.me.atBoundary = true ∧ s.me.shed = false ∧ s.me.skipRun = 0 ∧ s.me.sys.nextAsync = some a ∧ s.preemptDue.isNone = true) ∧
    (let s := tasked (mk x);
      s.me.atBoundary = true ∧ s.me.skipRun = 0 ∧ s.me.sys.nextAsync = some pfw ∧ s.taskOf s.cur = some aTask ∧ a ∈ s.me.sys.asyncs) ∧
    (let s := tasked (mk fun c => { x c with sys := { (x c).sys with sh := true, held := 512 } });
      s.me.sys.nextAsync = some pfw ∧ s.me.sys.sh = true ∧ s.taskOf s.cur = some aTask) ∧
    (let s := { tasked (mk fun c => withAsync 0x08 (inRegion c)) with tasks := [{ aTask with preempt := some 1 }] };
      s.me.sys.nextAsync = some a ∧ s.preemptDue.isSome = true) ∧
    (let s := mk fun c => { x c with sys := { (x c).sys with sh := true } }; s.me.sys.nextAsync = none ∧ a ∈ s.me.sys.asyncs) ∧
    (mk fun c => { c with skipRun := 1 }).me.skipRun ≠ 0 := by
  decide +kernel

theorem witness_HandlerBudgetEnds :
    (let s := mk fun c => { c with status := .running, sys := { c.sys with inPfw := true, pfbud := 0 } };
      s.me.atBoundary = true ∧ s.me.sys.inPfw = true ∧ s.me.sys.pfbud = 0) ∧
    (let s := mk fun c => { c with status := .waiting .drain, sys := { c.sys with inPfw := true, pfbud := 0 } };
      s.me.atBoundary = true ∧ s.me.sys.inPfw = true ∧ s.me.sys.pfbud = 0) ∧ State.reset.me.sys.pfbud ≠ 0 := by
  decide +kernel

/-- A core of its own hoop that has arrived in time, one whose sc is not over yet and one whose DRAIN is over, with and without a trap that
comes first; a wait that looks at a word of a module that is not there. -/
theorem witness_WaitsEnd :
    let met := fun (c : Core) => { waitingOn (.hoop 1) c with tick := 10000, hbarCount := 1, arrivals := [(0, 840)] }
    let w : Wait := .word (2 ^ 48) 0 .eq .w8 none 0
    (let s := mk met;
      s.me.status = .waiting (.hoop 1) ∧ s.me.sys.nextAsync = none ∧ s.me.shed = false ∧ s.hoopArrived s.cur 1 = true ∧
      (s.look s.cur (.hoop 1)).2 = .ok (true, .hoop 1)) ∧
    (let s := mk fun c => { met c with arrivals := [(10000, 10840)] };
      s.me.status = .waiting (.hoop 1) ∧ (s.look s.cur (.hoop 1)).2 = .ok (false, .hoop 1)) ∧
    (let s := mk fun c => waitingOn .drain c; s.me.status = .waiting .drain ∧ s.me.sys.nextAsync = none ∧ s.me.drained = true) ∧
    (mk fun c => withAsync 0x14 (met c)).me.sys.nextAsync ≠ none ∧
    (let s := mk fun c => waitingOn w c; s.me.status = .waiting w ∧ (s.look s.cur w).2 = .error (.violation clsNoModule (2 ^ 48))) ∧
    State.reset.me.status = .idle := by
  decide +kernel

/-- A SPAWNW in its wait that is late and one that is not, a wait past its threshold that may yield, a Ready task that the hoop could hold, and
none. -/
theorem witness_HoopsAreGivenUp :
    (let s := tasked (mk fun c => { waitingOn (.spawn 0) c with tick := 4096 * 420 });
      s.taskOf s.cur = some aTask ∧ s.hib.state = .run ∧ s.me.shed = false ∧ s.me.status = .waiting (.spawn 0) ∧
      4096 ≤ (s.me.tick - s.me.waitSince) / s.me.scTicks ∧ s.converting aTask = some (0, 0)) ∧
    (let s := tasked (mk fun c => waitingOn (.spawn 0) c);
      s.me.status = .waiting (.spawn 0) ∧ ¬4096 ≤ (s.me.tick - s.me.waitSince) / s.me.scTicks ∧ s.converting aTask = none) ∧
    (let s := { tasked (mk fun c => waitingOn .drain c) with now := 200 * usTicks };
      s.taskOf s.cur = some aTask ∧ s.region aTask.region = some aRegion ∧ s.me.status = .waiting .drain ∧ s.me.shed = false ∧
      aRegion.wy = false ∧ aTask.waitYield = false ∧ s.me.waitSince + 100 * usTicks < s.now) ∧
    (let x := { aTask with waitYield := true }; let s := { tasked (mk fun c => waitingOn .drain c) with tasks := [x], now := 200 * usTicks };
      s.taskOf s.cur = some x ∧ x.waitYield = true) ∧
    (let s := { mapped (tasked (mk inRegion)) with tasks := [aTask, readyTask] };
      s.taskOf s.cur = some aTask ∧ readyTask ∈ s.tasks ∧ readyTask.kind = 0 ∧ readyTask.queued = true ∧ s.level aTask ≤ s.level readyTask ∧
      (s.region readyTask.region).isSome ∧ (s.findHoop readyTask aTask.cores.contains aTask.cores).isSome ∧ aTask.preempt = none) ∧
    ({ aTask with preempt := some 1 } : Task).preempt.isSome = true ∧ (∀ r ∈ (tasked (mk inRegion)).tasks, r.queued = false) := by
  decide +kernel

/-- A pre-emption that can be made at once and one that has to wait for a transient result, and a task that leaves. -/
theorem witness_HoopsAreGivenUp_requests :
    (let s := tasked (mk inRegion);
      ¬(aTask.kind ≠ 0 ∨ aTask.state ≠ .running ∨ aTask.preempt.isSome = true ∨ s.leaving aTask = true ∨ s.halted aTask = true) ∧
      s.mayPreempt aTask preemptForced = true) ∧
    (let s := tasked (mk fun c => { inRegion c with pend := [{ readyAt := 5, slot := 2, ord := 0, res := .vec 0 0 true }] });
      ¬(aTask.kind ≠ 0 ∨ aTask.state ≠ .running ∨ aTask.preempt.isSome = true ∨ s.leaving aTask = true ∨ s.halted aTask = true) ∧
      s.mayPreempt aTask preemptForced = false) ∧ (tasked (mk fun c => { inRegion c with status := .exiting })).leaving aTask = true := by
  decide +kernel

/-- What the retry of the spawn of the descriptor at 0x80 by a waiting task answers. -/
def retried (s : State) (child : Word) : Submission :=
  let u := (s.winset 1).1
  (u.submit child (u.forTask spawner) ((s.winset 1).2) 1 (some spawner.va)).2

/-- A region whose window set at 0x100 maps the first 2 MiB, with the descriptor at 0x80. The page migrates and every L2 way is gated, so
that neither what is cached nor where a line goes is open. -/
def waiter (l : List Task) : State :=
  { withDescriptor State.reset with
    hbm := [(0, 0x65), (4, 1), (0x200089, 1), (0x20008A, 1), (0x20008C, 1), (0x20010A, 0x20), (0x200118, 15)]
    regions := [{ aRegion with winset := 0x100 }]
    tasks := l
    trans := { ptCtl := true, migState := .forward, migTo := 0x100000025, migBig := true }
    power := { l2gated := Vector.replicate 4 0xFFFF } }

theorem witness_SpawnWaitersAreRetried :
    (let s := waiter [spawner];
      s.hib.state = .run ∧ s.spawnWaiters = [(spawner, 0)] ∧ (s.task spawner.va).isSome = true ∧ (s.task 0).isNone = true) ∧
    (let s := { State.reset with tasks := [spawner, { spawner with va := 0x3000, readySeq := 7 }, { spawner with va := 0x4000, readySeq := 9, retryFirst := true }] };
      s.spawnWaiters.map (·.1.va) = [0x4000, 0x1000, 0x3000]) ∧
    retried State.reset 1 = .failed 9 ∧ retried State.reset 0x80 = .violation clsWindow 0x80 := by
  decide +kernel

theorem witness_SpawnWaitersAreRetried_accepted : retried (waiter [spawner]) 0x80 = .accepted := by
  decide +kernel

theorem witness_SpawnWaitersAreRetried_lacking :
    retried (waiter [spawner, { aTask with va := 0x80 }]) 0x80 = .lacking := by
  decide +kernel

/-- XINV on this module, on a trained peer and on a module that is not there. -/
theorem witness_NonInstructionsTrap :
    let far := fun (trained : BitVec 256) => { mk (fun c => priv { c with s := sregs (2 ^ 48) 0 0 }) with trained := trained }
    (let s := mk priv; s.me.sys.mode = true ∧ s.onModule ((s.me.rs 1).toNat % 2 ^ 56) = true) ∧
    ((far 2).me.sys.mode = true ∧ (far 2).onModule (((far 2).me.rs 1).toNat % 2 ^ 56) = false ∧
      (far 2).isTrained (iaModule (((far 2).me.rs 1).toNat % 2 ^ 56)) = true) ∧
    (far 0).isTrained (iaModule (((far 0).me.rs 1).toNat % 2 ^ 56)) = false := by
  decide +kernel

/-- A command. -/
def cmd (id : Nat) (k : CmdKind) (ph : Phase) : Cmd :=
  { id := id, issue := 0, kind := k, wins := Vector.replicate 8 {}, fmode := 0, phase := ph }

/-- Commands to start in each queue, commands that have and have not performed, fences met and not, and the batch of a CBATCH. -/
theorem witness_QueueEventsAct :
    (let s := mk fun c => { c with q := { c.q with
        ca := [cmd 0 (.copy {} {} false false) .queued], m := [cmd 1 .mzero .queued], dec := [cmd 2 (.ddict {}) .queued] } };
      s.asleep s.cur = false ∧ s.me.nextCmd .ca = some (cmd 0 (.copy {} {} false false) .queued) ∧
      s.me.nextCmd .m = some (cmd 1 .mzero .queued) ∧ s.me.slotsFilled (cmd 1 .mzero .queued) = true ∧
      s.me.nextCmd .dec = some (cmd 2 (.ddict {}) .queued) ∧ s.me.nextCmd .cb = none ∧
      (s.me.q.get .ca)[0]? = some (cmd 0 (.copy {} {} false false) .queued) ∧ Phase.queued ≠ .performed) ∧
    (let s := mk fun c => { c with q := { c.q with bank := [cmd 0 (.qfence 3) .queued] } };
      s.me.nextCmd .bank = some (cmd 0 (.qfence 3) .queued) ∧ s.me.fenceMet 3 = true) ∧
    (let s := mk fun c => { c with q := { c.q with bank := [cmd 5 (.bkcmd 0 0 1 0) .queued] } };
      s.me.nextCmd .bank = some (cmd 5 (.bkcmd 0 0 1 0) .queued)) ∧
    (let s := mk fun c => { c with q := { c.q with m := [cmd 1 .mzero .performed] } };
      (s.me.q.get .m)[0]? = some (cmd 1 .mzero .performed) ∧ s.me.reservedBefore (cmd 1 .mzero .performed) = false ∧
      (s.me.q.get .m)[1]? = none) ∧
    (let s := mk fun c => { c with q := { c.q with
        ca := [cmd 0 (.cbatch 0 none 5 false) .performed], batches := [{ cb := false, num := 0, closed := true }], nextBatchA := 1 } };
      s.me.q.get .ca = cmd 0 (.cbatch 0 none 5 false) .performed :: [] ∧
      (s.me.dropCmd 0).q.batch false 0 = some { cb := false, num := 0, closed := true } ∧ (s.me.dropCmd 0).q.batch false 1 = none) ∧
    State.reset.me.q.get .ca = [] ∧ (mk fun c => { c with shed := true }).asleep 0 = true := by
  decide +kernel

/-- An access of no queue and one of a cluster's, the module as it answers peers and as it does not, a line of an ordinary page, and a granule
of a peer. -/
theorem witness_HomesPerform :
    (let a : Access := { owner := .none, target := .global 0, op := .read 8 0 }; let s := { State.reset with accesses := [a] };
      s.accesses[0]? = some a ∧ ownerCluster a.owner = none ∧ s.hib.state = .run ∧ s.supStopped = false) ∧
    (ownerCluster (.cmd 5 .m 0)).isSome = true ∧ { State.reset with hib := { state := .drain } }.supStopped = true ∧
    (let s := mapped (mk windowed);
      s.onModule 0x40 = true ∧ s.isHeld (iaLocal 0x40) = false ∧ (s.checkPage .module (s.page (iaLocal 0x40))).isOk = true ∧
      0x40 % 128 + 64 ≤ 128 ∧ s.isHeld (iaLocal 0x208000) = false ∧
      (match s.checkPage .module (s.page (iaLocal 0x208000)) with | .error cls => cls | .ok _ => 0) = clsNotResident) ∧
    State.reset.onModule (2 ^ 48) = false ∧ State.reset.answersPeers = true ∧ { State.reset with hib := { state := .rejoin } }.answersPeers = false := by
  decide +kernel

/-- Core 0 at a fill of an entry whose home is so. -/
def filling (ia : Nat) (c : Core) : Core :=
  let e : StashEntry := { lbase := 0xF8000, va := 0x8000, ia := ia, len := 0x1000, write := true }
  { stashCore c with status := .filling 0xF8000, loc := { (stashCore c).loc with map := c.loc.map.set 1 (some e) } }

/-- Fills of a resident page, of none, of one that migrates, of a trained peer and of a module that is not there, and one behind a load. -/
theorem witness_StashFills :
    (∀ ia ∈ [0x8000, 0x208000, 2 ^ 48], let s := mapped (mk (filling ia));
      s.me.status = .filling 0xF8000 ∧ s.me.loc.loads = [] ∧ s.me.loc.stores = [] ∧ (s.me.stashEntry 0xF8000).map (·.ia) = some ia) ∧
    (let s := mapped (mk (filling 0x8000));
      s.onModule 0x8000 = true ∧ s.isHeld 0x8000 = false ∧ ((s.checkPage (.core s.cur) (s.page 0x8000)).toOption.map (·.bank)) = some false ∧
      (match s.checkPage (.core s.cur) (s.page 0x208000) with | .error cls => cls | .ok _ => 0) = clsNotResident) ∧
    (let s := { mapped (mk (filling 0x8000)) with hbm := [(0, 0x65), (4, 1)], trans := { ptCtl := true, migState := .hold } };
      s.onModule 0x8000 = true ∧ s.isHeld 0x8000 = true) ∧
    (let s := { mapped (mk (filling (2 ^ 48))) with trained := 2 }; s.onModule (2 ^ 48) = false ∧ s.isTrained (iaModule (2 ^ 48)) = true) ∧
    State.reset.isTrained (iaModule (2 ^ 48)) = false ∧
    (mk fun c => { filling 0x8000 c with loc := { (filling 0x8000 c).loc with
      loads := [{ due := 0, readyAt := 1, slot := 1, ord := 0, addr := 0, len := 8, dest := .s 1 false }] } }).me.loc.loads ≠ [] ∧
    (let s := { mapped (mk (filling 0x8000)) with hbm := [(0, 0x15)] };
      Config.excluded 0 = false → (s.checkPage (.core s.cur) (pageOfEntry 0x15 true)).isOk = true → s.onModule 0x8000 = true) := by
  and_intros
  on_goal 12 => exact fun _ _ => rfl
  all_goals decide +kernel

/-- A paused decoder with a free slot, one with none, one with another FIFO than at its issue, and none paused. -/
theorem witness_DecodersResume :
    (let x := cmd 2 (.decomp 0 0 (some [1, 2]) 1 hnd) .suspended;
      let s := mk fun c => { handled c with q := { c.q with dec := [x] } };
      s.asleep s.cur = false ∧ (s.me.q.dec.find? fun k => k.phase == .suspended) = some x ∧ s.me.handles[15] = some hnd ∧
      s.me.fifo x = some hnd ∧ hnd.free ≠ 0 ∧ ({ hnd with prod := 4 } : Handle).free = 0) ∧
    (hnd.base ≠ 0 ∧ (mk handled).me.fifo (cmd 2 (.decomp 0 0 (some [1, 2]) 1 { hnd with base := 0 }) .suspended) = some { hnd with base := 0 }) ∧
    (∀ k ∈ State.reset.me.q.dec, k.phase ≠ .suspended) := by
  decide +kernel

/-! ### Witnesses: the array and the bank sequencer -/

def anMma (remote : Bool) (ph : Phase) : Cmd := cmd 3 (.mma { td := tdw 2 0 1 128 128 256 } { td := tdw 2 1 1 128 128 256 } false false false false remote) ph

def onArray (ph : Phase) (c : Core) : Core := { arrayCore c with q := { c.q with m := [anMma false ph] } }

/-- A program of BHALT alone on a BANK page of pseudo-channel 1, and an argument block of zeros on an ordinary page. -/
def withProgram (s : State) : State := { mapped s with hbm := [(0, 0x25), (4, 1), (8, 0x15), (12, 1), (bankKey 1 0 + 3, 0x68)] }

def toStart : BankJob :=
  { aJob with started := false, prog := 0x200000, wins := (Vector.replicate 8 {}).set 0 { va := 0, len := 2 ^ 22, ia := 0, ctl := 15 } }

def starting : State := { withProgram (mk windowed) with jobs := [toStart] }

/-- With that pseudo-channel in service, the program is read. -/
theorem fetchProgram_starting (h : Config.excluded 1 = false) (args : Word) :
    starting.fetchProgram { toStart with args := args } 1024 0 = .ok [0x68000000] := by
  obtain ⟨p, hp, hb, hc, hs, hq, hk, hz⟩ := bank_page 1 (by decide) h
  have hw : starting.walk 0x200000 = some (8, 0x100000015, true) := by decide +kernel
  have ht : starting.trans.tlb = [] := by decide +kernel
  have hm : starting.trans.migState = .idle := by decide +kernel
  have hp' : pageOfEntry 0x100000015 true = some p := hp
  have hpage : starting.page 0x200000 = some p := by simp [State.page, ht, hm, State.freshPage, hw, hp']
  have htr : translate ({ toStart with args := args } : BankJob).wins { r := true } 0x200000 = .ok 0x200000 := by
    have : translate toStart.wins { r := true } 0x200000 = .ok 0x200000 := by decide +kernel
    exact this
  have hmod : starting.onModule 0x200000 = true := by decide +kernel
  have hwho : ({ toStart with args := args } : BankJob).who = .engine 0 1 0x1000 := rfl
  have hbytes : starting.hbm.nat (bankKey 1 0 + 0x200000 % 2 ^ 21) 4 = 0x68000000 := by decide +kernel
  have hword : starting.fetchWord { toStart with args := args } 0x200000 = .ok 0x68000000 := by
    simp only [State.fetchWord, htr, hmod, iaLocal, hwho, State.checkPage]
    simp [hpage, hb, hs, hq, hk, hz]
    simpa using congrArg (BitVec.ofNat 32) hbytes
  have e : ({ toStart with args := args } : BankJob).prog.toNat + 4 * 0 = 0x200000 := rfl
  rw [State.fetchProgram, e, hword]
  rfl

/-- The job then passes its checks, and with an argument address off the grid it does not. -/
theorem witness_checkJob : Config.excluded 1 = false →
    (starting.checkJob toStart).2.isOk = true ∧ (starting.checkJob { toStart with args := 1 }).2 = .error none := by
  intro h
  constructor
  · rw [State.checkJob, fetchProgram_starting h toStart.args]; decide +kernel
  · rw [State.checkJob, fetchProgram_starting h 1]; decide +kernel

/-- The checked job waits for no other. -/
theorem witness_checkJob_free : starting.jobHeld { toStart with started := true, words := [0x68000000] } = false := by decide +kernel

def ended : BankJob := { aJob with ended := [(0, 0)] }

/-- A contender to grant, a free array without one, a pass of a holder, one that has not begun, and an MMAR that waits for its operand. -/
theorem witness_ArrayEventsAct :
    (let s := mk (onArray .queued);
      (s.cluster 0).grant = none ∧ s.nextHolder 0 = some 0) ∧ State.reset.nextHolder 0 = none ∧
    (let s := { mk (onArray .reading) with clusters := State.reset.clusters.set 0 { grant := some { holder := 0, cmdsLeft := 1, cycles := 0 } } };
      (s.cluster 0).grant = some { holder := 0, cmdsLeft := 1, cycles := 0 } ∧ (s.core 0).mHead = some (anMma false .reading) ∧
      (anMma false .reading).phase = .reading ∧ s.readyPass 0 = true) ∧
    ((mk (onArray .queued)).core 0).mHead = some (anMma false .queued) ∧ (anMma false .queued).phase ≠ .reading ∧
    (let s := { mk (fun c => { onArray .queued c with q := { c.q with m := [anMma true .reading] } }) with
        accesses := [{ owner := .cmd 0 .m 3, target := .global (2 ^ 48), op := .read 128 0 }] };
      s.mmarPending s.cur = some (anMma true .reading, 0) ∧ (s.accesses[0]?).isSome = true) ∧ State.reset.mmarPending 0 = none := by
  decide +kernel

/-- A job with a completion word so. -/
def recording (cva : Nat) : BankJob := { ended with cva := cva }

/-- A command to accept, with and without a tensor, and behind a fence; a job to start, one behind another, and one that has a tensor, read and
not readable. -/
theorem witness_BankEventsAct_starts :
    (let k := cmd 4 (.bkcmd 0 0 1 0x40) .queued;
      let s := mk fun c => { c with q := { c.q with bank := [k] } };
      (s.me.q.bank.find? fun k => k.phase == .queued) = some k ∧ ((s.jobOf s.cur k).map (·.vec)) = some none ∧ s.asleep s.cur = false ∧
      (earlier s.me.q.bank k).any (·.kind.isFence) = false ∧ s.bankReady s.cur k = true) ∧
    (let k := cmd 4 (.bkvec {} 0 1) .queued;
      let s := mk fun c => { c with q := { c.q with bank := [cmd 3 (.qfence 0) .queued, k] } };
      ((s.jobOf s.cur k).map (·.vec.isSome)) = some true ∧ ((s.jobOf s.cur k).map s.jobHeld) = some false ∧
      (earlier s.me.q.bank k).any (·.kind.isFence) = true) ∧
    (starting.job starting.subj = some toStart ∧ toStart.started = false ∧ starting.outstanding (.job 0) = false ∧
      (toStart.engines.any fun e => starting.migChannels.contains e) = false ∧ toStart.vec = none ∧ starting.jobHeld toStart = false) ∧
    (let j := { toStart with id := 1 }; { starting with jobs := [toStart, j] }.jobHeld j = true) ∧
    (let j := { toStart with vec := some {} };
      let s := { starting with jobs := [j] };
      s.job s.subj = some j ∧ j.vec.isSome = true ∧ j.fail = none ∧ ({ j with fail := some (6, 0) } : BankJob).fail = some (6, 0)) := by
  decide +kernel

/-- Jobs whose engines have ended, without a record, with a fault and no record, and with a record that is written or meets a violation; and a
job whose engine runs. -/
theorem witness_BankEventsAct_ends :
    (let s := { mapped (mk windowed) with jobs := [ended] };
      s.job s.subj = some ended ∧ s.jobDone ended = true ∧ ended.cva = 0 ∧ ended.fault = none) ∧
    ({ aJob with ended := [(0, 3)] } : BankJob).fault = some (0, 3) ∧
    (let s := { mapped (mk windowed) with jobs := [recording 0x80] };
      s.jobDone (recording 0x80) = true ∧ translate ended.wins { w := true } 0x80 = .ok 0x80 ∧
      ((s.performGlobal ended.who 0 0x80 (.write (bankRecord (recording 0x80))) (.ok [])).map (·.isOk)) = some true) ∧
    translate ended.wins { w := true } 0x400000 = .error clsWindow ∧
    (((mk windowed).performGlobal ended.who 0 0x80 (.write (bankRecord (recording 0x80))) (.ok [])).map (·.isOk)) = some false ∧
    (let s := { mapped (mk windowed) with hbm := [(0, 0x65), (4, 1)], trans := { ptCtl := true, migState := .hold } };
      (s.performGlobal ended.who 0 0x80 (.write (bankRecord (recording 0x80))) (.ok [])).isNone = true) ∧
    (let s := { mapped (mk windowed) with jobs := [aJob] }; s.job s.subj = some aJob ∧ s.jobDone aJob = false) ∧
    State.reset.job State.reset.subj = none := by
  decide +kernel

/-! ### Witnesses: leases, the fabric, the dispatcher -/

/-- A direct offset and one that is none, budgets of strands, fields at their last legal value and at the illegal one. -/
theorem witness_LeaseInstructionsAsk :
    (let drow : BitVec 4 := 0; let dcol : BitVec 4 := 15; (drow = 0 ∧ dcol ≠ 0) ∨ (drow ≠ 0 ∧ dcol = 0)) ∧
    (let drow : BitVec 4 := 1; let dcol : BitVec 4 := 1; ¬((drow = 0 ∧ dcol ≠ 0) ∨ (drow ≠ 0 ∧ dcol = 0))) ∧
    (let s := tasked (mk inRegion); s.statusFails 0 = none ∧ s.regionOf s.cur = some aRegion ∧ aRegion.strands ≠ 0) ∧
    (let s := mapped (mk windowed); s.statusFails 1 = none) ∧ (63 : BitVec 6) ≠ 0 ∧ (6 : BitVec 3) ≠ 7 ∧ (7 : BitVec 3) = 7 := by
  decide +kernel

/-- A lease of one strand of the peer at index 0, and its request. -/
def aLease : Lease :=
  { id := 4, task := 0x1000, core := 0, region := 1, level := 0, drow := 0, dcol := 1, peer := 0, n := 1, dur := 100, status := none
    event := none, acceptedAt := 0, expiry := some 100 }

def aReq : LeaseReq :=
  { core := 0, task := 0x1000, region := 1, level := 0, op := 0, drow := 0, dcol := 1, n := 1, dur := 100, status := none, event := none }

/-- Strand 5 so allocated, at a time. -/
def strandAt (x : StrandAlloc) (now : Nat) : State := { State.reset with subj := 5, now := now, alloc := State.reset.alloc.set 5 x }

def leased (l : Lease) (now : Nat) : State := { State.reset with leases := [l], now := now }

/-- One strand, its channels parked, serves the trained peer at index 0. -/
def fabric : State :=
  { strandAt { use := .floor 0 } 0 with
    trained := 2, fabCols := 2, rings := Vector.replicate 4096 {}, strands := State.reset.strands.set 5 { carry := 0 } }

theorem witness_LeaseEventsAct :
    ({ State.reset with leaseReqs := [aReq] }.leaseReqs = aReq :: [] ∧ State.reset.leaseReqs = []) ∧
    (let s := strandAt {} 0; s.subj = 5 ∧ (s.alloc[5]).notice = none ∧ (s.alloc[5]).moving = none) ∧
    (let s := strandAt { use := .lease 4 0, notice := some (.pool, 100) } 99; (s.alloc[5]).notice = some (.pool, 100) ∧ s.now < 100) ∧
    (let s := strandAt { use := .lease 4 0, notice := some (.pool, 100) } 100;
      (s.alloc[5]).use = .lease 4 0 ∧ (s.alloc[5]).notice = some (.pool, 100) ∧ 100 ≤ s.now) ∧
    (let s := strandAt { moving := some (.floor 0, 100) } 100; (s.alloc[5]).moving = some (.floor 0, 100) ∧ 100 ≤ s.now) ∧
    (let s := strandAt { moving := some (.floor 0, 100) } 99; (s.alloc[5]).moving = some (.floor 0, 100) ∧ s.now < 100) ∧
    (let s := { State.reset with strands := State.reset.strands.set 5 { qd := 1, qdAt := 9, flying := true } };
      (s.strands[(5 : StrandId).val]).flying = true ∧ s.clearTick [5] = 9) ∧
    (let s := leased aLease 99;
      s.leases[s.subj]? = some aLease ∧ (s.now < aLease.acceptedAt + 200 * usTicks) ∧ aLease.expiry = some 100 ∧ s.now < 100) ∧
    (let s := leased aLease 100; s.leases[s.subj]? = some aLease ∧ 100 ≤ s.now) ∧ ({ aLease with expiry := none } : Lease).expiry = none ∧
    State.reset.leases[State.reset.subj]? = none := by
  decide +kernel

/-- A request that has waited 200 µs, with a default strand at another peer and with none. -/
theorem witness_LeaseEventsAct_starved :
    let s := { leased aLease (200 * usTicks) with alloc := State.reset.alloc.set 6 { use := .default 1 } }
    s.leases[s.subj]? = some aLease ∧ aLease.starved = false ∧ aLease.got = 0 ∧ s.want aLease ≠ 0 ∧
      aLease.acceptedAt + 200 * usTicks ≤ s.now ∧ s.largest ((otherPeers aLease.peer).filter s.starvable) = some 1 := by
  decide +kernel

theorem witness_LeaseEventsAct_unstarved :
    let s := leased aLease (200 * usTicks)
    s.leases[s.subj]? = some aLease ∧ s.want aLease ≠ 0 ∧ aLease.acceptedAt + 200 * usTicks ≤ s.now ∧
      s.largest ((otherPeers aLease.peer).filter s.starvable) = none := by
  decide +kernel

/-- A packet of eight flits for the module to the east, and one for this module. -/
def eastward (via : Option (Nat × VChan)) : Packet := { row := 0, col := 1, flits := 8, response := false, via := via }

theorem witness_PacketsTravel :
    fabric.minimalHops (eastward none) = [0] ∧ (eastward none).nextChan = some .first ∧ fabric.packets = [] ∧
    fabric.minimalHops { eastward none with col := 0 } = [] ∧ (eastward (some (3, .second))).nextChan = none ∧
    ({ fabric with trained := 0 }).minimalHops (eastward none) = [] := by
  decide +kernel

/-- Strand 5 is the one that serves that peer. -/
theorem fabric_strandsOf (s : State) (h : s.alloc = fabric.alloc) : s.strandsOf 0 = [(5 : StrandId)] := by
  simp only [State.strandsOf, State.strandsWhere, h]
  decide +kernel

/-- With credit there, the packet takes that strand; with its egress buffer full it waits; and one in transit sets out the same way. -/
theorem witness_fabricPacket : fabric.hasCredit 0 false .first = true → fabric.hasCredit 0 false .second = true →
    fabric.nextHop (eastward (some (20, .detour))) = some 0 ∧ fabric.nextHop (eastward (some (3, .first))) = some 0 ∧
    ∃ t is, fabric.pick 1 ((fabric.strandsOf 0).filter fun i => decide (fabric.queueDepth i < 1024)) = (t, (5 : StrandId) :: is) := by
  intro h1 h2
  have hs := fabric_strandsOf fabric rfl
  have hq : fabric.queueDepth 5 = 0 := by decide +kernel
  have hr : fabric.openStrands 0 = [5] := by simp [State.openStrands, hs, hq]
  have hm : ∀ v, fabric.minimalHops (eastward v) = [0] := fun _ => witness_PacketsTravel.1
  have hop : ∀ v c, (eastward v).nextChan = some c → (eastward v).via.isNone = false → fabric.hasCredit 0 false c = true →
      fabric.nextHop (eastward v) = some 0 := fun v c hn hv hc => by
    have hs : fabric.canSend (eastward v) c 0 = true := by simp only [State.canSend, hr]; exact hc
    simp [State.nextHop, hm, hn, hv, hs, State.lowest]
  refine ⟨hop _ _ rfl rfl h1, hop _ _ rfl rfl h2, { fabric with choices := fabric.choices + 1 }, [], ?_⟩
  · rw [hs]
    simp only [List.filter_cons, hq, List.filter_nil]
    simp only [State.pick, pickStrands, Nat.reduceLT, decide_true, if_true, List.length_singleton, Nat.mod_one,
      List.getElem?_cons_zero]

def running (t : Task) : State := { State.reset with tasks := [t], regions := [aRegion] }

theorem witness_DispatcherEventsAct :
    (State.reset.hib.state = .run ∧ State.reset.boot.step = .done ∧ State.reset.supStopped = false) ∧
    { State.reset with hib := { state := .flush } }.supStopped = true ∧
    { State.reset with boot := { State.reset.boot with step := .training } }.boot.step ≠ .done ∧
    (let s := { running aTask with cores := State.reset.cores.set 0 { status := .exited } };
      s.tasks[s.subj]? = some aTask ∧ aTask.kind = 0 ∧ aTask.state = .running ∧
      ∀ c ∈ aTask.cores, (s.core c).status = .exited ∧ ∀ a ∈ s.accesses, a.ofCore c = false) ∧
    (let s := running readyTask; s.tasks[s.subj]? = some readyTask ∧ readyTask.state ≠ .retiring ∧ readyTask.state ≠ .running) ∧
    (let t := { aTask with kind := 2 }; let s := running t; s.tasks[s.subj]? = some t ∧ t.kind = 2 ∧ t.state = .running) ∧
    (let s := { running aTask with cores := State.reset.cores.set 0 { status := .halted } };
      s.tasks[s.subj]? = some aTask ∧ ∃ c ∈ aTask.cores, (s.core c).status = .halted) ∧
    (∀ c ∈ aTask.cores, ((running aTask).core c).status ≠ .halted) ∧ State.reset.tasks[State.reset.subj]? = none ∧
    (0xFFFF : BitVec 17).toNat < 0x10000 ∧ 0x10000 ≤ (0x10000 : BitVec 17).toNat ∧
    (0x10200 ≤ (0x1023F : BitVec 17).toNat ∧ (0x1023F : BitVec 17).toNat < 0x10240) := by
  decide +kernel

/-! ### Witnesses: migration, power, hibernation -/

/-- A migration of the page at 0 to frame 2. -/
def migrating (st : MigState) : State :=
  { mapped (mk windowed) with
    hbm := [(0, 0x65), (4, 1)]
    trans := { ptCtl := true, migTo := 0x200000025, migOld := 0x100000025, migBig := true, migState := st } }

theorem witness_MigrationSteps :
    (let s := { mapped (mk windowed) with trans := { ptCtl := true, migNew := 0x200000025 } };
      s.supStopped = false ∧ (1 : Word).getLsbD 0 = true ∧ s.migCheck = 0 ∧ s.hib.state.leaving = false ∧
      s.walk s.trans.migIa.toNat = some (0, 0x100000025, true)) ∧ HbState.warn.leaving = true ∧ State.reset.migCheck ≠ 0 ∧
    (0 : Word).getLsbD 0 = false ∧
    (let s := migrating .hold; let t := s.trans;
      t.migState = .hold ∧ s.channelBusy t.migOld.toNat = false ∧ s.migHolds t.migOld.toNat = true ∧
      (pageOfEntry t.migOld.toNat t.migBig).isSome = true ∧ (pageOfEntry t.migTo.toNat t.migBig).isSome = true) ∧
    (let s := migrating .switch; s.trans.migState = .switch ∧ s.migHolds s.trans.migOld.toNat = true ∧ s.migEntry = 0x100000065) ∧
    (let a : Access := { owner := .none, target := .global 0, op := .read 8 0 }; let s := { migrating .forward with accesses := [a] };
      s.accesses[s.subj]? = some a ∧ s.trans.migState = .forward ∧ s.toMigrating a = true) ∧
    (let s := { migrating .forward with hbm := [(0, 0x65), (4, 2)] };
      s.trans.migState = .forward ∧ s.accesses.any s.toMigrating = false ∧ s.migHolds s.trans.migTo.toNat = true ∧
      s.migEntry = 0x200000065) ∧
    (let s := { migrating .hold with hbm := [(0, 0x65), (4, 3)] };
      s.channelBusy s.trans.migOld.toNat = false ∧ s.migHolds s.trans.migOld.toNat = false) ∧
    (migrating .forward).accesses.any (migrating .forward).toMigrating = false ∧
    (migrating .forward).migHolds (migrating .forward).trans.migTo.toNat = false ∧ State.reset.trans.migState ≠ .hold := by
  decide +kernel

/-- Caps of 300, 420 and 299; tokens that 420 leave and that they do not; permutations; thresholds; banks and ways that wake. -/
theorem witness_PowerRegistersAct :
    (300 ≤ (300 : Word).toNat % 2 ^ 16 ∧ (299 : Word).toNat % 2 ^ 16 < 300 ∧ 420 ≤ (420 : Word).toNat % 2 ^ 16) ∧
    (let s := { State.reset with trained := 2, fabCols := 2 }; let v : Word := 0x1000884;
      let m := s.peerModule (BitVec.ofNat 4 (v.toNat / 2 ^ 20)) (BitVec.ofNat 4 (v.toNat / 2 ^ 24))
      s.supStopped = false ∧ (m / 16 = s.modid.toNat / 16 ∧ m % 16 ≠ s.modid.toNat % 16) ∧ s.isTrained m = true ∧ 0 < v.toNat % 2 ^ 16 ∧
      v.getLsbD 16 = false ∧ v.toNat % 2 ^ 16 + 420 ≤ s.power.tokNow.toNat ∧ (v + 0x10000).getLsbD 16 = true ∧
      (v + 0x10000).toNat % 2 ^ 16 + 420 ≤ s.power.tokNext.toNat) ∧ (0 : Word).toNat % 2 ^ 16 = 0 ∧
    (∀ d, d < 8 → d ∈ (List.range 8).map fun j => (0xFAC688 : Word).toNat / 2 ^ (3 * j) % 8) ∧
    ¬(∀ d, d < 8 → d ∈ (List.range 8).map fun j => (0 : Word).toNat / 2 ^ (3 * j) % 8) ∧ (40 < 60 ∧ 60 < 70) ∧ (60 : Nat) ≤ 60 ∧
    State.reset.me.loc.lmem.wf = true ∧
    (let s := mk fun c => { c with loc := { c.loc with waking := BitVec.ofNat 32 (2 ^ 31) } };
      s.me.loc.waking.getLsbD 31 = true ∧ s.me.loc.wakeAt[31] ≤ s.now ∧ s.me.loc.waking.getLsbD 0 = false) ∧
    (let s := mk fun c => { c with loc := { c.loc with waking := 1, wakeAt := c.loc.wakeAt.set 0 420 } }; s.now < s.me.loc.wakeAt[0]) ∧
    (let s := { State.reset with power := { l2waking := Vector.replicate 4 0x8000 } };
      (s.power.l2waking[3]).getLsbD 15 = true ∧ s.power.l2wakeAt[3][15] ≤ s.now ∧ (s.power.l2waking[3]).getLsbD 0 = false) := by
  decide +kernel

/-- A bus that has been low for 20 µs and one that has for less, high for 1 ms and for less, voltages at and about each threshold, dies shed and
to be shed. -/
theorem witness_PowerEventsAct_bus :
    let shed := fun (p : Power) => 4000 + 10 * p.boShed.toNat
    (let p : Power := { lowSince := some 5 };
      (4599 : BitVec 16).toNat < shed p ∧ p.lowSince.getD 9 + 20 * usTicks ≤ 5 + 20 * usTicks ∧ p.lastShed < 5 ∧
      (p.order.find? fun d => !State.reset.dieShed d) = some 0 ∧ ¬(p.lowSince.getD 9 + 20 * usTicks ≤ 4 + 20 * usTicks)) ∧
    (let p : Power := {}; shed p ≤ (4600 : BitVec 16).toNat ∧ (4399 : BitVec 16).toNat < 4000 + 10 * p.boAll.toNat ∧
      4000 + 10 * p.boAll.toNat ≤ (4400 : BitVec 16).toNat ∧ (4700 : BitVec 16).toNat ≤ 4000 + 10 * p.boRestore.toNat ∧
      (3999 : BitVec 16).toNat < 4000 ∧ 4000 ≤ (4000 : BitVec 16).toNat) ∧
    (let p : Power := { highSince := some 5, shedBo := 1 };
      State.reset.hib.state = .run ∧ 4000 + 10 * p.boRestore.toNat < (4701 : BitVec 16).toNat ∧
      p.highSince.getD 9 + 1000 * usTicks ≤ 5 + 1000 * usTicks ∧ p.lastRestore < 5 ∧
      (p.order.reverse.find? fun d => p.shedBo.getLsbD d) = some 0 ∧ (({} : Power).order.reverse.find? fun d => (0 : BitVec 8).getLsbD d) = none) := by
  decide +kernel

/-- Periods that are over and that are not, a draw within the budget and one over it twice, and tokens for this period, the next and another. -/
theorem witness_PowerEventsAct_tokens :
    (let p : Power := {}; p.periodAt + 1000 * usTicks ≤ 1000 * usTicks ∧ 5 < p.periodAt + 1000 * usTicks ∧ p.budget < (2601 : BitVec 16).toNat ∧
      p.overPeriods + 1 < 2 ∧ ({ overPeriods := 1 } : Power).overPeriods + 1 = 2) ∧
    (let p : Power := { period := 0xFFFFFF }; (0 : BitVec 24) = p.period + 1 ∧ (0xFFFFFF : BitVec 24) = p.period ∧
      (5 : BitVec 24) ≠ p.period ∧ (5 : BitVec 24) ≠ p.period + 1) ∧ State.reset.power.coord = false ∧ ({ coord := true } : Power).coord = true := by
  decide +kernel

def hibernating (st : HbState) : State := { State.reset with hib := { state := st } }

theorem witness_HibernationSequence_acknowledged (c : CoreId) :
    (hibernating .warn).hib.state = .warn ∧ ((hibernating .warn).core c).acknowledged = true := by
  have h : (hibernating .warn).core c = {} := by simp [hibernating, State.reset, State.core]
  exact ⟨rfl, by rw [h]; decide⟩

theorem witness_HibernationSequence_quiet :
    ((hibernating .quiesce).hib.state = .quiesce ∧ (hibernating .quiesce).quiet = true) ∧
    { hibernating .quiesce with accesses := [{ owner := .engine 0 0, target := .global 0, op := .write [1] }] }.quiet = false := by
  decide +kernel

theorem witness_HibernationSequence :
    ({ mk (fun c => { c with status := .running }) with hib := { state := .warn } }.core 0).acknowledged = false ∧
    (hibernating .flush).hib.state = .flush ∧ (hibernating .drain).hib.state = .drain ∧
    ((hibernating .seal).hib.state = .seal ∧ (hibernating .seal).boot.attStat ≠ 1 ∧ (hibernating .seal).newestManifest = none) ∧
    ((hibernating .restore).hib.state = .restore ∧ (hibernating .restore).contextComplete = true) ∧
    (let s := { hibernating .restore with hib := { state := .restore, gen := 1 } }; s.contextComplete = false ∧ s.regions = []) ∧
    (let x := { aTask with saved := [{ core := {}, slots := [] }] };
      x.saved ≠ [] ∧ x.resumable = true ∧ State.reset.touchesLost x = false ∧ ({ x with resumable := false } : Task).resumable = false ∧
      aTask.saved = []) ∧
    (let h : Hib := { reserve := 12000000000 * 80, selv := 80 }; h.reserve ≤ h.selv.toNat * 12000000000) ∧
    (hibernating .run).hib.state = .run ∧
    (let s := { hibernating .rejoin with now := 10000000 * usTicks };
      s.hib.since + 10000000 * usTicks ≤ s.now ∧ ∀ g ∈ s.hib.groups, (s.groupStep g).isSome = true) ∧
    (hibernating .rejoin).now < (hibernating .rejoin).hib.since + 10000000 * usTicks := by
  decide +kernel

set_option maxRecDepth 100000 in
/-- The clauses on an image are about whatever image the root key verifies, which the model leaves open; the rest are met here. -/
theorem witness_PowerOffBootAndPartitions :
    ((hibernating .off).hib.state = .off ∧ (hibernating .off).boot.step = .done) ∧
    (let s := { State.reset with now := 100000 * usTicks, boot := { step := .off }, power := { highSince := some 5 } };
      s.boot.step = .off ∧ s.boot.offSince + 100000 * usTicks ≤ s.now ∧ (s.readBus 4701).power.highSince = some 5 ∧
      5 + 1000 * usTicks ≤ s.now ∧ (s.readBus 4700).power.highSince = none ∧ s.boot.fault = false ∧ s.boot.offSince < 5) ∧
    (let b : Boot := { step := .off, fault := true, offSince := 5 }; b.fault = true ∧ 5 ≤ b.offSince) ∧
    State.reset.bootImage 1 = none ∧ State.reset.supStopped = false ∧
    State.reset.boot.step ≠ .off ∧ ({ step := .recovery } : Boot).step = .recovery ∧ State.reset.imageOk 1 [] = false ∧
    ((1 : Word).getLsbD 0 = true ∧ State.reset.boot.attStat ≠ 1 ∧ State.reset.attestOk = false) ∧
    (let s := { mapped (mk windowed) with boot := { attStat := 1, attIn := 0x40, attOut := 0x80 } };
      s.boot.attStat = 1 ∧ s.attestOk = true ∧ (s.fetchIa s.boot.attIn.toNat 48).2.isSome = true) ∧
    State.reset.partCode (0 : BitVec 3).toFin 0x0101 = none ∧ State.reset.partCode 7 0x0001 = some 4 := by
  decide +kernel

/-! ### Witnesses: the optical layer, encodings and steps -/

/-- Every ring as it is before link training, with ring 0 so. -/
def ringed (r : Ring) : State := { State.reset with rings := (Vector.replicate 4096 {}).set 0 r }

def stranded (x : Strand) : State := { State.reset with strands := State.reset.strands.set 0 x }

/-- Channels to keep, to park and to wake, the strand's own and a wake in progress; a strand that parks and one whose wake is over. -/
theorem witness_OpticsActs_strands :
    let ending := fun (x : Strand) (m : BitVec 8) => if m &&& ~~~x.carry = 0 then x.wakeEnd else some (x.wakeEnd.getD 4284)
    State.reset.supStopped = false ∧ (hibernating .seal).supStopped = true ∧
    ((0xFF : BitVec 8) ≠ 0 ∧ (stranded {}).strands[0].amask &&& ~~~(0xFF : BitVec 8) = 0) ∧
    ((0x0F : BitVec 8) ≠ 0 ∧ (stranded {}).strands[0].amask &&& ~~~(0x0F : BitVec 8) ≠ 0 ∧ ending (stranded {}).strands[0] 0x0F = none) ∧
    ending (stranded { carry := 0 }).strands[0] 0x0F = some 4284 ∧
    (let s := stranded { parking := true }; s.subj = 0 ∧ s.strands[0].parking = true ∧ s.strands[0].due = none ∧
      ((s.strands[0]).upTo 8 s.now).flying = false) ∧
    (({ qd := 1, qdAt := 9, flying := true } : Strand).upTo 8 5).flying = true ∧
    ({ parkDue := true } : Strand).parkDue = true ∧ (stranded {}).strands[0].parking = false ∧
    (let s := stranded { wakeEnd := some 0 }; s.strands[0].wakeEnd = some 0 ∧ 0 ≤ s.now) ∧
    (let s := stranded { wakeEnd := some 9 }; s.strands[0].wakeEnd = some 9 ∧ s.now < 9) := by
  decide +kernel

/-- Every ring disabled, and every strand with a peer of the other router. -/
def dark : State := { State.reset with rings := Vector.replicate 4096 { disable := true } }

def darkAway : State := { dark with alloc := Vector.replicate 512 { use := .floor 29 } }

/-- Ring 0 as it is, enabled, disabled, and enabled again with a line and without one; settled, in a wake, and still settling. -/
theorem witness_OpticsActs_rings :
    (let s := ringed {}; (0 : Word).getLsbD 7 = s.rings[0].disable ∧ (0x80 : Word).getLsbD 7 = true ∧ s.rings[0].disable = false) ∧
    dark.rings[0].disable = true ∧ darkAway.lineSuits 0 0 = false ∧
    (let s := ringed { settle := some 0 }; s.subj = 0 ∧ s.rings[0].settle = some 0 ∧ 0 ≤ s.now ∧ s.rings[0].disable = false) ∧
    (let s := ringed { settle := some 0, wake := true, disable := true }; s.rings[0].settle = some 0 ∧ s.rings[0].disable = true ∧
      s.rings[0].wake = true) ∧
    (let s := ringed { settle := some 9 }; s.rings[0].settle = some 9 ∧ s.now < 9) ∧ (ringed {}).rings[0].settle = none := by
  decide +kernel

/-- A strand whose wake a flit has asked for, with channels that carry none and with every channel carrying; one for which none has. -/
theorem witness_OpticsActs_wakes :
    (let s := stranded { wth := 1, qd := 1, due := some 0, carry := 0 }; s.strands[0].due = some 0 ∧ s.strands[0].carry ≠ 0xFF) ∧
    (let s := stranded { wth := 1, qd := 1, due := some 0, amask := 0 }; s.strands[0].due = some 0 ∧ s.strands[0].carry = 0xFF) ∧
    (stranded { wth := 2, qd := 1 }).strands[0].due = none := by
  decide +kernel

/-- With every ring disabled no other carries a ring's channel, and where its strand serves no peer every line suits it. -/
theorem witness_OpticsActs_lineBack : dark.channelTaken 0 = false ∧ dark.lineSuits 0 (dark.lineBack 0) = true := by
  have hd : ∀ k : RingId, (dark.rings[k.val]).disable = true := fun k => by simp [dark]
  have h : ∀ l, dark.lineSuits 0 l = true := fun l => by
    have : (dark.alloc[(dark.ringStrand 0).val]).use.peer = none := by decide +kernel
    simp [State.lineSuits, this]
  exact ⟨by simp [State.channelTaken, hd], h _⟩

set_option maxRecDepth 100000 in
theorem witness_LockLoopAndTraining :
    ((ringed {}).ringValid 0 = true ∧ (ringed {}).rings[0].sw = false) ∧ (ringed { disable := true }).ringValid 0 = false ∧
    ({ step := .off } : Boot).step = .off ∧ State.reset.boot.step = .done ∧
    (let s := { State.reset with now := 50 * usTicks }; s.lockedAt[(15 : Fin 16)] + 50 * usTicks ≤ s.now) ∧
    State.reset.now < State.reset.lockedAt[(15 : Fin 16)] + 50 * usTicks ∧
    (let b : Boot := { step := .training, fibres := 2 ^ 63 - 1 };
      b.step = .training ∧ b.fibres ||| BitVec.ofNat 64 (2 ^ (63 : Fin 64).val) = BitVec.allOnes 64 ∧
      b.fibres ||| BitVec.ofNat 64 (2 ^ (62 : Fin 64).val) ≠ BitVec.allOnes 64) ∧ State.reset.hib.state = .run ∧
    ({ step := .recovery } : Boot).step = .recovery := by
  decide +kernel

/-- A well-formed instruction of each encoding. -/
theorem witness_InstructionsDecodeBack :
    (Instr.add 31 31 31).wf = true ∧ (∃ k, encodeOp (.add 31 31 31) = some k) ∧ encodeSlot 15 (.add 31 31 31) ≠ none ∧
    (Instr.bmac 3 2 15 .b4 1023).wf = true ∧ encodeCrisum (.bmac 3 2 15 .b4 1023) ≠ none := by
  refine ⟨by decide, ⟨_, rfl⟩, by decide, by decide, by decide⟩

theorem witness_WordsEncodeBack :
    decodeOp .v 0x30470423 = some (.vadd 7 1 2 .bf16 true) ∧ decodeCrisumCore 0x1B33FF80 = some (.bmac 1 2 6 .e4m3 1023) := by
  decide

/-- An event, an engine with a command left, one without and one that has run past its last, and an empty agenda. -/
theorem witness_StepRunsTheAction :
    { State.reset with agenda := [.event 3 0 .arrayGrant] }.agenda = .event 3 0 .arrayGrant :: [] ∧
    (let s := engine { running := true, ptr := 1023 }; (s.engine 0).running = true ∧ (s.engine 0).ptr < 1024) ∧
    (State.reset.engine 0).running = false ∧ 1024 ≤ ((engine { ptr := 1024 }).engine 0).ptr ∧ State.reset.agenda = [] ∧
    State.reset.powered = true ∧ State.reset.supStopped = false ∧ unpoweredEvent (.powerOn 4701) = true ∧ unpoweredEvent .arrayGrant = false ∧
    (let s := { State.reset with boot := { step := .off } }; s.powered = false ∧ s.supStopped = true) ∧
    (let s := { State.reset with agenda := [.superAccess 0x800 none] }; s.agenda = .superAccess 0x800 none :: [] ∧ 0x800 % 8 = 0 ∧
      ({ s with agenda := [] }.sharedRead (0x10000 + 0x800 / 8)).isSome = true ∧ 0x804 % 8 ≠ 0) := by
  decide +kernel

theorem ok_pair {ε α β : Type} {x : Except ε (α × β)} {b : β} (d : α) (h : x.toOption.map (·.2) = some b) :
    x = .ok ((x.toOption.map (·.1)).getD d, b) := by
  cases x with
  | error e => simp [Except.toOption] at h
  | ok p => cases p; simp [Except.toOption] at h ⊢; exact h

/-- The state in which core 0 is about to fetch its ADDI, the state once it has, and the one in which the slots act. -/
def atFetch : State := (beforeFetch addBundle).runSpawns

def fetched : State := (atFetch.fetchBundle.toOption.map (·.1)).getD State.reset

def issuing : State := fetched.modMe fun x => x.issued none

/-- Its one slot that is not NOP. -/
def addSlot : SlotWord := { slot := .s, guard := 0, instr := .addi 1 0 7 }

theorem witness_StepIssuesTheBundle :
    (State.reset.withFetchWord 256 addBundle.toNat).powered = true ∧ (State.reset.withFetchWord 256 addBundle.toNat).agenda = .issue 0 :: [] ∧ (beforeFetch addBundle).me.shed = false ∧
    atFetch.me.status = .running ∧ atFetch.boundary.isNone = true ∧ atFetch.me.exhausted = false ∧
    (vectorBundle addBundle && !fetched.me.vecAligned) = false ∧ issuing.me.status ≠ .idle ∧
    fetched.me.takesUp = none ∧ fetched.skippable addBundle = false ∧
    ((decodeBundle addBundle).filter fun w => w.instr != .nop) = [addSlot] ∧ fetched.me.rp addSlot.guard = true ∧
    issuing.earlyTrap exec addBundle [addSlot] = none ∧ fetched.heldBack [addSlot] = false ∧
    (issuing.trySlots exec addBundle [addSlot]).2 = none ∧ (issuing.withoutThreshold.trySlots exec addBundle [addSlot]).2 = none ∧
    fetched.me.hsetMissing [addSlot] = none ∧ (issuing.trySlots exec addBundle [addSlot]).1.me.overfull = false ∧
    fetched.me.bundleMissing (issuing.trySlots exec addBundle [addSlot]).1.me = none := by
  and_intros <;> decide +kernel

theorem witness_StepIssuesTheBundle_fetch : atFetch.fetchBundle = .ok (fetched, addBundle) := ok_pair State.reset (by decide +kernel)

/-- Reset is in canonical form, and time passing is a step from it. -/
theorem witness_StepKeepsGlobalMemoryCanonical :
    State.reset.memOk = true ∧ step { State.reset with agenda := [.elapse 7] } = .next { State.reset with now := 7 } :=
  ⟨by decide +kernel, rfl⟩

theorem witness_StepKeepsLocalMemoriesCanonical :
    State.reset.localOk = true ∧ step { State.reset with agenda := [.elapse 7] } = .next { State.reset with now := 7 } :=
  ⟨by decide +kernel, rfl⟩

/-! ### The spec's worked examples and single operations -/

/-- 03 R47, R48: static and rotating names before and after a loop-back. -/
theorem test_register_names :
    (let c : Core := { ctl := { rbase := 64, rsize := 96 } }; c.phys 5 = 5 ∧ c.phys 32 = 64 ∧ c.phys 33 = 65) ∧
    (let c : Core := { ctl := { rbase := 64, rsize := 96, rrb := 95 } }; c.phys 33 = 64 ∧ c.phys 32 = 159) := by decide +kernel

/-- 04 R67: scale byte 0x62, code 0xB and tensor scale 0.5 give −3.0. -/
theorem test_b4_value :
    FFmt.f32.res .rne false (b4Value 0x62 0xB false (FFmt.f32.value false 0x3F000000)) = 0xC0400000 := by decide +kernel

/-- 04 R79: the group of four products 2^−24 is added to 1.0 with one rounding. -/
theorem test_group_sum :
    accGroup 0x3F800000 (List.replicate 4 (FFmt.bf16.value false 0x3980, FFmt.bf16.value false 0x3980)) = 0x3F800002 := by decide +kernel

/-- 09 R191: VRSQE of 2.0. -/
theorem test_vrsqe : FFmt.f32.res .rne false (rsqe (FFmt.f32.value false 0x40000000)) = 0x3F34F000 := by decide +kernel

/-- 11 R233: XTBL of 0.2578125 in function 3 of the example. -/
theorem test_xtbl :
    tableElem 0 { lo := 0xC0800000, scale := 0x42000000, bf16 := false
                  segs := List.replicate 136 (0, 0) ++ [(0x3F000000, 0x3E000000)] ++ List.replicate 375 (0, 0) } .f32 0x3E840000
      = 0x3F080000 := by decide +kernel

/-- 05 R95: the window of the example and the peer one column to the west. -/
theorem test_window :
    let wins : Vector Window 8 := (Vector.replicate 8 {}).set 2 { va := 0x40000000, len := 0x10000000, ia := 0x3A001000000000, ctl := 7 }
    let s := { State.reset with modid := 0x3A, fabRows := 16, fabCols := 12 }
    translate wins { r := true } 0x41234560 = .ok 0x3A001001234560 ∧
    s.translatePeer wins { r := true } 0 15 0x41234560 = .ok 0x39001001234560 := by decide +kernel

/-- 01 R23: columns modulo 12, and a peer two hops away. -/
theorem test_peer_module :
    let s := { State.reset with modid := 0x3A, fabRows := 16, fabCols := 12 }
    s.peerModule 0 5 = 0x33 ∧ s.peerModule 0 8 = 0x32 ∧ s.peerModule 2 2 = 0x50 := by decide +kernel

/-- 21 R374: the two-level walk of the example. -/
theorem test_walk :
    let s := { State.reset with trans := { ptCtl := true }, hbm := Mem.putNat (Mem.putNat [] 0x40048 8 (2 + 5 * 2 ^ 32)) 0x20000518 8 0x0001234500210029 }
    s.walk 0x001001234560 = some (0x20000518, 0x0001234500210029, false) ∧
    ((s.freshPage 0x001001234560).map fun p => (p.key + 0x4560, p.size, p.scope, p.part, p.owner)) = some (0x123454560, 65536, 2, 0, 0x21) := by
  decide +kernel

/-- 22 R386, R387: caps of 350 W and then 400 W, and the floors of the example. -/
theorem test_power_cap :
    capDies 350 = 5 ∧ ({} : Power).shedTo 5 = 0x1F ∧ capDies 400 = 2 ∧ ({ shedCap := 0x1F } : Power).shedTo 2 = 0x03 ∧
    effFloor 350 500 200 = 140 ∧ effFloor 350 500 300 = 210 := by decide +kernel

/-- 25 R419: the second partition's claim of a die that the first holds. -/
theorem test_partition :
    let s := { State.reset with parts := (State.reset.parts.set 0 { ctl := 0x00010F01 }).set 1 { ctl := 0x0002F001 } }
    State.reset.partCode 0 0x00010F01 = none ∧ s.partCode 1 0x00021801 = some 1 := by decide +kernel

/-- 08 R152: the second pass of the two-stage modulo loop with a count of 3. -/
theorem test_modulo_loop :
    let c : Core := { pc := 64, p := (Vector.replicate 16 false).set 8 true, loops := (Vector.replicate 4 {}).set 0 (aLoop true 0)
                      ctl := { lc := (Vector.replicate 4 0).set 0 4, rsize := 64 } }
    let t := c.advance
    t.pc = 32 ∧ t.ctl.lc[0] = 3 ∧ t.p[8] = true ∧ t.p[9] = true ∧ t.p[10] = false ∧ t.ctl.rrb = 63 := by decide +kernel

/-- 24 R406: a ring of detuning +32 moves by 16 codes. -/
theorem test_lock_ring :
    let s := (ringed { heater := 300, detune := 32 }).lockRing 0
    (s.rings[0]).heater = 284 ∧ (s.rings[0]).detune = 16 := by decide +kernel

/-- What an instruction of core 0 puts in flight. -/
def results (o : Host.Outcome State Fault Refusal) : List Result :=
  match o with
  | .next t => t.me.pend.map (·.res)
  | _ => []

def with3 (a b c : Word) : State := mk fun x => { x with s := sregs a b c }

/-- 08 R169: the third bundle of the 64-bit constant. -/
theorem test_movh : results (exec (.movh 3 0x1C4D5) (with3 0 0 0x48D159)) = [.s 3 0x91A2B3C4D5] := by decide +kernel

/-- 08 R166: ADD wraps, SRA by 64 shifts by 0, MULH of the most negative number by itself. -/
theorem test_arithmetic :
    results (exec (.add 3 1 2) (with3 (BitVec.allOnes 64) 2 0)) = [.s 3 1] ∧
    results (exec (.sra 3 1 2) (with3 (BitVec.intMin 64) 64 0)) = [.s 3 (BitVec.intMin 64)] ∧
    results (exec (.mulh 3 1 1) (with3 (BitVec.intMin 64) 0 0)) = [.s 3 0x4000000000000000] := by decide +kernel

/-- 08 R167: −7 over 2 truncates toward zero, with remainder −1; a division by 0. -/
theorem test_division :
    results (exec (.div 3 1 2) (with3 (-7) 2 0)) = [.s 3 (-3)] ∧ results (exec (.rem 3 1 2) (with3 (-7) 2 0)) = [.s 3 (-1)] ∧
    results (exec (.div 3 1 2) (with3 5 0 0)) = [.s 3 (BitVec.allOnes 64)] := by decide +kernel

/-- 08 R172: CMP writes the condition and its complement; with the unsigned order −1 is not below 1. -/
theorem test_compare :
    results (exec (.cmp 1 2 1 2 .lt) (with3 (-1) 1 0)) = [.p 1 true, .p 2 false] ∧
    results (exec (.cmp 1 2 1 2 .ltn) (with3 (-1) 1 0)) = [.p 1 false, .p 2 true] := by decide +kernel

/-- 14 R293: BSETR lo, placed and stepped, zero-extends into its register. -/
theorem test_step_command :
    (match step (State.reset.withFetchWord 32 0x0C80BEEF) with
      | .next t => ((t.engine 0).g[9], (t.engine 0).ptr)
      | _ => (0, 0)) = (0xBEEF, 1) := by decide +kernel

/-- 07 R140, 08 R168: a bundle of ADDI s1, s0, 7, placed and stepped: s1 is readable and the pc is that of the next bundle. -/
theorem test_step_bundle :
    (match step (State.reset.withFetchWord 256 addBundle.toNat) with
      | .next t => (t.me.rs 1, t.me.pc)
      | _ => (0, 0)) = (7, 0x10020) := by decide +kernel

end Sys2Proof.Tests

end
end

section
/-! PROOFS. Waits at their issue (02 R40, 08 R155): one rule for beginning a wait, what a look at each condition finds, and O13. -/

namespace Sys2Proof.Proofs

open Sys2Proof Sys2Proof.Machine Sys2Proof.Laws

/-! ### Beginning a wait -/

@[simp] theorem cur_waited (s : State) : s.waited.cur = s.cur := rfl

@[simp] theorem me_waited (s : State) : s.waited.me = { s.me with waitSince := s.me.tick } := me_withMe s _

@[simp] theorem core_waited_cur (s : State) : s.waited.core s.cur = { s.me with waitSince := s.me.tick } := me_waited s

theorem modMe_waitSince (s : State) : (s.modMe fun c => { c with waitSince := c.tick }) = s.waited := rfl

/-- A core that has begun its wait and goes on waiting is one that waits. -/
theorem waited_modMe_status (s : State) (w : Wait) : (s.waited.modMe fun c => { c with status := .waiting w }) = s.waitingOn w := by
  rw [modMe_eq_withMe, me_waited, State.waited, withMe_withMe, State.waitingOn]

theorem beginWait_of_holds {s t : State} {w x : Wait} (h : s.waited.look s.cur w = (t, .ok (true, x))) :
    s.beginWait w = t.satisfyNow x := by
  simp only [State.beginWait, modMe_waitSince, cur_waited, h]

theorem beginWait_of_fails {s t : State} {w x : Wait} (h : s.waited.look s.cur w = (t, .ok (false, x))) :
    s.beginWait w = t.modMe fun c => { c with status := .waiting x } := by
  simp only [State.beginWait, modMe_waitSince, cur_waited, h]

/-- A wait whose look changes neither the state nor the wait is over at once or waited on. -/
theorem beginWait_of_look {s : State} {w : Wait} {b : Bool} (h : s.waited.look s.cur w = (s.waited, .ok (b, w))) :
    s.beginWait w = if b then s.waited.satisfyNow w else s.waitingOn w := by
  cases b with
  | true => exact beginWait_of_holds h
  | false => exact (beginWait_of_fails h).trans (waited_modMe_status s w)

/-! ### Handles -/

theorem trapWaitHandle_none {s : State} {h : BitVec 4} (n : BitVec 10) (hx : s.me.handles[h.toNat] = none) :
    s.trapWaitHandle h n = some (handleTrap h) := by
  simp only [State.trapWaitHandle, hx]

theorem trapWaitHandle_some {s : State} {h : BitVec 4} {x : Handle} (n : BitVec 10) (hx : s.me.handles[h.toNat] = some x) :
    s.trapWaitHandle h n = failIf (decide (x.slotCount < n.toNat)) (handleTrap h) := by
  simp only [State.trapWaitHandle, hx]

theorem trapWaitHandle_within {s : State} {h : BitVec 4} {n : BitVec 10} {x : Handle} (hx : s.me.handles[h.toNat] = some x)
    (hn : n.toNat ≤ x.slotCount) : s.trapWaitHandle h n = none := by
  rw [trapWaitHandle_some n hx, decide_eq_false (Nat.not_lt.2 hn), failIf_false]

/-- Where the check of the handle fails, both handle waits raise HANDLE. -/
theorem handleWaits_raise {s : State} {h : BitVec 4} {n : BitVec 10} (ht : s.trapWaitHandle h n = some (handleTrap h)) :
    exec (.waitf h n) s = .next (s.raise (handleTrap h)) ∧ exec (.waite h n) s = .next (s.raise (handleTrap h)) := by
  constructor
  · show execWaitf h n s = _
    rw [execWaitf, ht, orRaise_some]
  · show execWaite h n s = _
    rw [execWaite, ht, orRaise_some]

theorem exec_waitf_of_handle {s : State} {h : BitVec 4} {n : BitVec 10} {x : Handle} (hx : s.me.handles[h.toNat] = some x)
    (hn : n.toNat ≤ x.slotCount) :
    exec (.waitf h n) s = .next (if n.toNat ≤ x.filled then s.waited else s.waitingOn (.filled h n.toNat)) := by
  have hl : s.waited.look s.cur (.filled h n.toNat) = (s.waited, .ok (decide (n.toNat ≤ x.filled), .filled h n.toNat)) := by
    simp only [State.look, core_waited_cur, hx]
  show execWaitf h n s = _
  rw [execWaitf, trapWaitHandle_within hx hn, orRaise_none, beginWait_of_look hl]
  simp [State.satisfyNow, State.satisfy]

theorem exec_waite_of_handle {s : State} {h : BitVec 4} {n : BitVec 10} {x : Handle} (hx : s.me.handles[h.toNat] = some x)
    (hn : n.toNat ≤ x.slotCount) :
    exec (.waite h n) s = .next (if n.toNat ≤ x.slotCount - x.filled then s.waited else s.waitingOn (.free h n.toNat)) := by
  have hl : s.waited.look s.cur (.free h n.toNat) =
      (s.waited, .ok (decide (n.toNat ≤ x.slotCount - x.filled), .free h n.toNat)) := by
    simp only [State.look, core_waited_cur, hx]
    rfl
  show execWaite h n s = _
  rw [execWaite, trapWaitHandle_within hx hn, orRaise_none, beginWait_of_look hl]
  simp [State.satisfyNow, State.satisfy]

/-! ### Batches, queues and DRAIN -/

theorem exec_waitb (s : State) (k : BitVec 6) :
    exec (.waitb k) s = .next (if s.me.incompleteBatches ≤ k.toNat then s.waited.modMe fun c => { c with counting := some (.batches k.toNat) }
      else s.waitingOn (.batches k.toNat)) := by
  have hl : s.waited.look s.cur (.batches k.toNat) = (s.waited, .ok (decide (s.me.incompleteBatches ≤ k.toNat), .batches k.toNat)) := by
    simp only [State.look, core_waited_cur]
    rfl
  show execWaitb k s = _
  rw [execWaitb, beginWait_of_look hl]
  simp [State.satisfyNow]

theorem exec_waitq (s : State) (q : QMask) :
    exec (.waitq q) s = .next (if s.me.queuesDone q then s.waited.modMe fun c => { c with counting := some (.queues q) }
      else s.waitingOn (.queues q)) := by
  have hl : s.waited.look s.cur (.queues q) = (s.waited, .ok (s.me.queuesDone q, .queues q)) := by
    simp only [State.look, core_waited_cur]
    rfl
  show execWaitq q s = _
  rw [execWaitq, beginWait_of_look hl]
  rfl

theorem exec_drain (s : State) : exec .drain s = .next (if s.me.drained then s.waited else s.waitingOn .drain) := by
  have hl : s.waited.look s.cur .drain = (s.waited, .ok (s.me.drained, .drain)) := by
    simp only [State.look, core_waited_cur]
    rfl
  show execDrain s = _
  rw [execDrain, beginWait_of_look hl]
  rfl

/-! ### What a counted batch applies after the bundle's reads (04 R77, log 62) -/

theorem countSatisfied_none {s : State} (h : s.me.counting = none) : s.countSatisfied = s := by
  simp only [State.countSatisfied, h]

theorem countSatisfied_some {s : State} {w : Wait} (h : s.me.counting = some w) :
    s.countSatisfied = (s.withMe { s.me with counting := none }).satisfy s.cur w := by
  simp only [State.countSatisfied, h, modMe_eq_withMe]

theorem queueWaitsSample : QueueWaitsSample := by
  intro s h n k q x
  refine ⟨fun hx => ?_, fun hx hn => ?_, fun hx hn => ?_, ?_, ?_, ?_, ?_, ?_, ?_⟩
  · exact handleWaits_raise (trapWaitHandle_none n hx)
  · exact ⟨exec_waitf_of_handle hx hn, exec_waite_of_handle hx hn⟩
  · refine handleWaits_raise ?_
    rw [trapWaitHandle_some n hx, decide_eq_true hn, failIf_true]
  · exact exec_waitb s k
  · exact exec_waitq s q
  · intro t ht
    exact countSatisfied_some ht
  · intro t ht
    exact countSatisfied_some ht
  · intro t ht
    exact countSatisfied_none ht
  · exact exec_drain s

/-! ### HBAR -/

/-- The core has executed its next HBAR, unless it takes up a wait in which it had arrived already (02 R41, 08 R159). -/
def arrived (s : State) : State :=
  if s.me.again then s else s.withMe { s.me with
    hbarCount := s.me.hbarCount + 1, arrivals := (s.me.tick, s.me.tick + 2 * s.me.scTicks) :: s.me.arrivals.take 1 }

@[simp] theorem cur_arrived (s : State) : (arrived s).cur = s.cur := by
  unfold arrived
  split <;> rfl

theorem exec_hbar (s : State) : exec .hbar s = .next ((arrived s).beginWait (.hoop (arrived s).me.hbarCount)) := by
  have ha : (s.modMe fun c => if c.again then c else
      { c with hbarCount := c.hbarCount + 1, arrivals := (c.tick, c.tick + 2 * c.scTicks) :: c.arrivals.take 1 }) = arrived s := by
    rw [modMe_eq_withMe, arrived]
    split
    · exact withMe_me s
    · rfl
  show execHbar s = _
  simp only [execHbar, ha]

theorem hoopBarrierArrives : HoopBarrierArrives := by
  intro s
  show exec .hbar s = .next (if (arrived s).waited.hoopArrived s.cur (arrived s).me.hbarCount then (arrived s).waited
    else (arrived s).waitingOn (.hoop (arrived s).me.hbarCount))
  rw [exec_hbar, beginWait_of_look rfl, cur_arrived]
  rfl

/-! ### WAITA -/

/-- The bytes of a word that WAITA reads. -/
def wordBytes (w : Width) : Nat := match w with | .w4 => 4 | .w8 => 8

theorem waitaAddr_misaligned {s : State} {addr : BitVec 5} {w : Width} (h : (s.me.rs addr).toNat % wordBytes w ≠ 0) :
    s.waitaAddr addr w = .error (.violation clsAlign (s.me.rs addr).toNat) := if_pos h

theorem waitaAddr_translated {s : State} {addr : BitVec 5} {w : Width} {ia : Nat} (h : (s.me.rs addr).toNat % wordBytes w = 0)
    (ht : translate s.me.sys.wins { r := true } (s.me.rs addr).toNat = .ok ia) : s.waitaAddr addr w = .ok ia := by
  refine (if_neg (not_not_intro h)).trans ?_
  rw [ht]

theorem exec_waita_misaligned {s : State} {addr : BitVec 5} (value : BitVec 5) (cond : WCond) {w : Width}
    (h : (s.me.rs addr).toNat % wordBytes w ≠ 0) :
    exec (.waita addr value cond w) s = .next (s.raise (.violation clsAlign (s.me.rs addr).toNat)) := by
  show execWaita addr value cond w s = _
  simp only [execWaita, State.trapWaita, waitaAddr_misaligned h, orRaise_some]

/-- A readable word passes the check at issue. -/
theorem trapWaita_readable {s : State} {addr : BitVec 5} {w : Width} {ia : Nat} (ha : s.waitaAddr addr w = .ok ia)
    (hr : (s.readLine (.core s.cur) ia (wordBytes w)).isOk = true) : s.trapWaita addr w = none := by
  obtain ⟨p, hp⟩ : ∃ p, s.readLine (.core s.cur) ia (wordBytes w) = .ok p := by
    cases hp : s.readLine (.core s.cur) ia (wordBytes w) with
    | error e => rw [hp] at hr; cases hr
    | ok p => exact ⟨p, rfl⟩
  cases w <;> simp only [wordBytes] at hp <;> simp only [State.trapWaita, ha, hp]

theorem look_word {s t : State} {cid : CoreId} {ia : Nat} {value va : Word} {cond : WCond} {w : Width} {first : Option Word}
    {bs : List Byte} (hr : s.readLine (.core cid) ia (wordBytes w) = .ok (t, bs)) :
    s.look cid (.word ia value cond w first va) =
      (t, .ok (condHolds cond w (BitVec.ofNat 64 (natOfBytes bs)) value first,
        .word ia value cond w (some (first.getD (BitVec.ofNat 64 (natOfBytes bs)))) va)) := by
  cases w <;> simp only [wordBytes] at hr <;> simp only [State.look, hr]

/-- WAITA on a word that it can read: one look with no first value. -/
theorem exec_waita_readable {s t : State} {addr value : BitVec 5} {cond : WCond} {w : Width} {ia : Nat} {bs : List Byte}
    (ha : s.waitaAddr addr w = .ok ia) (hr : (s.readLine (.core s.cur) ia (wordBytes w)).isOk = true)
    (hl : s.waited.readLine (.core s.cur) ia (wordBytes w) = .ok (t, bs)) :
    let x := BitVec.ofNat 64 (natOfBytes bs)
    exec (.waita addr value cond w) s = .next (if condHolds cond w x (s.me.rs value) none then t
      else t.modMe fun c => { c with status := .waiting (.word ia (s.me.rs value) cond w (some x) (s.me.rs addr)) }) := by
  intro x
  have he : exec (.waita addr value cond w) s = .next (s.beginWait (.word ia (s.me.rs value) cond w none (s.me.rs addr))) := by
    show execWaita addr value cond w s = _
    simp only [execWaita, trapWaita_readable ha hr, orRaise_none, ha]
  have hw := look_word (value := s.me.rs value) (va := s.me.rs addr) (cond := cond) (first := none) hl
  rw [he]
  cases hc : condHolds cond w x (s.me.rs value) none with
  | true =>
    rw [hc] at hw
    rw [beginWait_of_holds hw]
    rfl
  | false =>
    rw [hc] at hw
    rw [beginWait_of_fails hw]
    rfl

theorem condHolds_eq_w8 (x v : Word) (first : Option Word) : condHolds .eq .w8 x v first = (x == v) := by
  have hx := Nat.mod_eq_of_lt x.isLt
  have hv := Nat.mod_eq_of_lt v.isLt
  simp only [condHolds, hx, hv]
  rw [Bool.eq_iff_iff, beq_iff_eq, beq_iff_eq, BitVec.toNat_inj]

theorem condHolds_eq_w4 (x v : Word) (first : Option Word) :
    condHolds .eq .w4 x v first = (x.setWidth 32 == v.setWidth 32) := by
  simp only [condHolds, ← BitVec.toNat_setWidth]
  rw [Bool.eq_iff_iff, beq_iff_eq, beq_iff_eq, BitVec.toNat_inj]

theorem wordWaitSamples : WordWaitSamples := by
  intro s t addr value cond w ia bs
  refine ⟨fun h => exec_waita_misaligned value cond h, fun h ht hr hl => ?_, ?_, ?_, ?_⟩
  · exact exec_waita_readable (waitaAddr_translated h ht) hr hl
  · rintro rfl rfl
    exact condHolds_eq_w8 _ _ _
  · rintro rfl rfl
    exact condHolds_eq_w4 _ _ _
  · rintro rfl
    rfl

/-- Settles O13: every wait begins by `beginWait`, which looks once at its condition. -/
theorem waitsSampleAtIssue : Obligations.WaitsSampleAtIssue :=
  ⟨queueWaitsSample, hoopBarrierArrives, wordWaitSamples⟩

end Sys2Proof.Proofs
end

section
/-! PROOFS. The dispatcher's events and the supervisor complex's requests (02 R32, 20 R358): when the supervisor complex acts, what an
event about a task does with its subject, and O44. -/

namespace Sys2Proof.Proofs

open Sys2Proof Sys2Proof.Machine Sys2Proof.Laws

/-! ### While the supervisor complex runs, and once the boot is done (23 R395, 25 R413; log 45) -/

theorem supervise_running {s : State} (f : State → State) (h : s.supStopped = false) : s.supervise f = f s := if_neg (by simp [h])

theorem supervise_stopped {s : State} (f : State → State) (h : s.supStopped = true) : s.supervise f = s := if_pos h

/-- What would change nothing changes nothing, whether the supervisor complex runs or not. -/
theorem supervise_of_fixed {s : State} {f : State → State} (h : f s = s) : s.supervise f = s := by
  unfold State.supervise
  split
  · rfl
  · exact h

theorem superviseBooted_done {s : State} (f : State → State) (h : s.supStopped = false) (hb : s.boot.step = .done) :
    s.superviseBooted f = f s :=
  (supervise_running _ h).trans (if_pos (by simp [hb]))

theorem superviseBooted_early {s : State} (f : State → State) (hb : s.boot.step ≠ .done) : s.superviseBooted f = s :=
  supervise_of_fixed (if_neg (by simp [hb]))

theorem superviseBooted_stopped {s : State} (f : State → State) (h : s.supStopped = true) : s.superviseBooted f = s :=
  supervise_stopped _ h

/-! ### Decisions (20 R362) -/

theorem dispatches_iff (s : State) :
    s.dispatches = true ↔ (s.hib.state = .run ∨ s.hib.state = .restore) ∧ s.boot.step = .done := by
  simp [State.dispatches]

theorem exec_dispatchDecision (s : State) :
    exec .dispatchDecision s = .next (if s.dispatches then s.promote.decideNow else s) := rfl

/-! ### Events about the subject's task -/

/-- What an event does with the subject's task, where there is one. -/
def onSubject (f : State → Task → State) (s : State) : State :=
  match s.tasks[s.subj]? with
  | some t => f s t
  | none => s

theorem onSubject_some {s : State} {t : Task} (f : State → Task → State) (h : s.tasks[s.subj]? = some t) : onSubject f s = f s t := by
  simp only [onSubject, h]

theorem onSubject_none {s : State} (f : State → Task → State) (h : s.tasks[s.subj]? = none) : onSubject f s = s := by
  simp only [onSubject, h]

/-- A task that may retire retires (02 R32). -/
def retireReady (s : State) (t : Task) : State := if s.mayRetire t then s.retire t else s

/-- A running task of supervisor kind is over (02 R25). -/
def acknowledge (s : State) (t : Task) : State :=
  if t.kind == 2 && t.state == .running then s.modTask t.va fun t => { t with state := .retiring } else s

/-- A running task is killed (02 R32). -/
def killRunning (s : State) (t : Task) : State :=
  if t.state == .running then s.killTask t (.taskKilled t.va 0 0 0 0 0xFFFF) else s

/-- A task with a halted core is to be pre-empted (19 R352). -/
def preemptHalted (s : State) (t : Task) : State :=
  if t.cores.any fun c => (s.core c).status == .halted then s.requestPreempt t preemptForced else s

theorem exec_taskRetire (s : State) : exec .taskRetire s = .next (onSubject retireReady s) := rfl

theorem exec_eventAcknowledge (s : State) : exec .eventAcknowledge s = .next (s.supervise (onSubject acknowledge)) := rfl

theorem exec_killBySupervisor (s : State) : exec .killBySupervisor s = .next (s.supervise (onSubject killRunning)) := rfl

theorem exec_supervisorPreempt (s : State) : exec .supervisorPreempt s = .next (s.supervise (onSubject preemptHalted)) := rfl

theorem mayRetire_iff (s : State) (t : Task) : s.mayRetire t = true ↔ t.state = .retiring ∨
    (t.kind = 0 ∧ t.state = .running ∧ ∀ c ∈ t.cores, (s.core c).status = .exited ∧ ∀ a ∈ s.accesses, a.ofCore c = false) := by
  simp [State.mayRetire, and_assoc]

theorem retireReady_may {s : State} {t : Task} (h : s.mayRetire t = true) : retireReady s t = s.retire t := if_pos h

/-- A task that is not over, and whose cores do not run it or have not all exited, stays. -/
theorem retireReady_stays {s : State} {t : Task} (hr : t.state ≠ .retiring)
    (h : t.state ≠ .running ∨ t.kind ≠ 0 ∨ ∃ c ∈ t.cores, (s.core c).status ≠ .exited) : retireReady s t = s := by
  refine if_neg fun hm => ?_
  obtain hret | ⟨hk, hrun, hex⟩ := (mayRetire_iff s t).1 hm
  · exact hr hret
  · obtain h | h | ⟨c, hc, h⟩ := h
    · exact h hrun
    · exact h hk
    · exact h (hex c hc).1

theorem acknowledge_running {s : State} {t : Task} (hk : t.kind = 2) (hr : t.state = .running) :
    acknowledge s t = { s with tasks := s.tasks.map fun x => if x.va = t.va then { x with state := .retiring } else x } := by
  simp [acknowledge, hk, hr, State.modTask]

theorem acknowledge_other {s : State} {t : Task} (h : t.kind ≠ 2 ∨ t.state ≠ .running) : acknowledge s t = s := by
  refine if_neg fun ha => ?_
  obtain ⟨hk, hr⟩ : t.kind = 2 ∧ t.state = .running := by simpa using ha
  exact h.elim (· hk) (· hr)

theorem killRunning_running {s : State} {t : Task} (h : t.state = .running) :
    killRunning s t = s.killTask t (.taskKilled t.va 0 0 0 0 0xFFFF) := if_pos (by simp [h])

theorem killRunning_other {s : State} {t : Task} (h : t.state ≠ .running) : killRunning s t = s := if_neg (by simp [h])

theorem preemptHalted_halted {s : State} {t : Task} (h : ∃ c ∈ t.cores, (s.core c).status = .halted) :
    preemptHalted s t = s.requestPreempt t preemptForced := if_pos (by simpa using h)

theorem preemptHalted_other {s : State} {t : Task} (h : ∀ c ∈ t.cores, (s.core c).status ≠ .halted) : preemptHalted s t = s :=
  if_neg (by simpa using h)

/-! ### Requests and registers (20 R358, 19 R350) -/

theorem exec_regStart (s : State) (v : Word) :
    exec (.regStart v) s = .next (s.superviseBooted fun s => s.startRegion (v.toNat % 2 ^ 16) false) := rfl

theorem exec_regKill (s : State) (v : Word) : exec (.regKill v) s = .next (s.supervise fun s => s.killRegion (v.toNat % 2 ^ 16)) := rfl

theorem exec_regUpdate (s : State) (v : Word) :
    exec (.regUpdate v) s = .next (s.supervise fun s => s.updateRegion (v.toNat % 2 ^ 16) false) := rfl

theorem exec_elogLostClear (s : State) (v : Word) : exec (.elogLostClear v) s = .next (s.supervise fun s => s.clearLost v) := rfl

theorem exec_systemRegisterWrite (s : State) (index : BitVec 17) (v : Word) :
    exec (.systemRegisterWrite index v) s = .next (s.superWrite index.toNat v) := rfl

theorem bootIndex_iff (i : Nat) : bootIndex i = true ↔ i = 0x10101 ∨ (0x10200 ≤ i ∧ i < 0x10240) := by
  simp [bootIndex]

/-- The registers of a core lie below the module-shared ones. -/
theorem sharedWrite_low (s : State) {i : Nat} (v : Word) (b : Bool) (h : i < 0x10000) : s.sharedWrite i v b = s := if_pos h

theorem superWrite_booted {s : State} {i : Nat} (v : Word) (h : s.supStopped = false)
    (hi : bootIndex i = false ∨ s.boot.step = .done) : s.superWrite i v = s.sharedWrite i v false := by
  unfold State.superWrite
  split
  case isTrue hb => exact superviseBooted_done _ h (hi.resolve_left (by simp [hb]))
  case isFalse => exact supervise_running _ h

theorem superWrite_early {s : State} {i : Nat} (v : Word) (hi : bootIndex i = true) (hb : s.boot.step ≠ .done) : s.superWrite i v = s :=
  (if_pos hi).trans (superviseBooted_early _ hb)

theorem superWrite_stopped {s : State} (i : Nat) (v : Word) (h : s.supStopped = true) : s.superWrite i v = s := by
  unfold State.superWrite
  split
  · exact superviseBooted_stopped _ h
  · exact supervise_stopped _ h

theorem superWrite_low {s : State} {i : Nat} (v : Word) (h : i < 0x10000) : s.superWrite i v = s := by
  have hb : bootIndex i = false := Bool.eq_false_iff.2 fun hb => by
    have := (bootIndex_iff i).1 hb
    omega
  refine (if_neg (by simp [hb])).trans (supervise_of_fixed ?_)
  exact sharedWrite_low s v false h

/-- Settles O44: each event is the effect on its subject, under the rule for when the supervisor complex acts. -/
theorem dispatcherEventsAct : Obligations.DispatcherEventsAct := by
  intro s t v index
  refine ⟨fun hh hb => ?_, fun h => ?_, fun ht h => ?_, fun ht hr h => ?_, rfl, fun hs ht hk hr => ?_, fun ht h => ?_, fun hs ht hr => ?_,
    fun ht hr => ?_, fun hs ht h => ?_, fun ht h => ?_, fun ht => ⟨?_, ?_, ?_, ?_⟩, fun hs hb => ?_, fun hb => ?_,
    ⟨fun hs _ hi => ?_, fun hi hb => ?_⟩, fun hs => ⟨?_, ?_, ?_, fun hi => ?_⟩, fun hs => ?_⟩
  · rw [exec_dispatchDecision, if_pos ((dispatches_iff s).2 ⟨hh, hb⟩)]
  · rw [exec_dispatchDecision, if_neg fun hd => ?_]
    obtain ⟨hh, hb⟩ := (dispatches_iff s).1 hd
    exact h.elim (fun hn => hh.elim hn.1 hn.2) (· hb)
  · rw [exec_taskRetire, onSubject_some _ ht, retireReady_may ((mayRetire_iff s t).2 h)]
  · rw [exec_taskRetire, onSubject_some _ ht, retireReady_stays hr h]
  · rw [exec_eventAcknowledge, supervise_running _ hs, onSubject_some _ ht, acknowledge_running hk hr]
  · rw [exec_eventAcknowledge, supervise_of_fixed ((onSubject_some _ ht).trans (acknowledge_other h))]
  · rw [exec_killBySupervisor, supervise_running _ hs, onSubject_some _ ht, killRunning_running hr]
  · rw [exec_killBySupervisor, supervise_of_fixed ((onSubject_some _ ht).trans (killRunning_other hr))]
  · rw [exec_supervisorPreempt, supervise_running _ hs, onSubject_some _ ht, preemptHalted_halted h]
  · rw [exec_supervisorPreempt, supervise_of_fixed ((onSubject_some _ ht).trans (preemptHalted_other h))]
  · rw [exec_taskRetire, onSubject_none _ ht]
  · rw [exec_eventAcknowledge, supervise_of_fixed (onSubject_none _ ht)]
  · rw [exec_killBySupervisor, supervise_of_fixed (onSubject_none _ ht)]
  · rw [exec_supervisorPreempt, supervise_of_fixed (onSubject_none _ ht)]
  · rw [exec_regStart, superviseBooted_done _ hs hb]
  · rw [exec_regStart, superviseBooted_early _ hb]
  · rw [exec_systemRegisterWrite, superWrite_booted v hs (hi.imp_left fun he => Bool.eq_false_iff.2 fun hb => he ((bootIndex_iff _).1 hb))]
  · rw [exec_systemRegisterWrite, superWrite_early v ((bootIndex_iff _).2 hi) hb]
  · rw [exec_regKill, supervise_running _ hs]
  · rw [exec_regUpdate, supervise_running _ hs]
  · rw [exec_elogLostClear, supervise_running _ hs]
    rfl
  · rw [exec_systemRegisterWrite, superWrite_low v hi]
  · have hs : s.supStopped = true := Bool.eq_true_of_not_eq_false hs
    simp only [exec_eventAcknowledge, exec_killBySupervisor, exec_supervisorPreempt, exec_regStart, exec_regKill, exec_regUpdate,
      exec_elogLostClear, exec_systemRegisterWrite, supervise_stopped _ hs, superviseBooted_stopped _ hs, superWrite_stopped _ _ hs,
      and_self]

end Sys2Proof.Proofs
end

section
/-! PROOFS. Bond registers, descriptors, the chain table and handles (03 R53 to R59, 08 R177 to R181): which check refuses each move,
what it puts in flight where none does, and O8. -/

namespace Sys2Proof.Proofs

open Sys2Proof Sys2Proof.Machine Sys2Proof.Laws

/-! ### Checks of one rank (07 R125) -/

/-- A failure that none of the later ones outranks is the one raised. -/
theorem pickRaise_cons_some {r : Raise} {l : List (Option Raise)} (h : ∀ o ∈ l, ∀ x ∈ o, r.rank ≤ x.rank) :
    pickRaise (some r :: l) = some r := by
  simp only [pickRaise, List.foldl_cons]
  induction l with
  | nil => rfl
  | cons o l ih =>
    obtain ⟨ho, hl⟩ := List.forall_mem_cons.1 h
    cases o with
    | none => exact ih hl
    | some x =>
      have hx : ¬x.rank < r.rank := Nat.not_lt.2 (ho x rfl)
      simpa only [List.foldl_cons, if_neg hx] using ih hl

/-- Of failures of one rank the first is raised. -/
theorem pickRaise_eq_findSome? {n : Nat} {l : List (Option Raise)} (h : ∀ o ∈ l, ∀ x ∈ o, x.rank = n) :
    pickRaise l = l.findSome? id := by
  induction l with
  | nil => rfl
  | cons o l ih =>
    obtain ⟨ho, hl⟩ := List.forall_mem_cons.1 h
    cases o with
    | none => exact ih hl
    | some r => exact pickRaise_cons_some fun o' ho' x hx => (ho r rfl).trans_le (hl o' ho' x hx).ge

theorem failIf_rank {b : Bool} {r : Raise} {n : Nat} (h : r.rank = n) : ∀ x ∈ failIf b r, x.rank = n := by
  intro x hx
  obtain ⟨-, rfl⟩ := failIf_eq_some.1 hx
  exact h

theorem localAccess_rank (s : State) (a n : Nat) (write : Bool) : ∀ x ∈ s.localAccess a n write, x.rank = 3 := by
  intro x hx
  obtain ⟨cls, -, rfl⟩ := Option.map_eq_some_iff.1 hx
  rfl

theorem localAccess_of_none {s : State} {a n : Nat} {write : Bool} (h : s.me.localCheck a n write = none) :
    s.localAccess a n write = none := by
  rw [State.localAccess, h, Option.map_none]

theorem localAccess_of_some {s : State} {a n cls : Nat} {write : Bool} (h : s.me.localCheck a n write = some cls) :
    s.localAccess a n write = some (.violation cls a) := by
  rw [State.localAccess, h, Option.map_some]

theorem failIf_decide_of {p : Prop} [Decidable p] (r : Raise) (h : p) : failIf (decide p) r = some r := by
  rw [decide_eq_true h, failIf_true]

theorem failIf_decide_of_not {p : Prop} [Decidable p] (r : Raise) (h : ¬p) : failIf (decide p) r = none := by
  rw [decide_eq_false h, failIf_false]

/-! ### BDMOV (03 R58, 08 R181) -/

theorem exec_bdmov (s : State) (bd : BitVec 4) (a : BitVec 5) : exec (.bdmov bd a) s =
    .next (s.orRaise (s.trapBdmov a) fun s => s.delivering 1 [.bd bd ((s.me.rs a).setWidth 16)]) := rfl

theorem trapBdmov_within {s : State} {a : BitVec 5} (h : 1 ≤ (s.me.rs a).toNat ∧ (s.me.rs a).toNat ≤ 512) : s.trapBdmov a = none := by
  rw [State.trapBdmov, decide_eq_true h, Bool.not_true, failIf_false]

theorem trapBdmov_outside {s : State} {a : BitVec 5} (h : s.me.rs a = 0 ∨ 512 < (s.me.rs a).toNat) :
    s.trapBdmov a = some (.trap 0x07 (s.me.rs a) 0) := by
  have hn : ¬(1 ≤ (s.me.rs a).toNat ∧ (s.me.rs a).toNat ≤ 512) := by
    rintro ⟨h1, h2⟩
    obtain h0 | h3 := h
    · rw [h0] at h1
      exact absurd h1 (by decide)
    · omega
  rw [State.trapBdmov, decide_eq_false hn, Bool.not_false, failIf_true]

/-! ### TDLD and TDST (08 R177) -/

/-- The immediate of a descriptor move counts pieces of 32 bytes. -/
theorem tdAddr_eq (c : Core) (a : BitVec 5) (imm : BitVec 11) : c.tdAddr a imm = (c.rs a + 32 * imm.setWidth 64).toNat := by
  rw [Core.tdAddr, zext, BitVec.mul_comm]

theorem exec_tdld (s : State) (td : BitVec 6) (a : BitVec 5) (imm : BitVec 11) : exec (.tdld td a imm) s =
    .next (s.orRaise (s.trapTdMove td a imm false) fun s => s.loading 3 (s.me.tdAddr a imm) 32 (.td td)) := rfl

theorem exec_tdst (s : State) (td : BitVec 6) (a : BitVec 5) (imm : BitVec 11) : exec (.tdst td a imm) s =
    .next (s.orRaise (s.trapTdMove td a imm true) fun s =>
      s.storing (s.me.tdAddr a imm) (bytesOfNat 32 s.me.td[td.toNat].toNat) false) := rfl

theorem trapTdMove_eq (s : State) (td : BitVec 6) (a : BitVec 5) (imm : BitVec 11) (write : Bool) :
    s.trapTdMove td a imm write = [failIf (decide (s.me.tdAddr a imm % 32 ≠ 0)) (tdescTrap td),
      s.localAccess (s.me.tdAddr a imm) 32 write].findSome? id :=
  pickRaise_eq_findSome? (n := 3) (by simpa using ⟨failIf_rank rfl, localAccess_rank _ _ _ _⟩)

theorem trapTdMove_misaligned {s : State} {td : BitVec 6} {a : BitVec 5} {imm : BitVec 11} (write : Bool)
    (h : s.me.tdAddr a imm % 32 ≠ 0) : s.trapTdMove td a imm write = some (tdescTrap td) := by
  rw [trapTdMove_eq, failIf_decide_of _ h]
  rfl

theorem trapTdMove_aligned {s : State} {td : BitVec 6} {a : BitVec 5} {imm : BitVec 11} (write : Bool)
    (h : s.me.tdAddr a imm % 32 = 0) : s.trapTdMove td a imm write = s.localAccess (s.me.tdAddr a imm) 32 write := by
  rw [trapTdMove_eq, failIf_decide_of_not _ (not_not_intro h)]
  cases hl : s.localAccess (s.me.tdAddr a imm) 32 write <;> rfl

theorem bondAndDescriptorMoves : BondAndDescriptorMoves := by
  intro s bd td e a b imm f
  rw [← tdAddr_eq]
  refine ⟨fun h1 h2 => ?_, fun h => ?_, rfl, rfl, fun h => ⟨fun hc => ?_, fun hc => ?_⟩, fun h => ⟨?_, ?_⟩,
    fun cls h => ⟨fun hc => ?_, fun hc => ?_⟩⟩
  · rw [exec_bdmov, trapBdmov_within ⟨h1, h2⟩, orRaise_none]
  · rw [exec_bdmov, trapBdmov_outside h, orRaise_some]
  · rw [exec_tdld, trapTdMove_aligned _ h, localAccess_of_none hc, orRaise_none]
  · rw [exec_tdst, trapTdMove_aligned _ h, localAccess_of_none hc, orRaise_none]
  · rw [exec_tdld, trapTdMove_misaligned _ h, orRaise_some]
    rfl
  · rw [exec_tdst, trapTdMove_misaligned _ h, orRaise_some]
    rfl
  · rw [exec_tdld, trapTdMove_aligned _ h, localAccess_of_some hc, orRaise_some]
  · rw [exec_tdst, trapTdMove_aligned _ h, localAccess_of_some hc, orRaise_some]

/-! ### HADDR, ADVC and ADVP (03 R53 to R55; 08 R179, R180) -/

theorem exec_advc (s : State) (h : BitVec 4) (n : BitVec 10) : exec (.advc h n) s =
    .next (s.orRaise (s.trapAdvc h n) fun s => s.delivering 1 [.advance h false n.toNat]) := rfl

theorem exec_advp (s : State) (h : BitVec 4) (n : BitVec 10) : exec (.advp h n) s =
    .next (s.orRaise (s.trapAdvp h n) fun s => s.delivering 1 [.advance h true n.toNat]) := rfl

theorem exec_haddr_configured {s : State} {h : BitVec 4} {x : Handle} (d : BitVec 5) (k : BitVec 10)
    (hx : s.me.handles[h.toNat] = some x) :
    exec (.haddr d h k) s = .next (s.delivering 1 [.s d (BitVec.ofNat 64 (x.slotAddr (x.cons + k.toNat)))]) := by
  show execHaddr d h k s = _
  simp only [execHaddr, State.trapUnset, hx, Option.isNone_some, failIf_false, orRaise_none]
  rfl

theorem exec_haddr_unset {s : State} {h : BitVec 4} (d : BitVec 5) (k : BitVec 10) (hx : s.me.handles[h.toNat] = none) :
    exec (.haddr d h k) s = .next (s.raise (handleTrap h)) := by
  show execHaddr d h k s = _
  rw [execHaddr, State.trapUnset, hx, Option.isNone_none, failIf_true, orRaise_some]

theorem trapAdvc_configured {s : State} {h : BitVec 4} {x : Handle} (n : BitVec 10) (hx : s.me.handles[h.toNat] = some x) :
    s.trapAdvc h n = failIf (decide (x.filled < n.toNat)) (handleTrap h) := by
  simp only [State.trapAdvc, hx]

theorem trapAdvp_configured {s : State} {h : BitVec 4} {x : Handle} (n : BitVec 10) (hx : s.me.handles[h.toNat] = some x) :
    s.trapAdvp h n = failIf (decide (h = 15 ∨ x.slotCount - x.filled < n.toNat)) (handleTrap h) := by
  simp only [State.trapAdvp, hx, Bool.decide_or, beq_eq_decide]
  rfl

theorem trapAdvc_unset {s : State} {h : BitVec 4} (n : BitVec 10) (hx : s.me.handles[h.toNat] = none) :
    s.trapAdvc h n = some (handleTrap h) := by
  simp only [State.trapAdvc, hx]

theorem trapAdvp_unset {s : State} {h : BitVec 4} (n : BitVec 10) (hx : s.me.handles[h.toNat] = none) :
    s.trapAdvp h n = some (handleTrap h) := by
  simp only [State.trapAdvp, hx]

theorem handleMoves : HandleMoves := by
  intro s d h k n x hx
  refine ⟨exec_haddr_configured d k hx, fun hn => ?_, fun hn => ?_, fun h15 hn => ?_, fun hn => ?_⟩
  · rw [exec_advc, trapAdvc_configured n hx, failIf_decide_of_not _ (Nat.not_lt.2 hn), orRaise_none]
  · rw [exec_advc, trapAdvc_configured n hx, failIf_decide_of _ hn, orRaise_some]
    rfl
  · rw [exec_advp, trapAdvp_configured n hx, failIf_decide_of_not _ (not_or_intro h15 (Nat.not_lt.2 hn)), orRaise_none]
  · rw [exec_advp, trapAdvp_configured n hx, failIf_decide_of _ hn, orRaise_some]
    rfl

/-! ### HSET (03 R53, 08 R179; log 52) -/

theorem exec_hset (s : State) (h : BitVec 4) (a : BitVec 5) : exec (.hset h a) s =
    .next (s.orRaise (s.trapHset h a) fun s => s.loading 3 (s.me.rs a).toNat 16 (.handle h s.me.stashBase)) := rfl

theorem trapHset_eq (s : State) (h : BitVec 4) (a : BitVec 5) :
    s.trapHset h a = [failIf (decide ((s.me.rs a).toNat % 16 ≠ 0)) (handleTrap h), s.localAccess (s.me.rs a).toNat 16 false,
      failIf (s.hsetRecord a).isNone (handleTrap h), failIf (s.me.q.all.any fun k => k.kind.names h) (handleTrap h)].findSome? id :=
  pickRaise_eq_findSome? (n := 3)
    (by simpa using ⟨failIf_rank rfl, localAccess_rank _ _ _ _, failIf_rank rfl, failIf_rank rfl⟩)

theorem trapHset_misaligned {s : State} {a : BitVec 5} (h : BitVec 4) (ha : (s.me.rs a).toNat % 16 ≠ 0) :
    s.trapHset h a = some (handleTrap h) := by
  rw [trapHset_eq, failIf_decide_of _ ha]
  rfl

theorem trapHset_violation {s : State} {a : BitVec 5} {cls : Nat} (h : BitVec 4) (ha : (s.me.rs a).toNat % 16 = 0)
    (hc : s.me.localCheck (s.me.rs a).toNat 16 false = some cls) : s.trapHset h a = some (.violation cls (s.me.rs a).toNat) := by
  rw [trapHset_eq, failIf_decide_of_not _ (not_not_intro ha), localAccess_of_some hc]
  rfl

/-- Where the record can be read, HSET is refused for a bad record or for a handle that an incomplete command names. -/
theorem trapHset_readable {s : State} {a : BitVec 5} (h : BitVec 4) (ha : (s.me.rs a).toNat % 16 = 0)
    (hc : s.me.localCheck (s.me.rs a).toNat 16 false = none) :
    s.trapHset h a = failIf (decide (s.hsetRecord a = none ∨ (s.me.q.all.any fun k => k.kind.names h) = true)) (handleTrap h) := by
  rw [trapHset_eq, failIf_decide_of_not _ (not_not_intro ha), localAccess_of_none hc]
  cases hr : s.hsetRecord a <;> cases hn : s.me.q.all.any fun k => k.kind.names h <;> rfl

/-- What a handle is that a record configures: its fields in range, and its slots within the scratchpad (03 R53). -/
theorem handleOf_wf {scratchEnd n : Nat} {x : Handle} (h : handleOf scratchEnd n = some x) :
    x.base % 512 = 0 ∧ x.slotBytes ≠ 0 ∧ x.slotBytes % 512 = 0 ∧ 0 < x.slotCount ∧ x.slotCount ≤ 1024 ∧
    x.prod < 2 * x.slotCount ∧ x.cons < 2 * x.slotCount ∧ x.filled ≤ x.slotCount ∧
    x.base + x.slotBytes * x.slotCount ≤ scratchEnd := by
  obtain ⟨hok, hx⟩ := Option.ite_none_right_eq_some.1 h
  cases hx
  simpa only [Bool.and_eq_true, beq_iff_eq, bne_iff_ne, decide_eq_true_eq, and_assoc, ← Nat.pos_iff_ne_zero] using hok

theorem result_of_handle {l : LocalLoad} {h : BitVec 4} {top : Nat} {bs : List Byte} {v : Handle} (hl : l.dest = .handle h top)
    (hv : handleOf top (natOfBytes bs) = some v) : l.result bs = .handle h v := by
  simp only [LocalLoad.result, hl, hv]

theorem handles_commit_handle (c : Core) (p : Pending) (h : BitVec 4) (v : Handle) :
    (c.commit { p with res := .handle h v }).handles[h.toNat] = some v := Vector.getElem_set_self _

theorem handleSetDelivers : HandleSetDelivers := by
  intro s h a x l bs v p ha hc hr hn
  refine ⟨?_, result_of_handle, handles_commit_handle _ _ _ _, handleOf_wf hr⟩
  rw [exec_hset, trapHset_readable h ha hc, failIf_decide_of_not _ (by simp [hr, hn]), orRaise_none]

theorem handleTraps : HandleTraps := by
  intro s d a h k n cls out at_
  refine ⟨fun hx => ⟨exec_haddr_unset d k hx, ?_, ?_⟩, fun ha => ?_, fun ha hc => ?_, fun ha hc hbad => ?_⟩
  · rw [exec_advc, trapAdvc_unset n hx, orRaise_some]
    rfl
  · rw [exec_advp, trapAdvp_unset n hx, orRaise_some]
    rfl
  · rw [exec_hset, trapHset_misaligned h ha, orRaise_some]
    rfl
  · rw [exec_hset, trapHset_violation h ha hc, orRaise_some]
  · rw [exec_hset, trapHset_readable h ha hc, failIf_decide_of _ hbad, orRaise_some]
    rfl

/-- Settles O8: each move is its checks, of which the first that fails raises, and then its result in flight. -/
theorem descriptorAndHandleMovesDeliver : Obligations.DescriptorAndHandleMovesDeliver :=
  ⟨bondAndDescriptorMoves, handleMoves, handleSetDelivers, handleTraps⟩

end Sys2Proof.Proofs
end

section
/-! PROOFS. An sc of a core that has neither loads nor stores in flight (06 R105, 07 R139): its due results are committed, and O9. -/

namespace Sys2Proof.Proofs

open Sys2Proof Sys2Proof.Machine Sys2Proof.Laws

/-! ### The scalar and predicate files (03 R43, R44) -/

/-- A result to a scalar register touches the scalar file alone. -/
theorem ws_eq (c : Core) (r : BitVec 5) (v : Word) : c.ws r v = { c with s := (c.ws r v).s } := by
  unfold Core.ws
  split <;> rfl

/-- A result to a predicate touches the predicate file alone. -/
theorem wp_eq (c : Core) (r : BitVec 4) (b : Bool) : c.wp r b = { c with p := (c.wp r b).p } := by
  unfold Core.wp
  split <;> rfl

theorem rs_ws (c : Core) (r q : BitVec 5) (v : Word) :
    (c.ws r v).rs q = if q = 0 then 0 else if q = r then v else c.rs q := by
  by_cases hq : q = 0
  · simp [Core.rs, hq]
  · by_cases hr : r = 0
    · simp only [Core.rs, Core.ws, hq, hr, if_true, if_false]
    · simp only [Core.rs, Core.ws, hq, hr, if_false, Vector.getElem_set, BitVec.toNat_inj, eq_comm]

theorem rp_wp (c : Core) (r q : BitVec 4) (b : Bool) :
    (c.wp r b).rp q = if q = 0 then true else if q = r then b else c.rp q := by
  by_cases hq : q = 0
  · simp [Core.rp, hq]
  · by_cases hr : r = 0
    · simp only [Core.rp, Core.wp, hq, hr, if_true, if_false]
    · simp only [Core.rp, Core.wp, hq, hr, if_false, Vector.getElem_set, BitVec.toNat_inj, eq_comm]

/-! ### An sc begins -/

/-- A core at the beginning of its next sc, with nothing of that sc carried out yet. -/
def begun (c : Core) : Core := { c with pPrev := c.p, cyc := c.cyc + 1, tick := c.tick + c.scTicks }

/-- What is left of the results in flight once those that are due have been committed. -/
def landing (sc : Nat) (due : List Pending) (c : Core) : Core :=
  { c with landed := due.filterMap fun p => match p.res with | .vec phys _ false => some phys | _ => none
           pend := c.pend.filter fun p => p.readyAt != sc
           bypass := c.bypass.filter fun b => decide (sc < b.readyAt + 3 * c.vecScale) }

/-- A core whose results due in an sc have become readable. -/
def committed (sc : Nat) (c : Core) : Core := landing sc (duePending c.pend sc) ((duePending c.pend sc).foldl Core.commit c)

/-- A core without the stores that take effect in an sc. -/
def dropStores (sc : Nat) (c : Core) : Core := { c with loc := { c.loc with stores := c.loc.stores.filter fun st => st.due != sc } }

theorem settle_eq (s : State) (cid : CoreId) : s.settle cid =
    (((s.core cid).loc.stores.filter fun st => st.due == (s.core cid).sc).foldl (fun s st => s.performStore cid st)
      ((s.performLoads cid).modCore cid (dropStores (s.core cid).sc))).modCore cid (committed (s.core cid).sc) := rfl

theorem modCore_congr {s : State} {c : CoreId} {f g : Core → Core} (h : f (s.core c) = g (s.core c)) : s.modCore c f = s.modCore c g := by
  rw [State.modCore, h, State.modCore]

theorem performLoads_of_nil {s : State} {cid : CoreId} (h : (s.core cid).loc.loads = []) : s.performLoads cid = s := by
  simp only [State.performLoads, h, List.filter_nil, List.isEmpty_nil, if_true]

theorem dropStores_of_nil (sc : Nat) {c : Core} (h : c.loc.stores = []) : dropStores sc c = c := by
  have hf : (c.loc.stores.filter fun st => st.due != sc) = c.loc.stores := by rw [h, List.filter_nil]
  rw [dropStores, hf]

/-- Where no load and no store is in flight an sc commits the due results and does nothing else. -/
theorem settle_of_nil {s : State} {cid : CoreId} (hl : (s.core cid).loc.loads = []) (hs : (s.core cid).loc.stores = []) :
    s.settle cid = s.modCore cid fun c => committed c.sc c := by
  rw [settle_eq, performLoads_of_nil hl, hs, List.filter_nil, List.foldl_nil, modCore_modCore]
  refine modCore_congr ?_
  rw [dropStores_of_nil _ hs]

theorem tick_of_nil {s : State} {cid : CoreId} (hl : (s.core cid).loc.loads = []) (hs : (s.core cid).loc.stores = []) :
    s.tick cid = s.modCore cid fun c => committed (begun c).sc (begun c) := by
  show (s.modCore cid begun).settle cid = _
  rw [settle_of_nil (by rwa [core_modCore_same]) (by rwa [core_modCore_same]), modCore_modCore]

/-! ### One result in flight -/

theorem me_delivering (s : State) (lat : Nat) (l : List Result) :
    (s.delivering lat l).me = { s.me with pend := s.me.pend ++ l.map (s.flight lat) } := me_withMe s _

theorem sc_begun {c : Core} (h : c.cyc.toNat + 1 < 2 ^ 64) : (begun c).sc = c.sc + 1 := by
  show (c.cyc + 1).toNat = _
  rw [BitVec.toNat_add]
  exact Nat.mod_eq_of_lt h

/-- The one result of a core that is due in the sc that begins is committed in it. -/
theorem committed_begun_of_single {c : Core} {p : Pending} (hp : c.pend = [p]) (hr : p.readyAt = (begun c).sc) :
    committed (begun c).sc (begun c) = landing (begun c).sc [p] ((begun c).commit p) := by
  have hdue : duePending (begun c).pend (begun c).sc = [p] := by
    show duePending c.pend _ = _
    simp [duePending, hp, hr, insertPending]
  rw [committed, hdue]
  rfl

/-- A core with one result in flight. -/
def holding (c : Core) (p : Pending) : Core := { c with pend := [p] }

/-- The sc after a lone result's issue: where it takes one sc, it is committed. -/
theorem me_tick_delivering {s : State} (hp : s.me.pend = []) (hl : s.me.loc.loads = []) (hs : s.me.loc.stores = [])
    (hc : s.me.cyc.toNat + 1 < 2 ^ 64) (r : Result) :
    ((s.delivering 1 [r]).tick s.cur).me =
      landing (s.me.sc + 1) [s.flight 1 r] ((begun (holding s.me (s.flight 1 r))).commit (s.flight 1 r)) := by
  have hme : (s.delivering 1 [r]).me = holding s.me (s.flight 1 r) := by
    rw [me_delivering, hp]
    rfl
  have hsc : (begun (holding s.me (s.flight 1 r))).sc = s.me.sc + 1 := sc_begun hc
  have htick : (s.delivering 1 [r]).tick s.cur = (s.delivering 1 [r]).modMe fun c => committed (begun c).sc (begun c) :=
    tick_of_nil (s := s.delivering 1 [r]) (by show (s.delivering 1 [r]).me.loc.loads = []; rwa [delivering_me_loc])
      (by show (s.delivering 1 [r]).me.loc.stores = []; rwa [delivering_me_loc])
  rw [htick, me_modMe, hme, committed_begun_of_single rfl hsc.symm, hsc]

/-- Nothing is left in flight once the results of an sc have been committed where all are of that sc. -/
theorem pend_landing_of_single {sc : Nat} {p : Pending} {due : List Pending} {c : Core} (h : c.pend = [p]) (hp : p.readyAt = sc) :
    (landing sc due c).pend = [] := by
  simp [landing, h, hp]

/-- Settles O9: with nothing else in flight the next sc commits the result, and a scalar or predicate result touches its file alone. -/
theorem resultsBecomeReadable : Obligations.ResultsBecomeReadable := by
  intro s r q p v b hp hl hs hc t u
  have ht : t.me = landing (s.me.sc + 1) [s.flight 1 (.s r v)] ((begun (holding s.me (s.flight 1 (.s r v)))).ws r v) :=
    me_tick_delivering hp hl hs hc (.s r v)
  have hu : u.me = landing (s.me.sc + 1) [s.flight 1 (.p p b)] ((begun (holding s.me (s.flight 1 (.p p b)))).wp p b) :=
    me_tick_delivering hp hl hs hc (.p p b)
  have htf := ht.trans (congrArg _ (ws_eq _ r v))
  have huf := hu.trans (congrArg _ (wp_eq _ p b))
  have hrp : ∀ x, u.me.rp x = if x = 0 then true else if x = p then b else s.me.rp x := by
    rw [hu]
    exact fun x => rp_wp _ p x b
  refine ⟨?_, ?_, (congrArg Core.p htf :), (congrArg Core.v htf :), (congrArg Core.td htf :), (congrArg Core.ctl htf :),
    (congrArg Core.sys htf :), (congrArg (fun c => c.loc.lmem) htf :), ?_, ?_, fun x hx => ?_, (congrArg Core.s huf :)⟩
  · rw [me_delivering]
    rfl
  · rw [ht]
    exact rs_ws _ r q v
  · rw [htf]
    exact pend_landing_of_single rfl rfl
  · rw [hrp, if_pos rfl]
  · rw [hrp, if_neg hx, Core.rp]
    split <;> rfl

end Sys2Proof.Proofs
end

section
/-! PROOFS. The state at reset and at a launch (03 R60, R61; 19 R350): every core alike, every register at its Reset column, O59 and
O60. -/

namespace Sys2Proof.Proofs

open Sys2Proof Sys2Proof.Machine Sys2Proof.Laws

/-! ### Reset (19 R350, 20 R358, 22 R391, 23 R393; log 1, log 2) -/

theorem core_reset (c : CoreId) : State.reset.core c = {} := Vector.getElem_replicate _

/-- At reset every core reads what core 0 reads. -/
theorem ctlRead_reset (c : CoreId) (index : Nat) : State.reset.ctlRead c index = State.reset.ctlRead 0 index := by
  simp only [State.ctlRead, core_reset]

theorem hbm_reset_get (a : Nat) : State.reset.hbm.get a = 0 := mem_get_nil a

theorem memOk_reset : State.reset.memOk = true := rfl

theorem localOk_reset : State.reset.localOk = true := by
  simp only [State.localOk, State.reset, Vector.all_replicate]
  rfl

/-- The core-local registers at reset: COREID is the core's number, PFBUD its whole budget, and the domains run at code 0. -/
theorem coreLocal_reset (c : CoreId) :
    State.reset.sysLocalRead c 0x07 = some (BitVec.ofNat 64 c.val) ∧ State.reset.sysLocalRead c 0x10 = some 4096 ∧
    State.reset.sysLocalRead c 0x00 = some 0 ∧ State.reset.sysLocalRead c 0x05 = some 0 ∧
    (State.reset.core c).codes = Vector.replicate 4 0 := by
  unfold State.sysLocalRead
  rw [core_reset]
  exact ⟨rfl, rfl, rfl, rfl, rfl⟩

/-- Settles O59: every core is as an unused one, no memory lists a byte, and each named register is evaluated. -/
theorem resetState : Obligations.ResetState := by
  unfold Obligations.ResetState
  intro s user shared
  have huser : ∀ {index v : Nat}, State.reset.ctlRead 0 index = some (BitVec.ofNat 64 v) → user index v :=
    fun h c => (ctlRead_reset c _).trans h
  have hshared : ∀ {index v : Nat}, State.reset.sharedRead index = some (BitVec.ofNat 64 v) → shared index v := id
  exact ⟨memOk_reset, localOk_reset, hbm_reset_get, huser rfl, huser rfl, huser rfl, huser rfl, huser rfl, huser rfl, huser rfl,
    huser rfl, huser rfl, huser rfl, huser rfl, huser rfl, huser rfl, huser rfl, huser rfl, huser rfl, huser rfl, huser rfl,
    coreLocal_reset, hshared rfl, hshared rfl, hshared rfl, hshared rfl, hshared rfl, hshared rfl, hshared rfl, hshared rfl, hshared rfl,
    hshared rfl, hshared rfl, hshared rfl, hshared rfl, hshared rfl, hshared rfl, hshared rfl, hshared rfl, hshared rfl⟩

/-! ### Launch (03 R61) -/

theorem getElem_of_cleared {α : Type} {n : Nat} {l : Vector α n} {x : α} (h : l = Vector.replicate n x) (i : Fin n) : l[i] = x := by
  rw [h]
  exact Vector.getElem_replicate i.isLt

/-- A core that has begun no chain reads 0 in chprog (13 R283). -/
theorem chainProg_unused : Chain.prog {} = 0 := rfl

theorem rs_of_cleared {c : Core} (h : c.s = Vector.replicate 32 0) (q : BitVec 5) : c.rs q = 0 := by
  simp only [Core.rs, h, Vector.getElem_replicate, ite_self]

theorem rp_of_cleared {c : Core} {q : BitVec 4} (h : c.p = Vector.replicate 16 false) (hq : q ≠ 0) : c.rp q = false := by
  simp only [Core.rp, h, Vector.getElem_replicate, if_neg hq]

/-- A name reads zero where the file is clear and no transient result is in its window, whatever register it stands for. -/
theorem rv_of_cleared {c : Core} (hb : c.bypass = []) (h : c.v = Vector.replicate 1536 0) (n : Nat) : c.rv n = 0 := by
  simp only [Core.rv, Core.readPhys, hb, List.find?_nil, Core.fileV, h]
  cases hn : (Vector.replicate 1536 (0 : VecReg))[c.phys n]? with
  | none => rfl
  | some x =>
    obtain ⟨hlt, hx⟩ := Vector.getElem?_eq_some_iff.1 hn
    rw [Option.getD_some, ← hx, Vector.getElem_replicate]

/-- rsize: the vector footprint in whole groups of 32, at most 1,024, fits the register's 11 bits. -/
theorem rsize_launch (vfoot : Nat) : (BitVec.ofNat 11 (min 1024 (vfoot / 32 * 32))).toNat = min 1024 (32 * (vfoot / 32)) := by
  rw [BitVec.toNat_ofNat, Nat.mul_comm]
  exact Nat.mod_eq_of_lt (by omega)

/-- Settles O60: a launched core is an unused one but for its context, its footprint's rsize among it. -/
theorem launchState : Obligations.LaunchState := by
  intro c t r x y now wins entry granted k
  exact ⟨rs_of_cleared rfl, fun _ => rp_of_cleared rfl, rv_of_cleared rfl rfl, mem_get_nil, getElem_of_cleared rfl,
    getElem_of_cleared rfl, getElem_of_cleared rfl, getElem_of_cleared rfl, rfl, rfl, rfl, rfl, rfl, rfl, rfl, rfl, rfl, rfl, rfl,
    getElem_of_cleared rfl, chainProg_unused, rfl, rsize_launch t.vfoot, rfl, rfl⟩

end Sys2Proof.Proofs
end

section
/-! PROOFS. Widening, reductions, scans and permutes of the V slot (04 R81, 09 R189, R193 to R195): the checks that usable names pass,
what a group of results leaves in flight, the doubling scan, and O25. -/

namespace Sys2Proof.Proofs

open Sys2Proof Sys2Proof.Machine Sys2Proof.Laws

/-! ### Usable names and results in flight (03 R47, R49; 08 R147) -/

theorem vwinCheck_of_usable {s : State} {l : List Nat} (h : s.me.usable l) : s.vwinCheck l = none := by
  refine vwinCheck_usable s l fun n hn => ?_
  rcases h n hn with hfix | ⟨hpos, hfit⟩
  · simp [Core.badName, Nat.not_le.2 hfix]
  · have hsize : s.me.ctl.rsize ≠ 0#11 := fun h0 => by simp [h0] at hpos
    simp [Core.badName, hsize, Nat.not_lt.2 hfit]

theorem flight_delivering (s : State) (lat : Nat) (l : List Result) : (s.delivering lat l).flight = s.flight := by
  funext n r
  rw [State.flight, me_delivering]
  rfl

/-- Results that are put in flight one after the other are in flight together. -/
theorem emit_delivering (s : State) (lat : Nat) (l : List Result) (r : Result) :
    (s.delivering lat l).emit lat r = s.delivering lat (l ++ [r]) := by
  rw [emit_eq_delivering, State.delivering, flight_delivering, me_delivering, List.append_assoc, ← List.map_append]
  exact withMe_withMe s _ _

/-- Results put in flight by turns, which do not depend on what is in flight already, are those of the state before them. -/
theorem foldl_emitV (s : State) (lat : Nat) (f : State → Nat → Result) (hf : ∀ n l r, f (s.delivering n l) r = f s r) (rs : List Nat) :
    rs.foldl (fun t r => t.emitV lat (f t r)) s = s.delivering (lat * s.me.vecScale) (rs.map (f s)) := by
  induction rs using List.reverseRecOn with
  | nil => exact (delivering_nil s _).symm
  | append_singleton rs r ih =>
    have hscale : (s.delivering (lat * s.me.vecScale) (rs.map (f s))).me.vecScale = s.me.vecScale := by
      rw [me_delivering]; rfl
    rw [List.foldl_append, ih, List.foldl_cons, List.foldl_nil, State.emitV, hscale, hf, emit_delivering, List.map_append,
      List.map_singleton]

/-- The names of a state do not depend on what is in flight. -/
theorem phys_delivering (s : State) (lat : Nat) (l : List Result) (n : Nat) : (s.delivering lat l).me.phys n = s.me.phys n := by
  rw [me_delivering]; rfl

/-- A widening instruction on usable names puts every register of its group in flight, each with every k-th wide element (09 R189). -/
theorem widen_of_usable {s : State} {d a b : BitVec 6} {g : Group} (op : LaneOp) (ty : Ty)
    (h : s.me.usable ((List.range g.count).map (d.toNat + ·) ++ [a.toNat, b.toNat])) :
    s.widen op d a b ty g = s.delivering (5 * s.me.vecScale) ((List.range g.count).map fun r =>
      .vec (s.me.phys (d.toNat + r)) (vecOf (wideElt ty g).width (everyKth g.count r
        (List.zipWith (wideOp op s.me.ctl.fmode ty g) (elems (s.vr a) (tyBits ty)) (elems (s.vr b) (tyBits ty))))) false) := by
  rw [State.widen, groupNames, vwinCheck_of_usable h, orRaise_none]
  refine foldl_emitV s 5 _ (fun n l r => ?_) _
  rw [phys_delivering]

/-- An instruction that delivers one register raises nothing where its names are usable. -/
theorem orRaise_trapV_of_usable {s : State} {l : List (BitVec 6)} (h : s.me.usable (l.map (·.toNat))) (f : State → State) :
    s.orRaise (s.trapV l) f = f s := by
  rw [State.trapV, vwinCheck_of_usable h, orRaise_none]

theorem vectorWideningReductionsAndPermutes : VectorWideningReductionsAndPermutes := by
  intro s d a b ty g op acc t w m wide spread
  refine ⟨fun h => ⟨?_, ?_⟩, fun h => ⟨?_, ?_⟩, fun h => ⟨?_, ?_, ?_⟩⟩
  · exact congrArg Host.Outcome.next (widen_of_usable opMul ty h)
  · exact congrArg Host.Outcome.next (widen_of_usable opAdd ty h)
  all_goals exact congrArg Host.Outcome.next (orRaise_trapV_of_usable h _)

/-! ### The scan (09 R193) -/

/-- The combination, from the left, of the elements from `lo` to `lo + n` of a list. -/
def combined (op : Nat → Nat → Nat) (xs : List Nat) (lo : Nat) : Nat → Nat
  | 0 => xs.getD lo 0
  | n + 1 => op (combined op xs lo n) (xs.getD (lo + n + 1) 0)

/-- Under an associative operation two neighbouring stretches combine into one. -/
theorem combined_append {op : Nat → Nat → Nat} (hop : ∀ x y z, op (op x y) z = op x (op y z)) (xs : List Nat) (lo m n : Nat) :
    op (combined op xs lo m) (combined op xs (lo + m + 1) n) = combined op xs lo (m + 1 + n) := by
  induction n with
  | zero => rfl
  | succ n ih =>
    have hlast : lo + m + 1 + n + 1 = lo + (m + 1 + n) + 1 := by omega
    show op _ (op _ _) = op (combined op xs lo (m + 1 + n)) (xs.getD (lo + (m + 1 + n) + 1) 0)
    rw [← hop, ih, hlast]

/-- From the first element on, a combination is a left fold. -/
theorem combined_zero_eq_foldl (op : Nat → Nat → Nat) {xs : List Nat} {i : Nat} (h : i < xs.length) :
    combined op xs 0 i = (xs.take (i + 1)).tail.foldl op (xs[0]'(by omega)) := by
  obtain ⟨x, l, rfl⟩ := List.exists_cons_of_length_pos (Nat.zero_lt_of_lt h)
  induction i with
  | zero => rfl
  | succ i ih =>
    have hi : i < l.length := by simpa using h
    have hlast : (x :: l).getD (0 + i + 1) 0 = l[i] := by simp [hi]
    rw [combined, ih (Nat.lt_of_succ_lt h), hlast]
    simp only [List.take_succ_cons, List.tail_cons, List.getElem_cons_zero]
    rw [List.take_succ_eq_append_getElem hi, List.foldl_append, List.foldl_cons, List.foldl_nil]

/-- A list whose element i is the combination of the last k elements of `xs` up to i, or of all of them where there are fewer. -/
def Scanned (op : Nat → Nat → Nat) (xs : List Nat) (k : Nat) (ys : List Nat) : Prop :=
  ys.length = xs.length ∧ ∀ i < xs.length, ys[i]? = some (combined op xs (i + 1 - k) (min i (k - 1)))

theorem scanned_one (op : Nat → Nat → Nat) (xs : List Nat) : Scanned op xs 1 xs := by
  refine ⟨rfl, fun i hi => ?_⟩
  simp [combined, hi]

/-- A step of the scan leaves its first k elements alone. -/
theorem scanStep_getElem?_of_lt (op : Nat → Nat → Nat) {ys : List Nat} {k i : Nat} (hk : k ≤ ys.length) (h : i < k) :
    (ys.take k ++ List.zipWith op ys (ys.drop k))[i]? = ys[i]? := by
  rw [List.getElem?_append_left (by rw [List.length_take]; omega), List.getElem?_take_of_lt h]

/-- A step of the scan combines each further element with the one k before it. -/
theorem scanStep_getElem?_of_le {op : Nat → Nat → Nat} {ys : List Nat} {k i x y : Nat} (hk : k ≤ i) (hx : ys[i - k]? = some x)
    (hy : ys[i]? = some y) : (ys.take k ++ List.zipWith op ys (ys.drop k))[i]? = some (op x y) := by
  obtain ⟨hi, -⟩ := List.getElem?_eq_some_iff.1 hy
  have hlen : (ys.take k).length = k := List.length_take_of_le (by omega)
  have hback : k + (i - k) = i := by omega
  rw [List.getElem?_append_right (by omega), hlen, List.getElem?_zipWith, List.getElem?_drop, hback, hx, hy]

/-- A step of the scan doubles the stretch that each element combines. -/
theorem Scanned.step {op : Nat → Nat → Nat} (hop : ∀ x y z, op (op x y) z = op x (op y z)) {xs ys : List Nat} {k : Nat}
    (hs : Scanned op xs k ys) (h0 : 0 < k) (hk : k ≤ xs.length) :
    Scanned op xs (2 * k) (ys.take k ++ List.zipWith op ys (ys.drop k)) := by
  obtain ⟨hlen, hget⟩ := hs
  refine ⟨by simp; omega, fun i hi => ?_⟩
  by_cases hik : i < k
  · have hlo : i + 1 - 2 * k = i + 1 - k := by omega
    have hcount : min i (2 * k - 1) = min i (k - 1) := by omega
    rw [scanStep_getElem?_of_lt op (by omega) hik, hget i hi, hlo, hcount]
  · have hlo : i - k + 1 - k = i + 1 - 2 * k := by omega
    have hmid : i + 1 - k = i + 1 - 2 * k + min (i - k) (k - 1) + 1 := by omega
    have hcount : min i (2 * k - 1) = min (i - k) (k - 1) + 1 + min i (k - 1) := by omega
    rw [scanStep_getElem?_of_le (by omega) (hget (i - k) (by omega)) (hget i hi), hlo, hmid, combined_append hop, hcount]

/-- The steps that are left double the stretch until it covers the list. -/
theorem scanned_scanSteps {op : Nat → Nat → Nat} (hop : ∀ x y z, op (op x y) z = op x (op y z)) {xs : List Nat} (fuel : Nat) :
    ∀ {k : Nat} {ys : List Nat}, Scanned op xs k ys → 0 < k → xs.length ≤ 2 ^ fuel * k →
      ∃ n, xs.length ≤ n ∧ Scanned op xs n (scanSteps op fuel k ys) := by
  induction fuel with
  | zero => exact fun {k ys} hs _ hle => ⟨k, by omega, hs⟩
  | succ fuel ih =>
    intro k ys hs h0 hle
    rw [scanSteps]
    split
    next hdone => exact ⟨k, hs.1 ▸ hdone, hs⟩
    next hmore => exact ih (hs.step hop h0 (by have := hs.1; omega)) (by omega) (by rw [pow_succ] at hle; linarith)

theorem scanGivesInclusivePrefixes : ScanGivesInclusivePrefixes := by
  intro op xs hop hlen
  obtain ⟨n, hn, hslen, hget⟩ := scanned_scanSteps hop 9 (scanned_one op xs) one_pos (by omega)
  refine ⟨hslen, fun i h => ?_⟩
  have hlo : i + 1 - n = 0 := by omega
  have hcount : min i (n - 1) = i := by omega
  rw [hget i h, hlo, hcount, combined_zero_eq_foldl op h]

/-- Settles O25: usable names raise nothing, and each step of the scan doubles the stretch that an element combines. -/
theorem wideningReductionsAndScansDeliver : Obligations.WideningReductionsAndScansDeliver :=
  ⟨vectorWideningReductionsAndPermutes, scanGivesInclusivePrefixes⟩

end Sys2Proof.Proofs
end

section
/-! PROOFS. A pass of the array (04 R79, R80; 12 R256): the exact arithmetic of values, a word of the plane after a pass, and O33. -/

namespace Sys2Proof.Proofs

open Sys2Proof Sys2Proof.Machine Sys2Proof.Laws

/-! ### Exact sums and products (04 R65, R79) -/

/-- A finite value. -/
def IsFinite (x : Machine.Num) : Prop := ∃ neg n d, x = .fin neg n d ∧ 0 < d

/-- The exact product of finite values is finite and has the product's value. -/
theorem mul_of_finite {x y : Machine.Num} (hx : IsFinite x) (hy : IsFinite y) :
    IsFinite (x.mul y) ∧ numVal (x.mul y) = numVal x * numVal y := by
  obtain ⟨a, n, d, rfl, hd⟩ := hx
  obtain ⟨b, m, e, rfl, he⟩ := hy
  refine ⟨⟨a != b, n * m, d * e, rfl, Nat.mul_pos hd he⟩, ?_⟩
  have hsign : (if (a != b) = true then (-1 : ℚ) else 1) = (if a then -1 else 1) * (if b then -1 else 1) := by
    cases a <;> cases b <;> norm_num
  simp only [Machine.Num.mul, numVal, hsign, Nat.cast_mul]
  ring

/-- Over a common denominator magnitudes of one sign add, and of two signs the smaller is taken from the larger. -/
theorem add_of_same_den (a b : Bool) (p q : Nat) {d : Nat} (hd : 0 < d) :
    IsFinite (Machine.Num.add false (.fin a p d) (.fin b q d)) ∧
    numVal (Machine.Num.add false (.fin a p d) (.fin b q d)) = numVal (.fin a p d) + numVal (.fin b q d) := by
  have hadd : Machine.Num.add false (.fin a p d) (.fin b q d) = if a = b then .fin a (p + q) d
      else if p = q then .fin false 0 1 else if q < p then .fin a (p - q) d else .fin b (q - p) d := by
    simp [Machine.Num.add]
  have hopp : a ≠ b → (if b then (-1 : ℚ) else 1) = -(if a then -1 else 1) := by
    cases a <;> cases b <;> norm_num
  rw [hadd]
  split_ifs with hab hpq hlt
  · subst hab
    refine ⟨⟨a, p + q, d, rfl, hd⟩, ?_⟩
    simp only [numVal, Nat.cast_add]
    ring
  · refine ⟨⟨false, 0, 1, rfl, one_pos⟩, ?_⟩
    simp only [numVal, hopp hab, hpq]
    ring
  · refine ⟨⟨a, p - q, d, rfl, hd⟩, ?_⟩
    simp only [numVal, hopp hab, Nat.cast_sub hlt.le]
    ring
  · refine ⟨⟨b, q - p, d, rfl, hd⟩, ?_⟩
    simp only [numVal, hopp hab, Nat.cast_sub (Nat.not_lt.1 hlt)]
    ring

/-- A larger denominator leaves the value as it is. -/
theorem numVal_expand (a : Bool) (n : Nat) {d e : Nat} (hd : 0 < d) (he : 0 < e) :
    numVal (.fin a (n * e) (d * e)) = numVal (.fin a n d) := by
  have hd' : (d : ℚ) ≠ 0 := Nat.cast_ne_zero.2 hd.ne'
  have he' : (e : ℚ) ≠ 0 := Nat.cast_ne_zero.2 he.ne'
  simp only [numVal, Nat.cast_mul]
  field_simp

/-- The exact sum of finite values is finite and has the sum's value. -/
theorem add_of_finite {x y : Machine.Num} (hx : IsFinite x) (hy : IsFinite y) :
    IsFinite (x.add false y) ∧ numVal (x.add false y) = numVal x + numVal y := by
  obtain ⟨a, n, d, rfl, hd⟩ := hx
  obtain ⟨b, m, e, rfl, he⟩ := hy
  by_cases hde : d = e
  · subst hde
    exact add_of_same_den a b n m hd
  · have hcommon : Machine.Num.add false (.fin a n d) (.fin b m e) =
        Machine.Num.add false (.fin a (n * e) (d * e)) (.fin b (m * d) (d * e)) := by
      simp [Machine.Num.add, hde]
    have hm : numVal (.fin b (m * d) (d * e)) = numVal (.fin b m e) := by rw [Nat.mul_comm d e, numVal_expand b m he hd]
    rw [hcommon, ← numVal_expand a n hd he, ← hm]
    exact add_of_same_den a b _ _ (Nat.mul_pos hd he)

/-- The exact sum of finite products is finite and has the sum's value. -/
theorem dotExact_of_finite {l : List (Machine.Num × Machine.Num)} (h : ∀ p ∈ l, IsFinite p.1 ∧ IsFinite p.2) :
    IsFinite (dotExact l) ∧ numVal (dotExact l) = (l.map fun p => numVal p.1 * numVal p.2).sum := by
  induction l with
  | nil => exact ⟨⟨false, 0, 1, rfl, one_pos⟩, by simp [dotExact, Machine.Num.zero, numVal]⟩
  | cons p l ih =>
    obtain ⟨hp, hl⟩ := List.forall_mem_cons.1 h
    obtain ⟨hrest, hsum⟩ := ih hl
    obtain ⟨hprod, hval⟩ := mul_of_finite hp.1 hp.2
    obtain ⟨hfin, hadd⟩ := add_of_finite hrest hprod
    refine ⟨hfin, ?_⟩
    rw [List.map_cons, List.sum_cons, ← hsum, ← hval, add_comm]
    exact hadd

theorem add_nan_left (rd : Bool) (y : Machine.Num) : Machine.Num.nan.add rd y = .nan := rfl

theorem add_nan_right (rd : Bool) (x : Machine.Num) : x.add rd .nan = .nan := by
  cases x <;> rfl

/-- A product that is NaN makes the sum NaN. -/
theorem dotExact_of_nan {l : List (Machine.Num × Machine.Num)} (h : ∃ p ∈ l, p.1.mul p.2 = .nan) : dotExact l = .nan := by
  induction l with
  | nil => simp at h
  | cons p l ih =>
    rw [dotExact]
    rcases (List.exists_mem_cons_iff ..).1 h with hp | hl
    · rw [hp, add_nan_right]
    · rw [ih hl, add_nan_left]

theorem groupSumsAreExact : GroupSumsAreExact := by
  refine fun l => ⟨fun h => ?_, dotExact_of_nan⟩
  obtain ⟨⟨neg, n, d, hfin, hd⟩, hsum⟩ := dotExact_of_finite h
  exact ⟨neg, n, d, hfin, hd, hsum⟩

/-! ### A word of the plane (12 R256) -/

/-- The pairs that word (i, j) takes in a pass: A[i][k] and B[k][j] over the pass's values of k. -/
def passPairs (av bv : Array Machine.Num) (total k0 i j q : Nat) : Machine.Num × Machine.Num :=
  (av.getD (i * total + (k0 + q)) .nan, bv.getD ((k0 + q) * 128 + j) .nan)

/-- Each word of the plane after a pass is its cell's, of its row and its column. -/
theorem mmaPlane_getElem (isInt first flush : Bool) (av bv : Array Machine.Num) (total k0 kn : Nat) {i j : Nat}
    (plane : Vector (BitVec 32) 16384) (hi : i < 128) (hj : j < 128) :
    (mmaPlane isInt first flush av bv false false total k0 kn plane)[128 * i + j]'(by omega) =
      BitVec.ofNat 32 (flushF32 (!isInt && flush) (mmaCell isInt (if first then 0 else (plane[128 * i + j]'(by omega)).toNat)
        ((List.range kn).map fun q => (passPairs av bv total k0 i j q).1)
        ((List.range kn).map fun q => (passPairs av bv total k0 i j q).2))) := by
  have hrow : (128 * i + j) / 128 = i := by omega
  have hcol : (128 * i + j) % 128 = j := by omega
  simp [mmaPlane, passPairs, hrow, hcol, hi, hj, Function.comp_def]

/-! ### Integers (04 R80) -/

theorem foldl_add_eq_sum {α : Type} (f : α → Int) (l : List α) (a : Int) : l.foldl (fun x p => x + f p) a = a + (l.map f).sum := by
  induction l generalizing a with
  | nil => simp
  | cons p l ih => rw [List.foldl_cons, ih, List.map_cons, List.sum_cons, add_assoc]

/-- The word of a pattern is the number, modulo 2^32. -/
theorem toInt_patternOf (x : Int) : (BitVec.ofNat 32 (patternOf 32 x)).toInt = x.bmod (2 ^ 32) := by
  have hpat : ((patternOf 32 x : Nat) : Int) = x % 2 ^ 32 := Int.toNat_of_nonneg (Int.emod_nonneg x (by norm_num))
  rw [BitVec.toInt_ofNat', hpat]
  exact Int.emod_bmod x (2 ^ 32)

theorem flushF32_false (x : Nat) : flushF32 false x = x := rfl

/-- An integer cell adds the products of its row and column. -/
theorem mmaCell_int (acc : Nat) (f : Nat → Machine.Num × Machine.Num) (l : List Nat) :
    mmaCell true acc (l.map fun q => (f q).1) (l.map fun q => (f q).2) =
      patternOf 32 (acc + (l.map fun q => (f q).1.toInt * (f q).2.toInt).sum) := by
  rw [mmaCell, if_pos rfl, List.zip_map']
  refine congrArg _ ?_
  rw [List.foldl_map]
  exact foldl_add_eq_sum (fun q => (f q).1.toInt * (f q).2.toInt) l acc

theorem integerPassAccumulates : IntegerPassAccumulates := by
  intro first flush av bv total k0 kn i j plane hi hj
  have hword : (BitVec.ofNat 32 (if first then 0 else (plane[128 * i + j]'(by omega)).toNat)).toInt =
      if first then 0 else (plane[128 * i + j]'(by omega)).toInt := by
    cases first <;> simp
  rw [mmaPlane_getElem true first flush av bv total k0 kn plane hi hj, Bool.not_true, Bool.false_and, flushF32_false,
    mmaCell_int, toInt_patternOf, ← hword, BitVec.toInt_ofNat', Int.bmod_add_bmod]
  rfl

/-! ### Floats (04 R79) -/

/-- A contraction whose length is a multiple of four takes its groups in their order. -/
theorem accGroups_map_range (n : Nat) : ∀ (f : Nat → Machine.Num × Machine.Num) (acc fuel : Nat), n ≤ fuel →
    accGroups fuel acc ((List.range (4 * n)).map f) =
      (List.range n).foldl (fun acc g => accGroup acc ((List.range 4).map fun q => f (4 * g + q))) acc := by
  induction n with
  | zero =>
    intro f acc fuel _
    cases fuel <;> rfl
  | succ n ih =>
    intro f acc fuel hfuel
    obtain ⟨fuel, rfl⟩ := Nat.exists_eq_add_of_le' (Nat.zero_lt_of_lt hfuel)
    have hsplit : (List.range (4 * (n + 1))).map f = (List.range 4).map f ++ (List.range (4 * n)).map fun q => f (4 + q) := by
      rw [show 4 * (n + 1) = 4 + 4 * n by omega, List.range_add, List.map_append, List.map_map]
      rfl
    have hfirst : ((List.range (4 * (n + 1))).map f).take 4 = (List.range 4).map f := by
      rw [hsplit, List.take_left' (by simp)]
    have hrest : ((List.range (4 * (n + 1))).map f).drop 4 = (List.range (4 * n)).map fun q => f (4 + q) := by
      rw [hsplit, List.drop_left' (by simp)]
    have hsome : ((List.range (4 * (n + 1))).map f).isEmpty = false := by simp
    have hshift : ∀ g q, f (4 + (4 * g + q)) = f (4 * (g + 1) + q) := fun g q => congrArg f (by omega)
    rw [accGroups, hsome, if_neg Bool.false_ne_true, hfirst, hrest, ih _ _ fuel (by omega), List.range_succ_eq_map (n := n),
      List.foldl_cons, List.foldl_map]
    simp only [hshift, Nat.succ_eq_add_one, Nat.mul_zero, Nat.zero_add]

/-- A floating cell takes its groups of four in their order. -/
theorem mmaCell_flt (acc n : Nat) (f : Nat → Machine.Num × Machine.Num) :
    mmaCell false acc ((List.range (4 * n)).map fun q => (f q).1) ((List.range (4 * n)).map fun q => (f q).2) =
      (List.range n).foldl (fun acc g => accGroup acc ((List.range 4).map fun q => f (4 * g + q))) acc := by
  rw [mmaCell, if_neg Bool.false_ne_true, List.zip_map']
  exact accGroups_map_range n f acc _ (by simp; omega)

theorem floatingPassAccumulates : FloatingPassAccumulates := by
  intro first flush av bv total k0 groups i j plane hi hj code val pair group x
  rw [mmaPlane_getElem false first flush av bv total k0 (4 * groups) plane hi hj, mmaCell_flt]
  rfl

/-- Settles O33: a word of the plane is its cell's, and a cell is a sum or a fold over groups of four. -/
theorem passesAccumulate : Obligations.PassesAccumulate :=
  ⟨integerPassAccumulates, floatingPassAccumulates, groupSumsAreExact⟩

end Sys2Proof.Proofs
end

section
/-! PROOFS. The memories of a module and the forms they may have: HBM and SCM have one form, the local memories of cores, clusters and
saved contexts another. A form is what the empty memory has and every change of memory in the model keeps. -/

namespace Sys2Proof.Proofs

open Sys2Proof Sys2Proof.Machine Sys2Proof.Laws

/-- A property of memories that the empty memory has and that every write of a byte and every dropping of cells keeps. -/
structure MemForm where
  holds : Mem → Prop
  empty : holds []
  set : ∀ {m : Mem} {a : Nat} {b : Byte}, holds m → holds (m.set a b)
  filter : ∀ (f : Host.Cell → Bool) {m : Mem}, holds m → holds (m.filter f)

namespace MemForm

/-- The canonical form (log 2). -/
def canonical : MemForm where
  holds m := m.wf = true
  empty := rfl
  set := mem_wf_set
  filter := mem_wf_filter

/-- No condition: what is said of the memories of one kind leaves those of the other kind free. -/
def any : MemForm where
  holds _ := True
  empty := trivial
  set _ := trivial
  filter _ _ _ := trivial

variable (F : MemForm) {m : Mem}

theorem put {a : Nat} {bs : List Byte} (h : F.holds m) : F.holds (m.put a bs) := by
  induction bs generalizing m a with
  | nil => exact h
  | cons b bs ih => exact ih (F.set h)

theorem putNat {a n v : Nat} (h : F.holds m) : F.holds (m.putNat a n v) := F.put h

theorem putCells {base : Nat} {l : Mem} (h : F.holds m) : F.holds (m.putCells base l) := by
  induction l generalizing m with
  | nil => exact h
  | cons p t ih => exact ih (F.set h)

theorem clear {a n : Nat} (h : F.holds m) : F.holds (m.clear a n) := F.filter _ h

/-- Any number of changes, each of which keeps the form. -/
theorem foldl {α : Type} {f : Mem → α → Mem} {l : List α} (h : F.holds m) (hf : ∀ m x, F.holds m → F.holds (f m x)) :
    F.holds (l.foldl f m) := List.foldlRecOn l f h fun m hm x _ => hf m x hm

end MemForm

/-- The scratchpad and the spill area of a core have a form. -/
def CoreIn (L : MemForm) (c : Core) : Prop := L.holds c.loc.lmem ∧ L.holds c.loc.spill

/-- The operand memory of a cluster and its side-area have a form. -/
def ClusterIn (L : MemForm) (cl : Cluster) : Prop := L.holds cl.omem ∧ L.holds cl.side

/-- The local memories of saved contexts have a form. -/
def SavedIn (L : MemForm) (l : List SavedCore) : Prop := ∀ k ∈ l, CoreIn L k.core

/-- The local memories of a task's saved context have a form. -/
def TaskIn (L : MemForm) (t : Task) : Prop := SavedIn L t.saved

/-- HBM and SCM have one form, and the local memories, operand memories and saved local memories another. -/
structure MemsIn (G L : MemForm) (hbm scm : Mem) (cores : Vector Core 256) (clusters : Vector Cluster 64) (tasks image : List Task) :
    Prop where
  hbm : G.holds hbm
  scm : G.holds scm
  cores : ∀ c : CoreId, CoreIn L cores[c.val]
  clusters : ∀ i : ClusterId, ClusterIn L clusters[i.val]
  tasks : ∀ t ∈ tasks, TaskIn L t
  image : ∀ t ∈ image, TaskIn L t

/-- The memories of a module have their forms. -/
def StateIn (G L : MemForm) (s : State) : Prop := MemsIn G L s.hbm s.scm s.cores s.clusters s.tasks s.hib.imageTasks

/-- A meaning that answers a next state answers one whose memories have their forms. -/
def OutIn (G L : MemForm) : Host.Outcome State Fault Refusal → Prop
  | .next s => StateIn G L s
  | .fault _ | .refused _ => True

/-- A read that succeeds leaves a state whose memories have their forms. -/
def ReadIn {ε α : Type} (G L : MemForm) (r : Except ε (State × α)) : Prop := ∀ ⦃t x⦄, r = .ok (t, x) → StateIn G L t

section
variable {G L : MemForm} {s t : State} {c : Core} {cl : Cluster}

/-! ### Branches, folds and results -/

theorem StateIn.ite {p : Prop} [Decidable p] (hs : StateIn G L s) (ht : StateIn G L t) : StateIn G L (if p then s else t) :=
  iteInduction (fun _ => hs) fun _ => ht

theorem CoreIn.ite {p : Prop} [Decidable p] {d : Core} (hc : CoreIn L c) (hd : CoreIn L d) : CoreIn L (if p then c else d) :=
  iteInduction (fun _ => hc) fun _ => hd

theorem ClusterIn.ite {p : Prop} [Decidable p] {d : Cluster} (hc : ClusterIn L cl) (hd : ClusterIn L d) :
    ClusterIn L (if p then cl else d) := iteInduction (fun _ => hc) fun _ => hd

theorem OutIn.ite {p : Prop} [Decidable p] {a b : Host.Outcome State Fault Refusal} (ha : OutIn G L a) (hb : OutIn G L b) :
    OutIn G L (if p then a else b) := iteInduction (fun _ => ha) fun _ => hb

theorem StateIn.foldl {α : Type} {f : State → α → State} {l : List α} (h : StateIn G L s)
    (hf : ∀ t x, StateIn G L t → StateIn G L (f t x)) : StateIn G L (l.foldl f s) :=
  List.foldlRecOn l f h fun t ht x _ => hf t x ht

theorem CoreIn.foldl {α : Type} {f : Core → α → Core} {l : List α} (h : CoreIn L c) (hf : ∀ d x, CoreIn L d → CoreIn L (f d x)) :
    CoreIn L (l.foldl f c) := List.foldlRecOn l f h fun d hd x _ => hf d x hd

theorem ClusterIn.foldl {α : Type} {f : Cluster → α → Cluster} {l : List α} (h : ClusterIn L cl)
    (hf : ∀ d x, ClusterIn L d → ClusterIn L (f d x)) : ClusterIn L (l.foldl f cl) := List.foldlRecOn l f h fun d hd x _ => hf d x hd

/-- A state that differs in no memory. -/
theorem StateIn.same (h : StateIn G L s) (hbm : t.hbm = s.hbm := by rfl) (scm : t.scm = s.scm := by rfl)
    (cores : t.cores = s.cores := by rfl) (clusters : t.clusters = s.clusters := by rfl) (tasks : t.tasks = s.tasks := by rfl)
    (image : t.hib.imageTasks = s.hib.imageTasks := by rfl) : StateIn G L t := by
  unfold StateIn
  rw [hbm, scm, cores, clusters, tasks, image]
  exact h

/-- A core that differs in no memory. -/
theorem CoreIn.same (h : CoreIn L c) {d : Core} (lmem : d.loc.lmem = c.loc.lmem := by rfl)
    (spill : d.loc.spill = c.loc.spill := by rfl) : CoreIn L d := by
  unfold CoreIn
  rw [lmem, spill]
  exact h

theorem StateIn.of_fst {α : Type} {x : α} {p : State × α} (h : StateIn G L p.1) (hp : p = (t, x)) : StateIn G L t := by
  rw [hp] at h
  exact h

theorem OutIn.next (h : StateIn G L s) : OutIn G L (.next s) := h

theorem OutIn.fault {f : Fault} : OutIn G L (.fault f) := trivial

theorem OutIn.refused {r : Refusal} : OutIn G L (.refused r) := trivial

theorem ClusterIn.same (h : ClusterIn L cl) {d : Cluster} (omem : d.omem = cl.omem := by rfl) (side : d.side = cl.side := by rfl) :
    ClusterIn L d := by
  unfold ClusterIn
  rw [omem, side]
  exact h

theorem ReadIn.ok {ε α : Type} {p : State × α} (h : StateIn G L p.1) : ReadIn G L (.ok p : Except ε (State × α)) :=
  fun _ _ ht => h.of_fst (Except.ok.inj ht)

theorem ReadIn.error {ε α : Type} {e : ε} : ReadIn G L (.error e : Except ε (State × α)) :=
  fun _ _ ht => by cases ht

theorem ReadIn.map {ε α β : Type} {r : Except ε (State × α)} {f : State × α → State × β} (h : ReadIn G L r)
    (hf : ∀ t x, StateIn G L t → StateIn G L (f (t, x)).1) : ReadIn G L (r.map f) := by
  cases r with
  | error e => exact .error
  | ok p => exact .ok (hf p.1 p.2 (h rfl))

/-- Reads one after another, each from the state that the one before it left. -/
theorem ReadIn.foldl {ε α β : Type} {f : Except ε (State × α) → β → Except ε (State × α)} {l : List β}
    {r : Except ε (State × α)} (h : ReadIn G L r) (hf : ∀ r x, ReadIn G L r → ReadIn G L (f r x)) : ReadIn G L (l.foldl f r) :=
  List.foldlRecOn l f h fun r hr x _ => hf r x hr

/-! ### Saved contexts -/

theorem SavedIn.map {l : List SavedCore} {f : SavedCore → SavedCore} (h : SavedIn L l)
    (hf : ∀ k, CoreIn L k.core → CoreIn L (f k).core) : SavedIn L (l.map f) := by
  intro k hk
  obtain ⟨x, hx, rfl⟩ := List.mem_map.1 hk
  exact hf x (h x hx)

/-- Tasks, each of them changed. -/
theorem TaskIn.mapAll {l : List Task} {f : Task → Task} (h : ∀ t ∈ l, TaskIn L t) (hf : ∀ t, TaskIn L t → TaskIn L (f t)) :
    ∀ t ∈ l.map f, TaskIn L t := by
  intro t ht
  obtain ⟨x, hx, rfl⟩ := List.mem_map.1 ht
  exact hf x (h x hx)

/-! ### One part of the state changed -/

theorem StateIn.core (h : StateIn G L s) (i : CoreId) : CoreIn L (s.core i) := h.cores i

theorem StateIn.me (h : StateIn G L s) : CoreIn L s.me := h.core s.cur

theorem StateIn.setCore {i : CoreId} (h : StateIn G L s) (hc : CoreIn L c) : StateIn G L (s.setCore i c) where
  __ := h
  cores d := by
    unfold State.setCore
    rw [Vector.getElem_set]
    exact iteInduction (fun _ => hc) fun _ => h.cores d

theorem StateIn.modCore {i : CoreId} {f : Core → Core} (h : StateIn G L s)
    (hf : ∀ x, CoreIn L x → CoreIn L (f x) := by exact fun _ h => ⟨h.1, h.2⟩) : StateIn G L (s.modCore i f) :=
  h.setCore (hf _ (h.core i))

theorem StateIn.modMe {f : Core → Core} (h : StateIn G L s)
    (hf : ∀ x, CoreIn L x → CoreIn L (f x) := by exact fun _ h => ⟨h.1, h.2⟩) :
    StateIn G L (s.modMe f) := h.modCore hf

theorem StateIn.modCluster {i : ClusterId} {f : Cluster → Cluster} (h : StateIn G L s)
    (hf : ∀ x, ClusterIn L x → ClusterIn L (f x) := by exact fun _ h => ⟨h.1, h.2⟩) : StateIn G L (s.modCluster i f) where
  __ := h
  clusters d := by
    unfold State.modCluster
    rw [Vector.getElem_set]
    exact iteInduction (fun _ => hf _ (h.clusters i)) fun _ => h.clusters d

theorem StateIn.modTask {va : Word} {f : Task → Task} (h : StateIn G L s)
    (hf : ∀ x, TaskIn L x → TaskIn L (f x) := by exact fun _ h => h) : StateIn G L (s.modTask va f) :=
  { h with tasks := TaskIn.mapAll h.tasks fun t ht => iteInduction (fun _ => hf t ht) fun _ => ht }

end

end Sys2Proof.Proofs
end

section
/-! PROOFS. What every part of the module shares (02, 05, 15, 19, 20): addresses and homes, accounts, L2, strands, and the ends of tasks
and regions keep the forms of memories. -/

namespace Sys2Proof.Proofs

open Sys2Proof Sys2Proof.Machine Sys2Proof.Laws

-- One proof after another: each proof in parallel takes a thread of its own, and the check has no memory for as many.
set_option Elab.async false

variable {G L : MemForm} {s t : State} {c : Core} {cl : Cluster}

/-! ### Addresses, the page table and the homes -/

theorem StateIn.modEngine {e f} (h : StateIn G L s) : StateIn G L (s.modEngine e f) := h

theorem StateIn.cachePage {ia} (h : StateIn G L s) : StateIn G L (s.cachePage ia) := .ite h h

theorem StateIn.abandonMigration (h : StateIn G L s) : StateIn G L s.abandonMigration := by
  unfold State.abandonMigration
  split
  · exact { h with hbm := G.putNat h.hbm }
  · exact h

theorem StateIn.pokeAt {p ia b} (h : StateIn G L s) : StateIn G L (s.pokeAt p ia b) := { h with hbm := G.set h.hbm }

theorem StateIn.pokeCells {p ia l} (h : StateIn G L s) : StateIn G L (s.pokeCells p ia l) := by
  unfold State.pokeCells
  split
  · exact h.foldl fun _ _ h => h.pokeAt
  · exact h

theorem CoreIn.cleanGranule {base lo n} (h : CoreIn L c) : CoreIn L (c.cleanGranule base lo n) := h

theorem CoreIn.dropGranule {base} (h : CoreIn L c) : CoreIn L (c.dropGranule base) := h

theorem StateIn.recallFrom {p ia write c} (h : StateIn G L s) : StateIn G L (s.recallFrom p ia write c) := by
  unfold State.recallFrom
  refine h.foldl fun _ _ h => ?_
  split
  · split
    · extract_lets
      split
      · exact h.pokeCells.pokeCells.modCore fun _ h => h.dropGranule
      · exact h.pokeCells.modCore fun _ h => h.cleanGranule
    · exact h
  · exact h

theorem StateIn.recall {p ia write skip} (h : StateIn G L s) : StateIn G L (s.recall p ia write skip) := h.foldl fun _ _ h => h.recallFrom

theorem CoreIn.overtake {ia n} (h : CoreIn L c) : CoreIn L (c.overtake ia n) := h

theorem StateIn.overtake {skip ia n} (h : StateIn G L s) : StateIn G L (s.overtake skip ia n) := by
  unfold State.overtake
  extract_lets s1
  have h1 : StateIn G L s1 := h.foldl fun _ _ h => h.modCore
  split
  · exact { h1 with tasks := TaskIn.mapAll h1.tasks fun _ ht => SavedIn.map ht fun _ h => h }
  · exact h1

theorem StateIn.homeRead {p ia n} (h : StateIn G L s) : StateIn G L (s.homeRead p ia n).1 := h.recall

theorem StateIn.missed {cls addr} (h : StateIn G L s) : StateIn G L (s.missed cls addr) := .ite h.cachePage h

theorem StateIn.homeWrite {who p ia bs} (h : StateIn G L s) : StateIn G L (s.homeWrite who p ia bs) := by
  unfold State.homeWrite
  extract_lets s1
  have h1 : StateIn G L s1 := h.recall.overtake
  exact { h1 with hbm := G.put h1.hbm }

theorem StateIn.homeFlush {who p ia cells} (h : StateIn G L s) : StateIn G L (s.homeFlush who p ia cells) := by
  unfold State.homeFlush
  extract_lets s1
  have h1 : StateIn G L s1 := h.recall
  exact { h1 with hbm := G.foldl h1.hbm fun _ _ h => G.set h }

theorem StateIn.recallIa {ia n write} (h : StateIn G L s) : StateIn G L (s.recallIa ia n write) := h.foldl fun _ _ h => .ite h.recall h

theorem StateIn.fetchIa {ia n} (h : StateIn G L s) : StateIn G L (s.fetchIa ia n).1 := by
  unfold State.fetchIa
  split
  · exact h.recallIa
  · exact h

theorem StateIn.writeIa {ia bs} (h : StateIn G L s) (ht : s.writeIa ia bs = some t) : StateIn G L t := by
  unfold State.writeIa at ht
  split at ht
  · cases ht
    exact h.recallIa.overtake.foldl fun _ _ h => h.pokeCells
  · cases ht

/-! ### Regions, accounts and the error log -/

theorem StateIn.modRegion {id f} (h : StateIn G L s) : StateIn G L (s.modRegion id f) := h

theorem StateIn.charge {region off amount} (h : StateIn G L s) : StateIn G L (s.charge region off amount) := h

theorem StateIn.logEntry {addr taskid cyc kind code core} (h : StateIn G L s) :
    StateIn G L (s.logEntry addr taskid cyc kind code core) := by
  unfold State.logEntry
  extract_lets
  refine .ite h (.ite h.same ?_)
  split
  · exact h
  next t ht => exact (h.writeIa ht).same

theorem StateIn.logCore {c addr kind code} (h : StateIn G L s) : StateIn G L (s.logCore c addr kind code) := h.logEntry

theorem StateIn.logModule {addr taskid kind code} (h : StateIn G L s) : StateIn G L (s.logModule addr taskid kind code) := h.logEntry

theorem StateIn.accrue (h : StateIn G L s) : StateIn G L s.accrue := (h.foldl fun _ _ h => .ite h h.charge).same

theorem StateIn.chargeTask {t} (h : StateIn G L s) : StateIn G L (s.chargeTask t) := h.foldl fun _ _ h => h.charge.modCore

theorem StateIn.chargeEnergy {id} (h : StateIn G L s) : StateIn G L (s.chargeEnergy id) := .ite h h

theorem StateIn.flushCharge {key amount} (h : StateIn G L s) : StateIn G L (s.flushCharge key amount) := by
  unfold State.flushCharge
  extract_lets
  split
  · exact h
  · split
    · exact h
    · split
      · exact h
      next t ht => exact (h.writeIa ht).same

theorem StateIn.flushCharges {id} (h : StateIn G L s) : StateIn G L (s.flushCharges id) :=
  (h.foldl fun _ _ h => h.chargeTask).accrue.chargeEnergy.same.foldl fun _ _ h => h.flushCharge

/-! ### L2 -/

theorem StateIn.l2Touch {who p ia n hint write} (h : StateIn G L s) : StateIn G L (s.l2Touch who p ia n hint write) :=
  h.foldl fun _ _ h => h

theorem StateIn.reach {who p ia n hint write} (h : StateIn G L s) : StateIn G L (s.reach who p ia n hint write) := h.cachePage.l2Touch

theorem StateIn.l2Drop {key n} (h : StateIn G L s) : StateIn G L (s.l2Drop key n) := h

theorem StateIn.l2Invalidate {ia n} (h : StateIn G L s) : StateIn G L (s.l2Invalidate ia n) := by
  unfold State.l2Invalidate
  split
  · exact h.l2Drop
  · exact h

theorem StateIn.l2Gate (h : StateIn G L s) : StateIn G L s.l2Gate := h

theorem StateIn.l2Release {r} (h : StateIn G L s) : StateIn G L (s.l2Release r) := h

/-! ### Strands and leases -/

theorem StateIn.modAlloc {i f} (h : StateIn G L s) : StateIn G L (s.modAlloc i f) := h

theorem StateIn.modAllocs {l f} (h : StateIn G L s) : StateIn G L (s.modAllocs l f) := h.foldl fun _ _ h => h.modAlloc

theorem StateIn.pick {k l} (h : StateIn G L s) : StateIn G L (s.pick k l).1 := h

theorem StateIn.modStrand {i f} (h : StateIn G L s) : StateIn G L (s.modStrand i f) := h

theorem StateIn.settleStrand {i} (h : StateIn G L s) : StateIn G L (s.settleStrand i) := h.modStrand

theorem StateIn.departStrands {ids} (h : StateIn G L s) : StateIn G L (s.departStrands ids) := by
  unfold State.departStrands
  refine h.foldl fun _ _ h => ?_
  split
  · exact h
  · extract_lets
    split
    · exact h.settleStrand
    · split
      next t _ _ ht => exact (h.settleStrand.pick.of_fst ht).modStrand.modStrand
      next t ht => exact h.settleStrand.pick.of_fst ht

theorem StateIn.logDropped {core task cls addr} (h : StateIn G L s) : StateIn G L (s.logDropped core task cls addr) := h.logEntry

theorem StateIn.engineWord {t core lease task event v} (h : StateIn G L s) :
    StateIn G L (s.engineWord t core lease task event v).1 := by
  unfold State.engineWord
  split
  · exact h
  · extract_lets
    split
    · exact h
    · split
      · exact h.logDropped
      · exact h.reach.homeWrite
  · exact h.logDropped
  · exact h

theorem StateIn.writeStatus {t core lease task state reason granted total} (h : StateIn G L s) :
    StateIn G L (s.writeStatus t core lease task state reason granted total) := h.engineWord

theorem StateIn.leaseStatus {l state reason} (h : StateIn G L s) : StateIn G L (s.leaseStatus l state reason) := h.writeStatus

theorem StateIn.leaseEvent {l kind strands} (h : StateIn G L s) : StateIn G L (s.leaseEvent l kind strands) := by
  unfold State.leaseEvent
  split
  · exact h
  · exact .ite h.same.engineWord h.same.engineWord

theorem StateIn.undoEvent {a} (h : StateIn G L s) : StateIn G L (s.undoEvent a) := by
  unfold State.undoEvent
  split <;> exact h

theorem StateIn.modLease {id f} (h : StateIn G L s) : StateIn G L (s.modLease id f) := h

theorem StateIn.freeStrand {t i} (h : StateIn G L s) : StateIn G L (s.freeStrand t i) := h.modAlloc

theorem StateIn.freeStrands {l} (h : StateIn G L s) : StateIn G L (s.freeStrands l) := h.modAllocs.foldl fun _ _ h => h.freeStrand

theorem StateIn.leaveLease {t i} (h : StateIn G L s) : StateIn G L (s.leaveLease t i) := by
  unfold State.leaveLease
  split
  · exact h.modAlloc
  · exact h.freeStrand

theorem StateIn.leaveLeases {l} (h : StateIn G L s) : StateIn G L (s.leaveLeases l) :=
  h.departStrands.modAllocs.foldl fun _ _ h => h.leaveLease

theorem StateIn.sweepLeases (h : StateIn G L s) : StateIn G L s.sweepLeases := h

theorem StateIn.dropLeases {task} (h : StateIn G L s) : StateIn G L (s.dropLeases task) :=
  .ite (h.accrue.same.leaveLeases.foldl fun _ _ h => .ite h.leaseStatus h) h

theorem StateIn.modRing {r f} (h : StateIn G L s) : StateIn G L (s.modRing r f) := h

theorem StateIn.moveChannel {p r} (h : StateIn G L s) : StateIn G L (s.moveChannel p r) := by
  unfold State.moveChannel
  extract_lets
  split
  · exact h
  next k _ =>
    have h1 : StateIn G L ((s.settleStrand (s.ringStrand r)).settleStrand (s.ringStrand k)) := h.settleStrand.settleStrand
    exact h1.same

theorem StateIn.moveRings {i p} (h : StateIn G L s) : StateIn G L (s.moveRings i p) := by
  unfold State.moveRings
  extract_lets
  exact (h.foldl fun _ _ h => h.moveChannel).modStrand

/-! ### Ends of tasks and regions -/

theorem ClusterIn.freeSlots {c} (h : ClusterIn L cl) : ClusterIn L (cl.freeSlots c) := h

theorem CoreIn.vacate (h : CoreIn L c) : CoreIn L c.vacate := ⟨h.1, L.empty⟩

theorem StateIn.vacateCore {c} (h : StateIn G L s) : StateIn G L (s.vacateCore c) :=
  (h.modCluster fun _ h => h.freeSlots).same.modCore fun _ h => h.vacate

theorem StateIn.orphanJobs {task cores} (h : StateIn G L s) : StateIn G L (s.orphanJobs task cores) := h

theorem StateIn.removeTask {k} (h : StateIn G L s) : StateIn G L (s.removeTask k) := by
  unfold State.removeTask
  extract_lets s1 s2 s3
  have h3 : StateIn G L s3 := (h.chargeTask.foldl fun _ _ h => h.vacateCore).orphanJobs.dropLeases
  exact { h3 with
    tasks := TaskIn.mapAll (fun t ht => h3.tasks t (List.mem_of_mem_filter ht)) fun _ ht => iteInduction (fun _ => ht) fun _ => ht }

theorem StateIn.queueEvent {id e} (h : StateIn G L s) : StateIn G L (s.queueEvent id e) := by
  unfold State.queueEvent
  split
  · exact h
  · exact .ite h.modRegion h.logModule

theorem StateIn.killTree {id} (h : StateIn G L s) : StateIn G L (s.killTree id) :=
  h.foldl fun _ _ h => .ite h.removeTask.same h.removeTask.same

theorem StateIn.endRegions {id} (h : StateIn G L s) : StateIn G L (s.endRegions id) :=
  (h.foldl fun _ _ h => h.flushCharges.l2Release).same

theorem StateIn.killPartition {root} (h : StateIn G L s) : StateIn G L (s.killPartition root) := h.killTree.endRegions

theorem StateIn.landEvent {l e} (h : StateIn G L s) : StateIn G L (s.landEvent l e) := by
  unfold State.landEvent
  split
  · exact h.queueEvent
  · exact h
  · exact h.killPartition

theorem StateIn.faultDomain {id e} (h : StateIn G L s) : StateIn G L (s.faultDomain id e) := h.landEvent

theorem StateIn.postEvent {region e sup} (h : StateIn G L s) : StateIn G L (s.postEvent region e sup) :=
  StateIn.faultDomain (.ite h.same.charge h.same)

theorem StateIn.killSubtree {id} (h : StateIn G L s) : StateIn G L (s.killSubtree id) := by
  unfold State.killSubtree
  extract_lets
  split
  · exact h.killPartition
  · exact h.killTree.endRegions.foldl fun _ _ h => h.landEvent

theorem StateIn.killTask {t sup} (h : StateIn G L s) : StateIn G L (s.killTask t sup) := h.removeTask.charge.flushCharges.postEvent

theorem StateIn.killHost {c tcause tbaddr tinfo0 tinfo1} (h : StateIn G L s) :
    StateIn G L (s.killHost c tcause tbaddr tinfo0 tinfo1) := by
  unfold State.killHost
  split
  · exact h.orphanJobs.vacateCore
  · exact h.killTask

theorem StateIn.fatal {c tcause tbaddr tinfo0 tinfo1} (h : StateIn G L s) :
    StateIn G L (s.fatal c tcause tbaddr tinfo0 tinfo1) := h.logCore.killHost

theorem StateIn.supervise {f} (h : StateIn G L s) (hf : ∀ t, StateIn G L t → StateIn G L (f t)) : StateIn G L (s.supervise f) :=
  .ite h (hf s h)

theorem StateIn.superviseBooted {f} (h : StateIn G L s) (hf : ∀ t, StateIn G L t → StateIn G L (f t)) :
    StateIn G L (s.superviseBooted f) := h.supervise fun t h => .ite (hf t h) h

theorem StateIn.logViolation {c cls addr} (h : StateIn G L s) : StateIn G L (s.logViolation c cls addr) := h.missed.logCore

theorem StateIn.logModuleViolation {cls addr task} (h : StateIn G L s) : StateIn G L (s.logModuleViolation cls addr task) :=
  h.missed.logModule

theorem StateIn.violationKill {c cls addr tbaddr} (h : StateIn G L s) : StateIn G L (s.violationKill c cls addr tbaddr) := h.killHost

theorem StateIn.violation {c cls addr tbaddr} (h : StateIn G L s) : StateIn G L (s.violation c cls addr tbaddr) :=
  h.logViolation.violationKill

end Sys2Proof.Proofs
end

section
/-! PROOFS. The operations of a core that every slot shares (03, 05, 06, 08, 19): results in flight, local memory, the clock and traps
keep the forms of memories. -/

namespace Sys2Proof.Proofs

open Sys2Proof Sys2Proof.Machine Sys2Proof.Laws

-- One proof after another: each proof in parallel takes a thread of its own, and the check has no memory for as many.
set_option Elab.async false

variable {G L : MemForm} {s t : State} {c : Core} {cl : Cluster}

/-! ### Results in flight, local memory, loops and traps -/

theorem CoreIn.ws {r v} (h : CoreIn L c) : CoreIn L (c.ws r v) := .ite h h

theorem CoreIn.wp {r v} (h : CoreIn L c) : CoreIn L (c.wp r v) := .ite h h

theorem CoreIn.ctlWrite {index v} (h : CoreIn L c) : CoreIn L (c.ctlWrite index v) := by
  unfold Core.ctlWrite
  iterate 12 refine .ite h ?_
  split
  · exact h
  · exact .ite h h

theorem CoreIn.rotate {n} (h : CoreIn L c) : CoreIn L (c.rotate n) := .ite h h

theorem CoreIn.writePhys {phys v} (h : CoreIn L c) : CoreIn L (c.writePhys phys v) := by
  unfold Core.writePhys
  split <;> exact h

theorem CoreIn.sysWrite {index v} (h : CoreIn L c) : CoreIn L (c.sysWrite index v) := by
  unfold Core.sysWrite
  iterate 7 refine .ite h ?_
  split
  · exact h
  · split <;> exact h

theorem CoreIn.commit {p} (h : CoreIn L c) : CoreIn L (c.commit p) := by
  unfold Core.commit
  cases p.res with
  | s r v => exact h.ws
  | p r v => exact h.wp
  | vec phys v transient => exact .ite h h.same.writePhys
  | ctrl index v => exact h.ctlWrite
  | rot n => exact h.rotate
  | sys index v => exact h.sysWrite
  | spill off v => exact ⟨h.1, L.putNat h.2⟩
  | _ => exact h

theorem StateIn.emit {lat r} (h : StateIn G L s) : StateIn G L (s.emit lat r) := h.modMe

theorem StateIn.emitV {lat r} (h : StateIn G L s) : StateIn G L (s.emitV lat r) := h.emit

theorem StateIn.emitLoad {ready a n d} (h : StateIn G L s) : StateIn G L (s.emitLoad ready a n d) := h.modMe

theorem StateIn.emitStore {a bs half} (h : StateIn G L s) : StateIn G L (s.emitStore a bs half) := h.modMe

theorem CoreIn.storeByte {issue a b} (h : CoreIn L c) : CoreIn L (c.storeByte issue a b) := ⟨L.set h.1, h.2⟩

theorem CoreIn.engineWrite {mine a bs} (h : CoreIn L c) : CoreIn L (c.engineWrite mine a bs) := ⟨L.put h.1, h.2⟩

theorem CoreIn.markDirty {a} (h : CoreIn L c) : CoreIn L (c.markDirty a) := h

theorem StateIn.performByte {cid issue a b} (h : StateIn G L s) : StateIn G L (s.performByte cid issue a b) := by
  unfold State.performByte
  extract_lets
  split
  · exact h.modCore fun _ h => h.storeByte
  · split
    · exact h
    · extract_lets
      split
      · exact (StateIn.overtake (.ite h h.recall)).modCore fun _ h => h.storeByte.markDirty
      · exact (StateIn.overtake (.ite h h.recall)).pokeCells

theorem StateIn.performBytes {i issue a bs} (h : StateIn G L s) : StateIn G L (s.performBytes i issue a bs) := by
  induction bs generalizing s a with
  | nil => exact h
  | cons b bs ih => exact ih h.performByte

theorem StateIn.asked {cid addr n} (h : StateIn G L s) : StateIn G L (s.asked cid addr n) := .ite h h

theorem StateIn.performStore {cid st} (h : StateIn G L s) : StateIn G L (s.performStore cid st) := by
  unfold State.performStore
  refine StateIn.asked ?_
  split
  · exact h.violation
  · exact h.performBytes

theorem StateIn.performLoads {cid} (h : StateIn G L s) : StateIn G L (s.performLoads cid) := by
  unfold State.performLoads
  extract_lets c read fails got s1 s2
  have h2 : StateIn G L s2 := h.modCore.foldl fun _ _ h => h.asked
  refine .ite h ?_
  split
  · exact h2.violation
  · exact h2

theorem StateIn.settle {cid} (h : StateIn G L s) : StateIn G L (s.settle cid) :=
  (h.performLoads.modCore.foldl fun _ _ h => h.performStore).modCore fun _ h => (h.foldl fun _ _ h => h.commit).same

theorem StateIn.tick {cid} (h : StateIn G L s) : StateIn G L (s.tick cid) := h.modCore.settle

theorem StateIn.ticks {i n} (h : StateIn G L s) : StateIn G L (s.ticks i n) := by
  induction n generalizing s with
  | zero => exact h
  | succ n ih => exact ih h.tick

theorem CoreIn.shiftStages {more} (h : CoreIn L c) : CoreIn L (c.shiftStages more) := h

theorem CoreIn.setLoop {n r} (h : CoreIn L c) : CoreIn L (c.setLoop n r) := h

theorem CoreIn.loopBack {n} (h : CoreIn L c) : CoreIn L (c.loopBack n) := by
  induction n generalizing c with
  | zero => exact h
  | succ n ih =>
    unfold Core.loopBack
    split
    · exact h
    · extract_lets r k c1 c2
      have h1 : CoreIn L c1 := h.same
      have h2 : CoreIn L c2 := .ite h1.shiftStages.rotate h1
      exact .ite h2.same (ih h.same)

theorem CoreIn.advance (h : CoreIn L c) : CoreIn L c.advance := h.loopBack

theorem CoreIn.dropTransient (h : CoreIn L c) : CoreIn L c.dropTransient := h

theorem StateIn.enterUser {cid tcause tbaddr t0 t1} (h : StateIn G L s) : StateIn G L (s.enterUser cid tcause tbaddr t0 t1) :=
  .ite h.violation (h.setCore (h.core cid).dropTransient.same).ticks

theorem StateIn.enterSystem {cid cause tcause tbaddr t0 t1} (h : StateIn G L s) :
    StateIn G L (s.enterSystem cid cause tcause tbaddr t0 t1) := (h.setCore (h.core cid).dropTransient.same).ticks

theorem StateIn.takeTrap {cid slot cause sync t0 t1 tbaddr} (h : StateIn G L s) :
    StateIn G L (s.takeTrap cid slot cause sync t0 t1 tbaddr) :=
  .ite h.fatal (.ite (.ite h.fatal h.enterSystem) (.ite h.fatal h.enterUser))

theorem StateIn.takeRaise {r} (h : StateIn G L s) : StateIn G L (s.takeRaise r) := by
  unfold State.takeRaise
  extract_lets
  split
  · exact StateIn.takeTrap (.ite (h.modMe fun _ h => h.advance) h)
  · exact h.violation
  · exact h.fatal

theorem StateIn.raise {r} (h : StateIn G L s) : StateIn G L (s.raise r) := .ite h h.takeRaise

theorem StateIn.orRaise {r f} (h : StateIn G L s) (hf : ∀ t, StateIn G L t → StateIn G L (f t)) : StateIn G L (s.orRaise r f) := by
  unfold State.orRaise
  split
  · exact h.raise
  · exact hf s h

theorem StateIn.pendAsync {cid cause t0 t1} (h : StateIn G L s) : StateIn G L (s.pendAsync cid cause t0 t1) := h.modCore

theorem StateIn.userReturn (h : StateIn G L s) : StateIn G L s.userReturn := h.modMe.emit

theorem StateIn.systemReturn (h : StateIn G L s) : StateIn G L s.systemReturn := h.modMe.emit

/-! ### Counters of conversions -/

theorem StateIn.emitCounts {n} (h : StateIn G L s) : StateIn G L (s.emitCounts n) := .ite h h.emit

theorem StateIn.applyCounts {cid n queue num} (h : StateIn G L s) : StateIn G L (s.applyCounts cid n queue num) := by
  unfold State.applyCounts
  extract_lets
  split
  · exact h.modCore.pendAsync
  · exact h.modCore

theorem StateIn.stepLfsr {sampled} (h : StateIn G L s) : StateIn G L (s.stepLfsr sampled) := .ite h.modMe h

end Sys2Proof.Proofs
end

section
/-! PROOFS. Accesses where they perform, the queues of a core, and the acceptance of task descriptors (02, 05, 06, 10): each keeps the
forms of memories. -/

namespace Sys2Proof.Proofs

open Sys2Proof Sys2Proof.Machine Sys2Proof.Laws

-- One proof after another: each proof in parallel takes a thread of its own, and the check has no memory for as many.
set_option Elab.async false

variable {G L : MemForm} {s t : State} {c : Core} {cl : Cluster}

/-! ### Accesses -/

theorem StateIn.performHome {who p ia op} (h : StateIn G L s) : StateIn G L (s.performHome who p ia op).1 := by
  cases op with
  | read n _ => exact h.homeRead
  | write bs => exact h.homeWrite
  | flush _ l => exact h.homeFlush
  | amo o w v e =>
    have h1 : StateIn G L (s.homeRead p ia w).1 := h.homeRead
    unfold State.performHome
    dsimp only
    split
    · exact h1.homeWrite
    · exact h1

theorem StateIn.performGlobal {who hint ia op ans bs} (h : StateIn G L s)
    (ht : s.performGlobal who hint ia op ans = some (.ok (t, bs))) : StateIn G L t := by
  unfold State.performGlobal at ht
  split at ht
  · split at ht
    · cases ht
    · obtain ⟨r, -, hr⟩ := Option.map_eq_some_iff.1 ht
      cases r with
      | error e => cases hr
      | ok bs => cases hr; exact h
  · split at ht
    · cases ht
    · split at ht
      · cases ht
      · exact h.reach.performHome.of_fst (Except.ok.inj (Option.some.inj ht))

theorem CoreIn.cleanCells {l} (h : CoreIn L c) : CoreIn L (c.cleanCells l) := h

theorem StateIn.scmPut {media a bs} (h : StateIn G L s) : StateIn G L (s.scmPut media a bs) := by
  induction bs generalizing s a with
  | nil => exact h
  | cons b bs ih => exact ih (.ite { h with scm := G.set h.scm } h)

/-- What an access to global memory leaves is changed further as its operation says. -/
theorem StateIn.performGlobal_map {who hint ia op ans bs} {f : State → State} (h : StateIn G L s)
    (hf : ∀ u, StateIn G L u → StateIn G L (f u))
    (ht : ((s.performGlobal who hint ia op ans).map fun r => r.map fun x => (f x.1, x.2)) = some (.ok (t, bs))) : StateIn G L t := by
  obtain ⟨r, hr, hm⟩ := Option.map_eq_some_iff.1 ht
  cases r with
  | error e => cases hm
  | ok x => cases hm; exact hf _ (h.performGlobal hr)

theorem StateIn.performAccess {a ans bs} (h : StateIn G L s) (ht : s.performAccess a ans = some (.ok (t, bs))) : StateIn G L t := by
  unfold State.performAccess at ht
  split at ht
  · cases ht
  next ia _ =>
    split at ht
    · extract_lets l clean at ht
      refine h.performGlobal_map (f := clean) (fun u hu => ?_) ht
      unfold clean
      split
      · exact hu.modCore fun _ h => h.cleanCells
      · exact hu
    · exact h.performGlobal_map (f := fun u => if a.ofEngine && a.op.writes then u.l2Invalidate ia a.op.size else u)
        (fun u hu => .ite hu.l2Invalidate hu) ht
  · split at ht
    · cases ht
    · split at ht <;> cases ht
      · exact h
      · exact h.modCore fun _ h => h.engineWrite
      · exact h
      · exact h
  · split at ht <;> cases ht
    · exact h
    · exact h.modCore fun _ h => .ite h h.writePhys
    · exact h
    · exact h
  · split at ht <;> cases ht
    · exact h
    · exact h.modCluster fun _ h => .ite ⟨h.1, L.put h.2⟩ ⟨L.put h.1, h.2⟩
    · exact h
    · exact h
  · split at ht
    · cases ht
    · split at ht <;> cases ht
      · exact h
      · exact h.scmPut
      · exact h
      · exact h

theorem StateIn.dropOwner {o} (h : StateIn G L s) : StateIn G L (s.dropOwner o) := h

theorem StateIn.send {l} (h : StateIn G L s) : StateIn G L (s.send l) := h

/-! ### Queues and batches -/

theorem CoreIn.enqueue {i kind member lfsr hint} (h : CoreIn L c) : CoreIn L (c.enqueue i kind member lfsr hint) := .ite h.same h.same

theorem StateIn.enqueue {i kind member hint} (h : StateIn G L s) : StateIn G L (s.enqueue i kind member hint) :=
  h.modMe fun _ h => h.enqueue

theorem CoreIn.modCmd {id f} (h : CoreIn L c) : CoreIn L (c.modCmd id f) := h

theorem CoreIn.dropCmd {id} (h : CoreIn L c) : CoreIn L (c.dropCmd id) := h

theorem StateIn.applyBatch {c b} (h : StateIn G L s) : StateIn G L (s.applyBatch c b) := h.modCore.applyCounts

theorem StateIn.batchFatal {c b} (h : StateIn G L s) : StateIn G L (s.batchFatal c b) := by
  unfold State.batchFatal
  split
  · exact h.violationKill
  · exact h

theorem StateIn.resolveBatch {c b} (h : StateIn G L s) : StateIn G L (s.resolveBatch c b) := by
  unfold State.resolveBatch
  split
  · exact h.batchFatal
  · exact .ite h h.modCore.pendAsync
  · exact h

theorem StateIn.countOpen {c cb} (h : StateIn G L s) : StateIn G L (s.countOpen c cb) := by
  unfold State.countOpen
  split
  · exact .ite h.applyBatch.resolveBatch h
  · exact h

/-! ### Reads within a step and task descriptors -/

theorem StateIn.readLine {who ia n} (h : StateIn G L s) : ReadIn G L (s.readLine who ia n) := by
  unfold State.readLine
  split
  · split
    · exact .ok h
    · exact .error
  · split
    · exact .error
    · exact .ok h.reach.homeRead

theorem StateIn.readLines {who ia n} (h : StateIn G L s) : ReadIn G L (s.readLines who ia n) := by
  refine ReadIn.foldl (.ok h) fun r x hr => ?_
  cases r with
  | error e => exact .error
  | ok p => exact (StateIn.readLine (hr rfl)).map fun _ _ h => h

theorem StateIn.readVa {who wins need va n} (h : StateIn G L s) : ReadIn G L (s.readVa who wins need va n) := by
  refine ReadIn.foldl (.ok h) fun r x hr => ?_
  cases r with
  | error e => exact .error
  | ok p =>
    dsimp only
    split
    · exact .error
    · exact (StateIn.readLine (hr rfl)).map fun _ _ h => h

theorem CoreIn.fixLoads (h : CoreIn L c) : CoreIn L c.fixLoads := h

theorem StateIn.flushStores {c} (h : StateIn G L s) : StateIn G L (s.flushStores c) :=
  .ite h ((h.modCore fun _ h => h.fixLoads.same).foldl fun _ _ h => h.performStore)

theorem StateIn.lapseEmpty {va} (h : StateIn G L s) : StateIn G L (s.lapseEmpty va) := by
  unfold State.lapseEmpty
  split
  · exact h
  · exact .ite h h.modRegion

theorem StateIn.makeReady {va st} (h : StateIn G L s) : StateIn G L (s.makeReady va st) := h.lapseEmpty.modTask

/-- An accepted descriptor joins the tasks with no saved context. -/
theorem StateIn.accept {va b wins parent} (h : StateIn G L s) :
    StateIn G L { s with tasks := s.tasks ++ [taskOfDesc va b wins parent] } where
  __ := h
  tasks t ht := by
    rcases List.mem_append.1 ht with ht | ht
    · exact h.tasks t ht
    · rw [List.mem_singleton.1 ht]
      exact fun k hk => nomatch hk

theorem StateIn.submit {va who wins anc parent} (h : StateIn G L s) : StateIn G L (s.submit va who wins anc parent).1 := by
  unfold State.submit
  extract_lets
  split
  · exact h
  · split
    · exact h
    next t bs ht =>
      have h1 : StateIn G L t := h.readVa ht
      extract_lets
      split
      · exact h1
      · split
        · exact h1
        · exact StateIn.charge (.ite h1.accept h1.accept.makeReady)

end Sys2Proof.Proofs
end

section
/-! PROOFS. The slots at issue (08 to 11): what their shared operations leave, and the instructions whose meaning branches, keep the
forms of memories. -/

namespace Sys2Proof.Proofs

open Sys2Proof Sys2Proof.Machine Sys2Proof.Laws

-- One proof after another: each proof in parallel takes a thread of its own, and the check has no memory for as many.
set_option Elab.async false

variable {G L : MemForm} {s t : State} {c : Core} {cl : Cluster}

/-! ### The K slot -/

theorem StateIn.branch {target delay} (h : StateIn G L s) : StateIn G L (s.branch target delay) := h.modMe

theorem StateIn.link (h : StateIn G L s) : StateIn G L s.link := h.emit

theorem StateIn.startLoop {lc count len modulo stages} (h : StateIn G L s) :
    StateIn G L (s.startLoop lc count len modulo stages) := by
  unfold State.startLoop
  extract_lets pc stop n s1 s2 s3
  have h2 : StateIn G L s2 := StateIn.emit (h.modMe fun _ h => h.setLoop)
  have h3 : StateIn G L s3 := .ite (h2.foldl fun _ _ h => h.emit) h2
  exact .ite h.emit.branch h3.branch

theorem StateIn.look {i w} (h : StateIn G L s) : StateIn G L (s.look i w).1 := by
  unfold State.look
  extract_lets
  cases w with
  | word ia value cond wd first va =>
    dsimp only
    split
    · exact h
    next t bs ht => exact h.readLine ht
  | spawn va =>
    dsimp only
    split
    · exact h
    · split <;> exact h.submit
  | _ => exact h

theorem StateIn.satisfy {cid w} (h : StateIn G L s) : StateIn G L (s.satisfy cid w) := by
  unfold State.satisfy
  split
  · exact h.countOpen.countOpen
  · exact .ite (StateIn.countOpen (.ite h.countOpen h)) (.ite h.countOpen h)
  · exact h.modCore
  · exact h

theorem StateIn.satisfyNow {w} (h : StateIn G L s) : StateIn G L (s.satisfyNow w) := by
  unfold State.satisfyNow
  split
  · exact h.modMe
  · exact h.modMe
  · exact h.satisfy

theorem StateIn.beginWait {w} (h : StateIn G L s) : StateIn G L (s.beginWait w) := by
  unfold State.beginWait
  extract_lets
  split
  next t _ ht => exact (h.modMe.look.of_fst ht).raise
  next t _ ht => exact (h.modMe.look.of_fst ht).satisfyNow
  next t _ ht => exact (h.modMe.look.of_fst ht).modMe

theorem StateIn.execWaita {addr value cond w} (h : StateIn G L s) : OutIn G L (execWaita addr value cond w s) := by
  unfold Machine.execWaita
  refine .next (h.orRaise fun _ h => ?_)
  split
  · exact h.beginWait
  · exact h.raise

theorem StateIn.execHbar (h : StateIn G L s) : OutIn G L (execHbar s) := by
  unfold Machine.execHbar
  extract_lets s1
  have h1 : StateIn G L s1 := h.modMe fun _ h => .ite h h.same
  exact .next h1.beginWait

theorem StateIn.cachePieces {l} (h : StateIn G L s) : StateIn G L (s.cachePieces l) := by
  unfold State.cachePieces
  refine h.foldl fun _ _ h => ?_
  split
  · exact .ite h.cachePage h
  · exact h

theorem StateIn.execProbe {base len w} (h : StateIn G L s) : OutIn G L (execProbe base len w s) := by
  unfold Machine.execProbe
  extract_lets
  refine .next ?_
  split
  · exact h.cachePieces.same.raise
  · exact h.cachePieces.same

theorem StateIn.spawnAnswer {va pd issue readyAt} (h : StateIn G L s) : StateIn G L (s.spawnAnswer va pd issue readyAt).1 := by
  unfold State.spawnAnswer
  split
  next t r ht =>
    have h1 : StateIn G L t := h.submit.of_fst ht
    extract_lets put
    have hput : ∀ u b, StateIn G L u → StateIn G L (put u b) := fun u b h => h.modMe
    split
    · exact h1
    · exact hput _ _ h1
    · exact hput _ _ h1.charge

theorem StateIn.execSpawn {task pd} (h : StateIn G L s) : OutIn G L (execSpawn task pd s) := by
  unfold Machine.execSpawn
  extract_lets
  refine .next ?_
  split
  · split
    next t _ _ ht => exact (h.flushStores.spawnAnswer.of_fst ht).raise
    next t ht => exact h.flushStores.spawnAnswer.of_fst ht
  · exact h.flushStores.modMe

theorem StateIn.runSpawns (h : StateIn G L s) : StateIn G L s.runSpawns := by
  unfold State.runSpawns
  split
  · exact h
  · split
    · exact h
    · split
      next t _ _ ht => exact (h.modMe.spawnAnswer.of_fst ht).violation
      next t ht => exact h.modMe.spawnAnswer.of_fst ht

/-! ### The S slot -/

theorem StateIn.emitS {lat d v} (h : StateIn G L s) : StateIn G L (s.emitS lat d v) := h.emit

theorem StateIn.emitPair {lat pd pc v} (h : StateIn G L s) : StateIn G L (s.emitPair lat pd pc v) := h.emit.emit

theorem StateIn.execHaddr {d h' k} (h : StateIn G L s) : OutIn G L (execHaddr d h' k s) := by
  unfold Machine.execHaddr
  refine .next (h.orRaise fun _ h => ?_)
  split
  · exact h.emitS
  · exact h

/-! ### The V slot -/

theorem StateIn.emitVec {lat d v t} (h : StateIn G L s) : StateIn G L (s.emitVec lat d v t) := h.emitV

theorem StateIn.lane3 {op d a b ty t} (h : StateIn G L s) : StateIn G L (s.lane3 op d a b ty t) := h.orRaise fun _ h => h.emitVec

theorem StateIn.bits2 {f d a b t} (h : StateIn G L s) : StateIn G L (s.bits2 f d a b t) := h.orRaise fun _ h => h.emitVec

theorem StateIn.patterns {f d a b w t} (h : StateIn G L s) : StateIn G L (s.patterns f d a b w t) := h.orRaise fun _ h => h.emitVec

theorem StateIn.compare {f d a b ty t} (h : StateIn G L s) : StateIn G L (s.compare f d a b ty t) := h.patterns

theorem StateIn.laneS {op d a b ty t} (h : StateIn G L s) : StateIn G L (s.laneS op d a b ty t) := h.orRaise fun _ h => h.emitVec

theorem StateIn.widen {op d a b ty g} (h : StateIn G L s) : StateIn G L (s.widen op d a b ty g) :=
  h.orRaise fun _ h => h.foldl fun _ _ h => h.emitV

theorem StateIn.emitConv {lat d w l t sampled} (h : StateIn G L s) : StateIn G L (s.emitConv lat d w l t sampled) :=
  h.emitVec.emitCounts.stepLfsr

theorem StateIn.estimate {f d a t} (h : StateIn G L s) : StateIn G L (s.estimate f d a t) := h.orRaise fun _ h => h.emitVec

theorem StateIn.execVch {d a b n t} (h : StateIn G L s) : OutIn G L (execVch d a b n t s) := by
  unfold Machine.execVch
  refine .next (h.orRaise fun _ h => ?_)
  extract_lets
  split
  · exact h.emitVec
  · exact h

theorem StateIn.vload {d addr n} (h : StateIn G L s) : StateIn G L (s.vload d addr n) := h.orRaise fun _ h => .ite h.emit h.emitLoad

theorem StateIn.vstore {d addr n half} (h : StateIn G L s) : StateIn G L (s.vstore d addr n half) :=
  h.orRaise fun _ h => .ite h h.emitStore

theorem StateIn.execVldh {d h' k} (h : StateIn G L s) : OutIn G L (execVldh d h' k s) := by
  unfold Machine.execVldh
  refine .next ?_
  split
  · exact h.vload
  · exact h.orRaise fun _ h => h

theorem StateIn.execVsth {d h' k} (h : StateIn G L s) : OutIn G L (execVsth d h' k s) := by
  unfold Machine.execVsth
  refine .next ?_
  split
  · exact .ite (h.orRaise fun _ h => h) h.vstore
  · exact h.orRaise fun _ h => h

/-! ### The X slot -/

theorem StateIn.emitRuns {lat d w runs} (h : StateIn G L s) : StateIn G L (s.emitRuns lat d w runs) := h.foldl fun _ _ h => h.emitV

theorem StateIn.select {f d a b w t} (h : StateIn G L s) : StateIn G L (s.select f d a b w t) := h.orRaise fun _ h => h.emitVec

theorem StateIn.execXcvt {d a fin fout r} (h : StateIn G L s) : OutIn G L (execXcvt d a fin fout r s) := by
  unfold Machine.execXcvt
  refine .next ?_
  split
  · exact h.orRaise fun _ h => h.emitConv
  · exact h.raise

theorem StateIn.execXtbl {d a fn t} (h : StateIn G L s) : OutIn G L (execXtbl d a fn t s) := by
  unfold Machine.execXtbl
  refine .next ?_
  split
  · exact h.raise
  · exact h.orRaise fun _ h => h.emitVec

theorem StateIn.execXexp {d k n1 adv} (h : StateIn G L s) : OutIn G L (execXexp d k n1 adv s) := by
  unfold Machine.execXexp
  refine .next (h.orRaise fun _ h => ?_)
  split
  · exact h
  · exact .ite (h.foldl fun _ _ h => h.emitLoad).emit (h.foldl fun _ _ h => h.emitLoad)

/-! ### The C slots -/

theorem StateIn.member {q kind fail hint} (h : StateIn G L s) : StateIn G L (s.member q kind fail hint) := by
  unfold State.member
  extract_lets
  split
  · exact h.enqueue
  · exact h.enqueue.modMe fun _ h => h.modCmd

theorem StateIn.issueCopy {d src toMedia fromMedia hint} (h : StateIn G L s) :
    StateIn G L (s.issueCopy d src toMedia fromMedia hint) := h.member.stepLfsr

theorem StateIn.issueRows {d src idx kind hint} (h : StateIn G L s) : StateIn G L (s.issueRows d src idx kind hint) := by
  unfold State.issueRows
  extract_lets sampled s1
  have h1 : StateIn G L s1 := by
    unfold s1
    split <;> exact h.member
  exact h1.stepLfsr

theorem StateIn.writeBackGranule {c g} (h : StateIn G L s) : StateIn G L (s.writeBackGranule c g) := by
  unfold State.writeBackGranule
  split
  · exact h.pokeCells.modCore fun _ h => h.cleanGranule
  · exact h

theorem StateIn.retireEntry {cid e} (h : StateIn G L s) : StateIn G L (s.retireEntry cid e) := by
  unfold State.retireEntry
  extract_lets s1 l s2 mine s3
  have h1 : StateIn G L s1 := h.flushStores.modCore fun _ h => h.fixLoads
  have h2 : StateIn G L s2 := h1.foldl fun _ _ h => h.writeBackGranule.modCore fun _ h => h.dropGranule
  have h3 : StateIn G L s3 := h2.foldl fun _ _ h => h.performStore
  exact h3.modCore

theorem StateIn.execStmap {j rec} (h : StateIn G L s) : OutIn G L (execStmap j rec s) := by
  unfold Machine.execStmap
  refine .next (h.orRaise fun _ h => ?_)
  refine StateIn.emit ?_
  split
  · exact h.retireEntry
  · exact h

theorem StateIn.execStinv {mask} (h : StateIn G L s) : OutIn G L (execStinv mask s) :=
  .next (h.modMe fun _ h => h.fixLoads.same.foldl fun _ _ h => h.dropGranule)

theorem StateIn.prefetchPiece {who hint t n} (h : StateIn G L s) : StateIn G L (s.prefetchPiece who hint t n) := by
  unfold State.prefetchPiece
  split
  · split
    · exact h
    · split
      · exact h.reach
      · exact h
  · exact h

theorem StateIn.prefetch {who hint l} (h : StateIn G L s) : StateIn G L (s.prefetch who hint l).1 := by
  unfold State.prefetch
  split
  · exact h
  · exact h.same.foldl fun _ _ h => h.prefetchPiece

theorem StateIn.execPref {td hint} (h : StateIn G L s) : OutIn G L (execPref td hint s) := by
  unfold Machine.execPref
  refine .next (h.orRaise fun _ h => ?_)
  extract_lets
  split
  next t _ _ ht => exact (h.prefetch.of_fst ht).logViolation
  next t ht => exact h.prefetch.of_fst ht

theorem StateIn.execDecomp {td ti ratio} (h : StateIn G L s) : OutIn G L (execDecomp td ti ratio s) := by
  unfold Machine.execDecomp
  refine .next (h.orRaise fun _ h => ?_)
  split
  · exact h
  · extract_lets
    split
    · split <;> exact h.member
    · exact h.member

theorem StateIn.execBkcmd {prog engines args} (h : StateIn G L s) : OutIn G L (execBkcmd prog engines args s) := by
  unfold Machine.execBkcmd
  extract_lets
  refine .next ?_
  split
  · exact h.raise
  · exact h.orRaise fun _ h => h.enqueue

theorem StateIn.execBkvec {td engines} (h : StateIn G L s) : OutIn G L (execBkvec td engines s) := by
  unfold Machine.execBkvec
  refine .next (h.orRaise fun _ h => ?_)
  split
  · exact h.enqueue
  · exact h

end Sys2Proof.Proofs
end

section
/-! PROOFS. Commands as they are carried out (10 to 14): copies, the matrix array, chains, the bank engines, the decoder, and the events
of the queues keep the forms of memories. -/

namespace Sys2Proof.Proofs

open Sys2Proof Sys2Proof.Machine Sys2Proof.Laws

-- One proof after another: each proof in parallel takes a thread of its own, and the check has no memory for as many.
set_option Elab.async false

variable {G L : MemForm} {s t : State} {c : Core} {cl : Cluster}

/-! ### Copies and atomics -/

theorem StateIn.modCmd {c id f} (h : StateIn G L s) : StateIn G L (s.modCmd c id f) := h.modCore fun _ h => h.modCmd

theorem StateIn.setPerformed {c id} (h : StateIn G L s) : StateIn G L (s.setPerformed c id) := h.modCmd

theorem StateIn.failCmd {c q k status cls addr} (h : StateIn G L s) : StateIn G L (s.failCmd c q k status cls addr) := by
  unfold State.failCmd
  extract_lets
  split
  · exact h.dropOwner.violation
  · exact (StateIn.modCmd (.ite h.dropOwner.logViolation h.dropOwner.logCore)).modCore

theorem StateIn.moveWrite {c q k} (h : StateIn G L s) : StateIn G L (s.moveWrite c q k) := .ite h.modCmd.setPerformed h.modCmd.send

theorem StateIn.moveStart {c q k} (h : StateIn G L s) : StateIn G L (s.moveStart c q k) := .ite h.modCmd.moveWrite h.modCmd.send

theorem StateIn.amoStart {c q k} (h : StateIn G L s) : StateIn G L (s.amoStart c q k) := by
  unfold State.amoStart
  split
  · exact h
  · split
    · exact h.failCmd
    · split
      · exact h.failCmd
      · exact h.modCmd.send

theorem StateIn.amoResult {c q k} (h : StateIn G L s) : StateIn G L (s.amoResult c q k) := by
  unfold State.amoResult
  split
  · exact .ite h.failCmd (.ite h.failCmd h.modCmd.send)
  · exact h.setPerformed

theorem StateIn.flushStart {c q k l} (h : StateIn G L s) : StateIn G L (s.flushStart c q k l) := .ite h.setPerformed h.modCmd.send

theorem StateIn.colstepRun {c q k g step} (h : StateIn G L s) : StateIn G L (s.colstepRun c q k g step) :=
  .ite h.failCmd h.same.setPerformed

/-! ### The matrix array -/

theorem ClusterIn.zeroSlot {slot} (h : ClusterIn L cl) : ClusterIn L (cl.zeroSlot slot) := ⟨L.clear h.1, L.clear h.2⟩

theorem ClusterIn.zeroSlots {l : List Nat} (h : ClusterIn L cl) : ClusterIn L (l.foldl Cluster.zeroSlot cl) :=
  h.foldl fun _ _ h => h.zeroSlot

theorem StateIn.execOmclm {first n pd} (h : StateIn G L s) : OutIn G L (execOmclm first n pd s) := by
  refine .next (h.orRaise fun u hu => ?_)
  extract_lets cl l free fresh s1
  have hz : ∀ x, ClusterIn L x → ClusterIn L (fresh.foldl Cluster.zeroSlot x) := fun _ hx => hx.zeroSlots
  have h1 : StateIn G L s1 := .ite hu (StateIn.emit (hu.modCluster fun x hx => ⟨(hz x hx).1, (hz x hx).2⟩))
  exact h1.emit

theorem StateIn.joinArbiter {c} (h : StateIn G L s) : StateIn G L (s.joinArbiter c) := by
  unfold State.joinArbiter
  split
  · exact h
  · exact h.modCore

theorem StateIn.endGrant {cl} (h : StateIn G L s) : StateIn G L (s.endGrant cl) := by
  unfold State.endGrant
  split
  · exact h
  · exact h.modCore.modCluster

theorem StateIn.refreshArray {cl} (h : StateIn G L s) : StateIn G L (s.refreshArray cl) := by
  unfold State.refreshArray
  extract_lets s1
  have h1 : StateIn G L s1 := by
    unfold s1
    split
    · exact .ite h h.endGrant
    · exact h
  exact h1.foldl fun _ _ h => StateIn.modCore (.ite h.joinArbiter h)

theorem StateIn.execMrel (h : StateIn G L s) : OutIn G L (execMrel s) := by
  unfold Machine.execMrel
  extract_lets s1
  have h1 : StateIn G L s1 := by
    unfold s1
    split
    · exact h.modMe.setPerformed.refreshArray
    · exact h
  exact .next h1.emit.enqueue

theorem StateIn.execMresume (h : StateIn G L s) : OutIn G L (execMresume s) := by
  unfold Machine.execMresume
  refine .next ?_
  split
  · exact h.modCmd
  · exact h

theorem StateIn.mmaPass {c k a b z rd tb ta remote} (h : StateIn G L s) : StateIn G L (s.mmaPass c k a b z rd tb ta remote) := by
  unfold State.mmaPass
  split
  · exact h.modCore.modCmd
  · exact h.setPerformed

theorem StateIn.mmarFetch {c k a b tb ta} (h : StateIn G L s) : StateIn G L (s.mmarFetch c k a b tb ta) := h.modCmd.send

theorem StateIn.suspendMmar {c k cls x} (h : StateIn G L s) : StateIn G L (s.suspendMmar c k cls x) := by
  unfold State.suspendMmar
  split
  · exact h.dropOwner.modCmd.pendAsync
  · exact h

theorem StateIn.mzeroRun {c k} (h : StateIn G L s) : StateIn G L (s.mzeroRun c k) := h.modCore.setPerformed

theorem StateIn.maccLoad {c k o} (h : StateIn G L s) : StateIn G L (s.maccLoad c k o) := by
  unfold State.maccLoad
  split
  · exact h.setPerformed
  · exact h.modCore.setPerformed

theorem StateIn.drainWrite {c k o codes n} (h : StateIn G L s) : StateIn G L (s.drainWrite c k o codes n) := h.modCmd.send

theorem StateIn.mdrainRun {c k o} (h : StateIn G L s) : StateIn G L (s.mdrainRun c k o) := by
  unfold State.mdrainRun
  extract_lets m bad
  clear_value bad
  cases bad with
  | nil => exact h.drainWrite
  | cons e l => exact h.pendAsync.setPerformed

/-! ### Weight chains -/

theorem CoreIn.modChain {f} (h : CoreIn L c) : CoreIn L (c.modChain f) := h

theorem CoreIn.abortChain {running} (h : CoreIn L c) : CoreIn L (c.abortChain running) := .ite h h.same

theorem StateIn.abortChain (h : StateIn G L s) : StateIn G L s.abortChain := (h.modMe fun _ h => h.abortChain).refreshArray

theorem StateIn.execChbeg {pricking tdIn tdOut} (h : StateIn G L s) : OutIn G L (execChbeg pricking tdIn tdOut s) := by
  unfold Machine.execChbeg
  refine .next (h.orRaise fun _ h => ?_)
  split
  · exact h
  · exact .ite (h.modMe fun _ h => h.modChain) (h.abortChain.modMe fun _ h => h.modChain)

theorem StateIn.issueChain {n} (h : StateIn G L s) : StateIn G L (s.issueChain n) := by
  unfold State.issueChain
  extract_lets
  exact (h.enqueue.modMe fun _ h => h.modChain).refreshArray

theorem CoreIn.stepProgress {k gen f} (h : CoreIn L c) : CoreIn L (c.stepProgress k gen f) := .ite h.modChain h

theorem StateIn.stepStarts {c} (h : StateIn G L s) : StateIn G L (s.stepStarts c) := by
  unfold State.stepStarts
  split
  · split
    · exact .ite (h.modCore fun _ h => h.stepProgress) h
    · exact h
  · exact h

theorem StateIn.chainPass {i k gen p input start links} (h : StateIn G L s) :
    StateIn G L (s.chainPass i k gen p input start links) := by
  unfold State.chainPass
  extract_lets
  split
  · extract_lets
    split
    extract_lets _ s1 _ s2 s3
    have h1 : StateIn G L s1 := h.modCore
    have h2 : StateIn G L s2 := .ite h1 (h1.modCluster fun _ h => ⟨L.foldl h.1 fun _ _ h => L.put h, h.2⟩)
    have h3 : StateIn G L s3 := h2.modCore fun _ h => h.stepProgress
    exact h3.modCmd
  · exact h.setPerformed

theorem StateIn.chendRun {c k p o} (h : StateIn G L s) : StateIn G L (s.chendRun c k p o) := h.drainWrite

theorem StateIn.chgradPass {c k l r g rL rR} (h : StateIn G L s) : StateIn G L (s.chgradPass c k l r g rL rR) := by
  unfold State.chgradPass
  extract_lets
  split
  split
  split
  extract_lets _ _ _ s1
  have h1 : StateIn G L s1 := h.modCore
  exact h1.modCmd.send

/-! ### The bank engines -/

theorem StateIn.modJob {id f} (h : StateIn G L s) : StateIn G L (s.modJob id f) := h

theorem StateIn.logJob {j addr kind code} (h : StateIn G L s) : StateIn G L (s.logJob j addr kind code) := by
  unfold State.logJob
  split
  · exact h.logEntry
  · exact h.logModule

theorem StateIn.logJobViolation {j cls addr} (h : StateIn G L s) : StateIn G L (s.logJobViolation j cls addr) := h.missed.logJob

theorem StateIn.modIssuer {j f} (h : StateIn G L s) (hf : ∀ x, CoreIn L x → CoreIn L (f x) := by exact fun _ h => ⟨h.1, h.2⟩) :
    StateIn G L (s.modIssuer j f) := by
  unfold State.modIssuer
  split
  · exact h.modCore hf
  · refine .ite h (h.modTask fun _ ht => SavedIn.map ht fun k hk => ?_)
    split
    · exact hf _ hk
    · exact hk

theorem CoreIn.savedAsync {cause t0 t1} (h : CoreIn L c) : CoreIn L (c.savedAsync cause t0 t1) := h

theorem StateIn.trapJob {j t0 t1} (h : StateIn G L s) : StateIn G L (s.trapJob j t0 t1) := by
  unfold State.trapJob
  split
  · exact h.postEvent
  · split
    · exact h.pendAsync
    · exact h.modIssuer fun _ h => h.savedAsync

theorem StateIn.endJob {j} (h : StateIn G L s) : StateIn G L (s.endJob j) := by
  unfold State.endJob
  extract_lets
  split
  · exact h.same.charge.modIssuer fun _ h => h.dropCmd
  · exact .ite h.same.charge h.same.charge.modTask

theorem StateIn.vecRead {c k id p} (h : StateIn G L s) : StateIn G L (s.vecRead c k id p) := by
  obtain ⟨t, place, n⟩ := p
  unfold State.vecRead
  cases t with
  | global _ | bad _ _ => exact h.send
  | scratch d a =>
    dsimp only
    split <;> exact h.modJob
  | vreg d phys off => exact h.modJob
  | _ => exact h

theorem StateIn.execBankCommandAccept (h : StateIn G L s) : OutIn G L (execBankCommandAccept s) := by
  unfold Machine.execBankCommandAccept
  extract_lets
  split
  · exact .next h
  · extract_lets
    split
    · exact .next h
    · split
      · exact .next h
      · refine .next (StateIn.modCmd ?_)
        split
        · exact h.same.foldl fun _ _ h => h.vecRead
        · exact h.same

theorem StateIn.checkJob {j} (h : StateIn G L s) : StateIn G L (s.checkJob j).1 := by
  unfold State.checkJob
  split
  · exact h
  · split
    · exact h
    · split
      · exact h
      next t _ ht =>
        extract_lets
        split
        · exact h.readVa ht
        · split <;> exact h.readVa ht

theorem StateIn.engineNext {e n} (h : StateIn G L s) : StateIn G L (s.engineNext e n) := by
  induction n generalizing s with
  | zero => exact h
  | succ n ih =>
    unfold State.engineNext
    refine .ite h ?_
    split
    · exact h
    · refine .ite h ?_
      split
      · exact .ite (ih h.logJob.modJob) h.modEngine
      · exact .ite (ih h.logJob.modJob) (ih h.modEngine.modJob)

theorem StateIn.enginesNext {l} (h : StateIn G L s) : StateIn G L (s.enginesNext l) := h.foldl fun _ _ h => h.engineNext

theorem StateIn.refuseJob {j fail} (h : StateIn G L s) : StateIn G L (s.refuseJob j fail) := by
  unfold State.refuseJob
  extract_lets s1
  have h1 : StateIn G L s1 := by
    unfold s1
    split
    · exact h.logJobViolation
    · exact h
  exact h1.trapJob.endJob.enginesNext

theorem StateIn.execBankProgramStart (h : StateIn G L s) : OutIn G L (execBankProgramStart s) := by
  unfold Machine.execBankProgramStart
  refine .next ?_
  split
  · exact h
  · split
    · exact h
    · split
      · split
        · exact h.refuseJob
        · exact h.modJob.enginesNext
      · split
        · exact h
        · split
          next t _ ht => exact (h.checkJob.of_fst ht).refuseJob
          next t _ ht => exact .ite h (h.checkJob.of_fst ht).modJob.enginesNext

theorem StateIn.jobFatal {j cls addr} (h : StateIn G L s) : StateIn G L (s.jobFatal j cls addr) := by
  unfold State.jobFatal
  extract_lets
  split
  · exact h.logJobViolation
  · split
    · exact h.logJobViolation.violationKill
    · exact h.logJobViolation.killTask

theorem StateIn.execBankProgramComplete (h : StateIn G L s) : OutIn G L (execBankProgramComplete s) := by
  unfold Machine.execBankProgramComplete
  refine .next ?_
  split
  · exact h
  · split
    · exact h
    · split
      · split
        · exact h.trapJob.endJob
        · exact h.endJob
      · split
        · exact h.jobFatal.endJob
        · split
          · exact h
          · exact h.jobFatal.endJob
          next t _ ht => exact (h.performGlobal ht).endJob

theorem StateIn.modEng {f} (h : StateIn G L s) : StateIn G L (s.modEng f) := h.modEngine

theorem StateIn.engineEnd {e code} (h : StateIn G L s) : StateIn G L (s.engineEnd e code) := by
  unfold State.engineEnd
  extract_lets
  split
  · exact h.modEngine
  · exact (StateIn.modJob (.ite h.modEngine h.modEngine.logJob)).engineNext

theorem StateIn.engineViolation {e id cls addr} (h : StateIn G L s) : StateIn G L (s.engineViolation e id cls addr) := by
  unfold State.engineViolation
  split
  · exact h
  · exact .ite h.logJobViolation.engineEnd (.ite h.logJobViolation.logJob.modJob h.logJobViolation)

theorem StateIn.engFault {code} (h : StateIn G L s) : StateIn G L (s.engFault code) := h.engineEnd

theorem StateIn.engStep {cycles f} (h : StateIn G L s) : StateIn G L (s.engStep cycles f) := h.modEng

theorem StateIn.mac {a sg gv ty n x} (h : StateIn G L s) : StateIn G L (s.mac a sg gv ty n x) := by
  unfold State.mac
  split
  · exact h.engFault
  · exact h.engStep

theorem StateIn.execBout {acc go n1} (h : StateIn G L s) : OutIn G L (execBout acc go n1 s) := by
  unfold Machine.execBout
  extract_lets
  refine .next ?_
  split
  · exact h.engFault
  · exact .ite h.engFault (.ite h h.send.engStep)

theorem StateIn.execBsig {g} (h : StateIn G L s) : OutIn G L (execBsig g s) := by
  unfold Machine.execBsig
  refine .next ?_
  split
  · exact h.engFault
  · split
    · exact h
    · extract_lets
      split
      · exact h.logJobViolation.engFault
      · exact h.send.engStep

theorem StateIn.execBldv {gv sg n1} (h : StateIn G L s) : OutIn G L (execBldv gv sg n1 s) := by
  unfold Machine.execBldv
  extract_lets
  refine .next ?_
  split
  · exact h.engFault
  · split
    · exact h.engFault
    · split
      · exact h.engFault
      · exact h.engStep

/-! ### The decoder -/

theorem StateIn.ddictStart {c k o} (h : StateIn G L s) : StateIn G L (s.ddictStart c k o) := h.modCmd.send

theorem StateIn.ddictLoad {c k} (h : StateIn G L s) : StateIn G L (s.ddictLoad c k) := h.modCore.setPerformed

theorem StateIn.decodeFail {c k ratio addr} (h : StateIn G L s) : StateIn G L (s.decodeFail c k ratio addr) := by
  unfold State.decodeFail
  extract_lets
  split
  · exact h.failCmd.modCore.pendAsync
  · exact h.failCmd

theorem CoreIn.fillSlot {k} (h : CoreIn L c) : CoreIn L (c.fillSlot k) := by
  unfold Core.fillSlot
  split
  · split
    · exact .ite h h.modCmd
    · exact h.modCmd
  · exact h

theorem StateIn.chunkStart {c k d l} (h : StateIn G L s) : StateIn G L (s.chunkStart c k d l) := by
  unfold State.chunkStart
  split
  · exact .ite h.decodeFail h.modCmd.send
  · refine StateIn.setPerformed ?_
    split
    · exact .ite h (h.modCore fun _ h => h.fillSlot)
    · exact h

theorem StateIn.fillSlots {i id n bs} (h : StateIn G L s) : StateIn G L (s.fillSlots i id n bs).1 := by
  induction n generalizing s bs with
  | zero => exact h
  | succ n ih =>
    unfold State.fillSlots
    split
    · exact h
    · extract_lets at0 m a s1 s2 s3
      have h2 : StateIn G L s2 := StateIn.modCmd (h.modCore fun _ h => h.engineWrite)
      have h3 : StateIn G L s3 := .ite h2 (h2.modCore fun _ h => h.fillSlot)
      split
      · exact h
      · split
        · exact h.failCmd
        · exact ih h3
    · exact h

theorem StateIn.chunkFill {c k d l q} (h : StateIn G L s) : StateIn G L (s.chunkFill c k d l q) := by
  unfold State.chunkFill
  split
  split
  split
  next t all ht =>
    have h1 : StateIn G L t := h.fillSlots.of_fst ht
    split
    · exact h1
    · refine .ite h1 (.ite h1.modCmd ?_)
      split
      · exact h1.decodeFail
      · refine .ite h1.decodeFail ?_
        extract_lets t2
        have h2 : StateIn G L t2 := h1.modCmd
        split
        · exact h2.chunkStart
        · exact h2

theorem StateIn.decompStart {c k d i entries} (h : StateIn G L s) : StateIn G L (s.decompStart c k d i entries) := by
  unfold State.decompStart
  split
  · exact h.chunkStart
  · exact h.modCmd.send

theorem StateIn.decompRead {c k d i entries q h'} (h : StateIn G L s) : StateIn G L (s.decompRead c k d i entries q h') := by
  unfold State.decompRead
  split
  · exact h.chunkFill
  · exact h.modCmd.chunkStart

theorem StateIn.execDecoderResume (h : StateIn G L s) : OutIn G L (execDecoderResume s) := by
  unfold Machine.execDecoderResume
  extract_lets
  refine .next ?_
  split
  · exact h
  · split
    · exact h
    · split
      · exact .ite h h.chunkFill
      · exact h

/-! ### Events of the queues, of memory and of the arrays -/

theorem StateIn.settleEarly {c q k} (h : StateIn G L s) : StateIn G L (s.settleEarly c q k).1 := by
  unfold State.settleEarly
  split
  · exact h.setPerformed
  · split
    · exact h.failCmd
    · exact h

theorem StateIn.fenceStart {c k id} (h : StateIn G L s) : StateIn G L (s.fenceStart c k id) := .ite h.setPerformed h

theorem StateIn.recordStart {c q k b va value counters} (h : StateIn G L s) :
    StateIn G L (s.recordStart c q k b va value counters) := by
  unfold State.recordStart
  refine .ite h.failCmd ?_
  split
  · exact h.failCmd
  · exact h.modCmd.send

theorem StateIn.cbatchStart {c q k num va value counters} (h : StateIn G L s) :
    StateIn G L (s.cbatchStart c q k num va value counters) := by
  unfold State.cbatchStart
  split
  · exact h.setPerformed
  · split
    · exact h
    · split
      · exact h.setPerformed
      · exact h.recordStart

theorem StateIn.startCopy {c q k} (h : StateIn G L s) : StateIn G L (s.startCopy c q k) := by
  unfold State.startCopy
  extract_lets
  split
  · exact h.fenceStart
  · exact .ite h.cbatchStart h
  · split
    · exact h
    · split
      next t ht => exact h.settleEarly.of_fst ht
      next t ht =>
        split
        · exact (h.settleEarly.of_fst ht).moveStart
        · exact (h.settleEarly.of_fst ht).moveStart
        · exact (h.settleEarly.of_fst ht).moveStart
        · exact (h.settleEarly.of_fst ht).moveStart
        · exact (h.settleEarly.of_fst ht).amoStart
        · exact (h.settleEarly.of_fst ht).amoStart
        · exact (h.settleEarly.of_fst ht).flushStart
        · exact (h.settleEarly.of_fst ht).colstepRun
        · exact (h.settleEarly.of_fst ht).setPerformed

theorem StateIn.arrayStart {c k} (h : StateIn G L s) : StateIn G L (s.arrayStart c k) := by
  unfold State.arrayStart
  split
  · exact h
  · refine StateIn.stepStarts ?_
    split
    · exact h.modCluster.modCmd.modCore
    · exact h.modCluster.modCmd.modCore
    · exact h.modCluster.modCmd

theorem StateIn.startMatrix {c k} (h : StateIn G L s) : StateIn G L (s.startMatrix c k) := by
  unfold State.startMatrix
  split
  · exact h.fenceStart
  · split
    · exact h
    · split
      · exact h.mmarFetch
      · exact h.arrayStart
      · exact h.arrayStart
      · exact h.arrayStart
      · exact h.mzeroRun
      · exact h.modCmd.send
      · exact h.mdrainRun
      · exact h.chendRun
      · exact h.setPerformed

theorem StateIn.startDecoder {c k} (h : StateIn G L s) : StateIn G L (s.startDecoder c k) := by
  unfold State.startDecoder
  split
  · exact h.fenceStart
  · split
    next t ht => exact h.settleEarly.of_fst ht
    next t ht =>
      split
      · exact (h.settleEarly.of_fst ht).decompStart
      · exact (h.settleEarly.of_fst ht).ddictStart
      · exact (h.settleEarly.of_fst ht).setPerformed

theorem StateIn.execQueueCommandStart {q} (h : StateIn G L s) : OutIn G L (execQueueCommandStart q s) := by
  unfold Machine.execQueueCommandStart
  extract_lets
  refine .next ?_
  split
  · exact h
  · split
    · exact h
    · split
      · exact h.startCopy.refreshArray
      · exact h.startCopy.refreshArray
      · exact h.startMatrix.refreshArray
      · exact h.startDecoder
      · split
        · exact h.fenceStart
        · exact h

theorem StateIn.phaseDone {c q k} (h : StateIn G L s) : StateIn G L (s.phaseDone c q k) := by
  unfold State.phaseDone
  split
  · exact h.moveWrite
  · exact h.moveWrite
  · exact h.moveWrite
  · exact h.moveWrite
  · exact h.amoResult
  · exact h.amoResult
  · exact h.maccLoad
  · exact h.decompRead
  · exact h.ddictLoad
  · exact h.setPerformed
  · exact h

theorem StateIn.chargeCopy {c id op} (h : StateIn G L s) : StateIn G L (s.chargeCopy c id op) := by
  unfold State.chargeCopy
  split
  · exact .ite h.charge h
  · exact h

theorem StateIn.deliver {o op bs} (h : StateIn G L s) : StateIn G L (s.deliver o op bs) := by
  unfold State.deliver
  split
  · extract_lets
    split
    · exact h.chargeCopy.modCmd
    · split
      · exact h.chargeCopy.modCmd.phaseDone
      · exact h.chargeCopy.modCmd
  · split
    · exact h.modJob
    · exact h
  · exact h

theorem StateIn.accessFail {a cls addr} (h : StateIn G L s) : StateIn G L (s.accessFail a cls addr) := by
  unfold State.accessFail
  split
  · split
    · exact h
    · split
      · exact .ite h.logViolation.suspendMmar h.failCmd
      · exact h.failCmd
  · exact h.engineViolation
  · exact h.dropOwner.modJob
  · exact h.undoEvent.logDropped
  · exact h

theorem StateIn.performPending {k off len ans} (h : StateIn G L s) : StateIn G L (s.performPending k off len ans) := by
  unfold State.performPending
  split
  · exact h
  · split
    refine .ite h ?_
    extract_lets
    split
    · exact h
    · exact h.same.accessFail
    next t _ ht => exact (h.performAccess ht).same.deliver

theorem StateIn.performIncoming {who ia req} (h : StateIn G L s) : StateIn G L (s.performIncoming who ia req) := by
  unfold State.performIncoming
  extract_lets
  split
  · exact h
  · split
    next t _ ht => exact h.performGlobal ht
    · exact .ite h.logModuleViolation h.missed
    · exact h

theorem StateIn.peerRecall {ia write} (h : StateIn G L s) : StateIn G L (s.peerRecall ia write) := .ite h.recall.overtake h.recall

theorem StateIn.execHomeAccess {a} (h : StateIn G L s) : OutIn G L (execHomeAccess a s) := by
  unfold Machine.execHomeAccess
  refine .next ?_
  split
  · extract_lets
    split
    · exact h.performPending.refreshArray
    · exact h.performPending
  · exact .ite h.performIncoming h
  · exact h.supervise fun _ h => h.performIncoming
  · exact .ite h h.peerRecall

theorem StateIn.joinBatch {c k} (h : StateIn G L s) : StateIn G L (s.joinBatch c k) := by
  unfold State.joinBatch
  split
  · exact h
  · extract_lets
    split
    · exact .ite h.modCore h.modCore.logCore.modCore
    · exact h.modCore

theorem CoreIn.takeSlot {k} (h : CoreIn L c) : CoreIn L (c.takeSlot k) := by
  unfold Core.takeSlot
  split <;> exact h

theorem StateIn.retireCmd {c q k} (h : StateIn G L s) : StateIn G L (s.retireCmd c q k) := by
  unfold State.retireCmd
  extract_lets
  split
  · exact (h.joinBatch.modCore fun _ h => h.takeSlot.dropCmd).applyCounts.refreshArray
  · exact (h.joinBatch.modCore fun _ h => h.takeSlot.dropCmd).applyCounts.refreshArray
  · split
    · exact (h.joinBatch.modCore fun _ h => h.takeSlot.dropCmd).refreshArray
    · exact h.joinBatch.modCore fun _ h => h.takeSlot.dropCmd

theorem StateIn.execQueueCommandComplete {q k} (h : StateIn G L s) : OutIn G L (execQueueCommandComplete q k s) := by
  unfold Machine.execQueueCommandComplete
  extract_lets
  refine .next ?_
  split
  · exact h
  · split
    · exact h
    · exact h
    · exact h
    · exact .ite h h.retireCmd

theorem CoreIn.dropBatch {cb num} (h : CoreIn L c) : CoreIn L (c.dropBatch cb num) := h

theorem StateIn.execBatchComplete {q} (h : StateIn G L s) : OutIn G L (execBatchComplete q s) := by
  unfold Machine.execBatchComplete
  extract_lets
  refine .next ?_
  split
  · split
    · split
      · exact h
      · extract_lets
        split
        · exact h.modCore fun _ h => h.dropCmd
        · extract_lets
          split
          · exact (h.modCore fun _ h => h.dropCmd).applyBatch.modCore fun _ h => h.dropBatch
          · exact ((h.modCore fun _ h => h.dropCmd).applyBatch.modCore fun _ h => h.dropBatch).resolveBatch
    · exact h
  · exact h

theorem StateIn.execMmarFetchReturn {ans} (h : StateIn G L s) : OutIn G L (execMmarFetchReturn ans s) := by
  unfold Machine.execMmarFetchReturn
  extract_lets
  refine .next ?_
  split
  · exact h
  · exact h.performPending.refreshArray

theorem StateIn.execMmarFetchTimeout (h : StateIn G L s) : OutIn G L (execMmarFetchTimeout s) := by
  unfold Machine.execMmarFetchTimeout
  extract_lets
  refine .next ?_
  split
  · exact h
  · split
    · exact .ite h.suspendMmar.refreshArray h
    · exact h

theorem StateIn.execArrayGrant (h : StateIn G L s) : OutIn G L (execArrayGrant s) := by
  unfold Machine.execArrayGrant
  extract_lets
  refine .next ?_
  split
  · exact h.modCluster.stepStarts
  · exact h

theorem StateIn.runPass {c k} (h : StateIn G L s) : StateIn G L (s.runPass c k) := by
  unfold State.runPass
  split
  · exact h.mmaPass
  · exact h.chainPass
  · exact h.chgradPass
  · exact h

theorem StateIn.afterPass {cl c k} (h : StateIn G L s) : StateIn G L (s.afterPass cl c k) := by
  unfold State.afterPass
  extract_lets
  split
  · exact .ite h.modCluster.charge.endGrant h.modCluster.charge
  · exact h.modCluster.charge

theorem StateIn.execArrayPassComplete (h : StateIn G L s) : OutIn G L (execArrayPassComplete s) := by
  unfold Machine.execArrayPassComplete
  extract_lets cl
  refine .next ?_
  split
  · exact h
  · extract_lets c
    split
    next k _ =>
      extract_lets s1 s2
      have h1 : StateIn G L s1 := h.runPass.afterPass
      have h2 : StateIn G L s2 := by
        unfold s2
        split
        · exact .ite h1.setPerformed h1
        · exact h1
      exact .ite h (StateIn.refreshArray (.ite h2.stepStarts h2))
    · exact h

theorem CoreIn.fillGranule {g bs} (h : CoreIn L c) : CoreIn L (c.fillGranule g bs) := ⟨L.put (L.clear h.1), h.2⟩

theorem StateIn.readGranule {p ia} (h : StateIn G L s) : StateIn G L (s.readGranule p ia).1 := by
  unfold State.readGranule
  dsimp only
  exact h.foldl fun _ _ h => h.recall

theorem StateIn.execStashFillComplete {ans} (h : StateIn G L s) : OutIn G L (execStashFillComplete ans s) := by
  unfold Machine.execStashFillComplete
  extract_lets
  refine .next ?_
  split
  · refine .ite h ?_
    split
    · exact h.modCore
    · extract_lets
      split
      · refine .ite h.violation ?_
        split
        · exact h
        · exact h.violation
        · exact h.modCore fun _ h => h.fillGranule
      · refine .ite h ?_
        split
        · exact h.violation
        · refine .ite h.violation ?_
          split
          next t bs ht =>
            have h1 : StateIn G L t := h.reach.readGranule.of_fst ht
            exact h1.modCore fun _ h => h.fillGranule
  · exact h

end Sys2Proof.Proofs
end

section
/-! PROOFS. Contexts, the dispatcher and leases (02, 15, 20): saving and restoring move memories that have their forms, and the rest
touches none. -/

namespace Sys2Proof.Proofs

open Sys2Proof Sys2Proof.Machine Sys2Proof.Laws

-- One proof after another: each proof in parallel takes a thread of its own, and the check has no memory for as many.
set_option Elab.async false

variable {G L : MemForm} {s t : State} {c : Core} {cl : Cluster}

/-! ### Contexts -/

theorem StateIn.drainPipe {i n} (h : StateIn G L s) : StateIn G L (s.drainPipe i n) := by
  induction n generalizing s with
  | zero => exact h
  | succ n ih => exact .ite h (ih h.tick)

theorem CoreIn.abandonWait (h : CoreIn L c) : CoreIn L c.abandonWait := by
  unfold Core.abandonWait
  split <;> exact h

theorem CoreIn.context {vfoot} (h : CoreIn L c) : CoreIn L (c.context vfoot) := by
  have h1 : CoreIn L (if c.status == .exiting then c else c.abandonWait) := .ite h h.abandonWait
  exact ⟨L.filter _ h1.1, h1.2⟩

theorem StateIn.writeBackAll {c} (h : StateIn G L s) : StateIn G L (s.writeBackAll c) := by
  unfold State.writeBackAll
  extract_lets
  split
  · exact h.foldl fun _ _ h => h.writeBackGranule
  · exact (h.foldl fun _ _ h => h.writeBackGranule).same.violation

theorem StateIn.saveCore {i vfoot} (h : StateIn G L s) :
    StateIn G L (s.saveCore i vfoot).1 ∧ CoreIn L (s.saveCore i vfoot).2.core := by
  unfold State.saveCore
  extract_lets s1 j s2 saved s3
  have h2 : StateIn G L s2 := .ite h.drainPipe.writeBackAll.endGrant h.drainPipe.writeBackAll
  exact ⟨StateIn.refreshArray (StateIn.vacateCore h2), (h2.core i).context⟩

theorem StateIn.saveCores {vfoot l} (h : StateIn G L s) :
    StateIn G L (s.saveCores vfoot l).1 ∧ SavedIn L (s.saveCores vfoot l).2 := by
  induction l generalizing s with
  | nil => exact ⟨h, fun k hk => nomatch hk⟩
  | cons i l ih =>
    unfold State.saveCores
    split
    next t k ht =>
      obtain ⟨h1, hk⟩ := h.saveCore (i := i) (vfoot := vfoot)
      rw [ht] at h1 hk
      obtain ⟨h2, hks⟩ := ih h1
      split
      next u ks hu =>
        rw [hu] at h2 hks
        exact ⟨h2, List.forall_mem_cons.2 ⟨hk, hks⟩⟩

theorem StateIn.saveContext {k cause} (h : StateIn G L s) : StateIn G L (s.saveContext k cause) :=
  h.saveCores.1.modTask fun _ _ => h.saveCores.2

theorem StateIn.preempted {t reason} (h : StateIn G L s) : StateIn G L (s.preempted t reason) :=
  .ite h.saveContext (.ite h.saveContext.makeReady.charge.charge h.saveContext.makeReady.charge)

theorem StateIn.winset {region} (h : StateIn G L s) : StateIn G L (s.winset region).1 := by
  unfold State.winset
  split
  · exact h
  · split
    next t _ ht => exact h.readLines ht
    · exact h.logModuleViolation

theorem CoreIn.under {x now wins entry granted} (h : CoreIn L x) : CoreIn L (c.under x now wins entry granted) := h

theorem StateIn.restoreSlots {i l} (h : StateIn G L s) : StateIn G L (s.restoreSlots i l) :=
  h.modCluster fun _ h => h.foldl fun _ _ h => ⟨L.putCells h.zeroSlot.1, L.putCells h.zeroSlot.2⟩

theorem StateIn.restoreCore {i k wins entry granted} (h : StateIn G L s) (hk : CoreIn L k.core) :
    StateIn G L (s.restoreCore i k wins entry granted) := by
  unfold State.restoreCore
  extract_lets s1 s2
  have h1 : StateIn G L s1 := h.modCore fun _ _ => hk.under
  have h2 : StateIn G L s2 := h1.restoreSlots
  exact StateIn.refreshArray (.ite h2.joinArbiter h2)

/-! ### The dispatcher -/

theorem CoreIn.launch {k r x y now wins entry granted} (h : CoreIn L c) : CoreIn L (c.launch k r x y now wins entry granted) :=
  ⟨h.1, L.empty⟩

theorem StateIn.launchCores {t r p wins entry} (h : StateIn G L s) : StateIn G L (s.launchCores t r p wins entry) :=
  h.foldl fun _ _ h => h.modCore fun _ h => h.launch

theorem StateIn.resumeCores {k p wins entry} (h : StateIn G L s) (hk : TaskIn L k) : StateIn G L (s.resumeCores k p wins entry) :=
  List.foldlRecOn _ _ h fun _ h x hx => (h.restoreCore (hk x.1 (List.of_mem_zip hx).1)).modCore

theorem StateIn.deliverEvent {r c} (h : StateIn G L s) : StateIn G L (s.deliverEvent r c) := by
  unfold State.deliverEvent
  split
  · exact h
  · exact h.modRegion.pendAsync

theorem StateIn.prefetchOperands {t c wins} (h : StateIn G L s) : StateIn G L (s.prefetchOperands t c wins) := by
  refine h.foldl fun u x h => ?_
  obtain ⟨va, n, mode⟩ := x
  refine .ite h ?_
  split
  next u _ _ hu => exact (h.prefetch.of_fst hu).logModuleViolation
  next u hu => exact h.prefetch.of_fst hu

theorem StateIn.runCoreTask {k r p} (h : StateIn G L s) (hk : TaskIn L k) : StateIn G L (s.runCoreTask k r p) := by
  unfold State.runCoreTask
  split
  next t wins ht =>
    extract_lets entry record s1 s2 s3
    have h1 : StateIn G L s1 := (h.winset.of_fst ht).modTask fun _ _ _ hy => nomatch hy
    have h2 : StateIn G L s2 := .ite h1.launchCores (h1.resumeCores hk)
    have h3 : StateIn G L s3 := h2.same
    split
    · exact h3.prefetchOperands.deliverEvent
    · exact h3

theorem StateIn.runBankTask {t} (h : StateIn G L s) : StateIn G L (s.runBankTask t) := by
  unfold State.runBankTask
  split
  next u wins hu =>
    extract_lets _ _ _ s1 s2
    have h1 : StateIn G L s1 := (h.winset.of_fst hu).modTask
    have h2 : StateIn G L s2 := h1.same
    exact .ite h2.refuseJob h2

theorem StateIn.dispatch {k r p} (h : StateIn G L s) (hk : TaskIn L k) : StateIn G L (s.dispatch k r p) := by
  unfold State.dispatch
  extract_lets s1
  have h1 : StateIn G L s1 := h.modTask
  split
  · exact h.runCoreTask hk
  · exact h.runBankTask
  · exact h1.same

theorem CoreIn.skipSpawn {k : SavedCore} (h : CoreIn L k.core) : CoreIn L k.skipSpawn.core := by
  unfold SavedCore.skipSpawn
  split
  · split <;> exact h
  · exact h

theorem StateIn.convert {k i child} (h : StateIn G L s) : StateIn G L (s.convert k i child) := by
  unfold State.convert
  extract_lets s1
  have h1 : StateIn G L s1 := h.chargeTask.saveContext
  refine .ite h1 (h1.makeReady.modTask fun t ht => ?_).charge
  intro k hk
  obtain ⟨⟨j, x⟩, hx, rfl⟩ := List.mem_map.1 hk
  have hc : CoreIn L x.core := ht x (List.of_mem_zip hx).2
  dsimp only
  split
  · exact hc.skipSpawn
  · exact hc

theorem StateIn.preemptNow {t reason} (h : StateIn G L s) : StateIn G L (s.preemptNow t reason) := by
  unfold State.preemptNow
  extract_lets s1
  have h1 : StateIn G L s1 := by
    unfold s1
    split
    · exact h.convert
    · exact h.chargeTask.preempted
  exact h1.flushCharges

theorem StateIn.requestPreempt {t reason} (h : StateIn G L s) : StateIn G L (s.requestPreempt t reason) :=
  .ite h (.ite h.preemptNow (h.modTask.foldl fun _ _ h => h.refreshArray))

theorem StateIn.seekVictim {t} (h : StateIn G L s) : StateIn G L (s.seekVictim t) := by
  unfold State.seekVictim
  split
  · exact h
  · split
    · exact h.modTask.requestPreempt
    · exact h

theorem StateIn.seekVictims (h : StateIn G L s) : StateIn G L s.seekVictims := h.foldl fun _ _ h => h.seekVictim

theorem StateIn.joinQueue {lvl id} (h : StateIn G L s) : StateIn G L (s.joinQueue lvl id) := h.modRegion

theorem StateIn.lapse {lvl} (h : StateIn G L s) : StateIn G L (s.lapse lvl) := h

theorem StateIn.activate {lvl} (h : StateIn G L s) : StateIn G L (s.activate lvl) := h.lapse.foldl fun _ _ h => h.joinQueue

/-- What a fold over the elements of a list chooses is one of them. -/
theorem choice_mem {α : Type} {f : Option α → α → Option α} {P : α → Prop} {l : List α} (hl : ∀ x ∈ l, P x)
    (hf : ∀ b x, f b x = b ∨ f b x = some x) : ∀ y, l.foldl f none = some y → P y := by
  refine List.foldlRecOn (motive := fun b => ∀ y, b = some y → P y) l f (fun y hy => by cases hy) fun b hb x hx y hy => ?_
  obtain e | e := hf b x
  · exact hb y (e ▸ hy)
  · rw [e] at hy
    cases hy
    exact hl x hx

/-- The head of a region's queue at a level is a task of the module. -/
theorem head_mem {id lvl : Nat} {x : Task} (hx : s.head id lvl = some x) : x ∈ s.tasks := by
  refine choice_mem (P := (· ∈ s.tasks)) (fun y hy => List.mem_of_mem_filter hy) (fun b y => ?_) x hx
  cases b with
  | none => exact .inr rfl
  | some b => exact (ite_eq_or_eq _ _ _).symm

/-- The task that is served is a task of the module. -/
theorem served_mem {lvl : Nat} {r : Region} {x : Task} {p : Plan} (hx : s.served lvl (s.active lvl) = some (r, x, p)) : x ∈ s.tasks := by
  refine choice_mem (P := fun y : Region × Task × Plan => y.2.1 ∈ s.tasks) (fun y hy => ?_) (fun b y => ?_) _ hx
  · obtain ⟨r, -, hr⟩ := List.mem_filterMap.1 hy
    obtain ⟨t, ht, hp⟩ := Option.bind_eq_some_iff.1 hr
    obtain ⟨p, -, rfl⟩ := Option.map_eq_some_iff.1 hp
    exact head_mem ht
  · cases b with
    | none => exact .inr rfl
    | some b => exact (ite_eq_or_eq _ _ _).symm

theorem StateIn.serveFrom {n} (h : StateIn G L s) : StateIn G L (State.serveFrom n s) := by
  induction n generalizing s with
  | zero => exact h
  | succ n ih =>
    unfold State.serveFrom
    split
    next r x p hx => exact h.modRegion.dispatch (h.tasks x (served_mem hx))
    · exact ih h

theorem StateIn.decideNow (h : StateIn G L s) : StateIn G L s.decideNow :=
  (h.seekVictims.foldl fun _ _ h => h.activate).serveFrom.foldl fun _ _ h => h.lapse

theorem StateIn.predCount {t} (h : StateIn G L s) : StateIn G L (s.predCount t).1 := by
  unfold State.predCount
  split
  · exact h
  · split
    next t _ ht => exact h.readLine ht
    · exact h

theorem StateIn.promote (h : StateIn G L s) : StateIn G L s.promote := by
  unfold State.promote
  refine h.foldl fun _ _ h => ?_
  split
  · exact h
  · split
    next t ht => exact (h.predCount.of_fst ht).makeReady
    next t _ ht => exact h.predCount.of_fst ht

theorem StateIn.graphError {t succ} (h : StateIn G L s) : StateIn G L (s.graphError t succ) := h.postEvent

theorem StateIn.decrement {t wins va} (h : StateIn G L s) : StateIn G L (s.decrement t wins va).1 := by
  unfold State.decrement
  extract_lets _ _ s1
  have h1 : StateIn G L s1 := h.same
  split
  · exact h.logModuleViolation
  · split
    · split
      · exact h.logModuleViolation.same
      · exact .ite h1 h1.send
    · split
      · exact h.logModuleViolation
      · split
        next u bs hu =>
          have h2 : StateIn G L u := h.reach.homeRead.of_fst hu
          exact .ite h2 h2.homeWrite

theorem StateIn.release {t wins va} (h : StateIn G L s) : StateIn G L (s.release t wins va) := by
  unfold State.release
  split
  · exact h.graphError
  · split
    next t ht => exact h.decrement.of_fst ht
    next t ht => exact (h.decrement.of_fst ht).graphError
    next t _ ht =>
      split
      · exact .ite (h.decrement.of_fst ht).makeReady (h.decrement.of_fst ht)
      · exact h.decrement.of_fst ht

theorem StateIn.walkSuccessors {k wins a last n} (h : StateIn G L s) : StateIn G L (s.walkSuccessors k wins a last n) := by
  induction n generalizing s a last with
  | zero => exact h.graphError
  | succ n ih =>
    unfold State.walkSuccessors
    split
    · exact h.logModuleViolation
    next t bs ht => exact .ite (h.readVa ht) (ih (h.readVa ht).release)

theorem StateIn.retire {t} (h : StateIn G L s) : StateIn G L (s.retire t) := by
  unfold State.retire
  extract_lets s1 s2
  have h1 : StateIn G L s1 := h.removeTask.charge.flushCharges
  have h2 : StateIn G L s2 := by
    unfold s2
    refine .ite h1 ?_
    split
    next u wins hu => exact (h1.winset.of_fst hu).walkSuccessors
  exact h2.promote

theorem StateIn.execTaskRetire (h : StateIn G L s) : OutIn G L (execTaskRetire s) := by
  unfold Machine.execTaskRetire
  refine .next ?_
  split
  · exact .ite h.retire h
  · exact h

theorem StateIn.execWaitYield (h : StateIn G L s) : OutIn G L (execWaitYield s) := by
  unfold Machine.execWaitYield
  extract_lets
  refine .next ?_
  split
  · split
    · exact h
    · exact .ite h.requestPreempt h
  · exact h

theorem StateIn.execSpawnwConversion (h : StateIn G L s) : OutIn G L (execSpawnwConversion s) := by
  unfold Machine.execSpawnwConversion
  refine .next ?_
  split
  · exact .ite h.requestPreempt h
  · exact h

theorem StateIn.killParent {t code child} (h : StateIn G L s) : StateIn G L (s.killParent t code child) := h.killTask

theorem StateIn.retrySpawn {t child} (h : StateIn G L s) : StateIn G L (s.retrySpawn t child) := by
  unfold State.retrySpawn
  split
  next v wins hv =>
    have h1 : StateIn G L v := h.winset.of_fst hv
    split
    next u hu => exact .ite (h1.submit.of_fst hu).makeReady h1.modTask
    next u hu => exact h1.submit.of_fst hu
    next u _ hu => exact (h1.submit.of_fst hu).logModule.killParent
    next u _ _ hu => exact (h1.submit.of_fst hu).logModuleViolation.killParent

theorem StateIn.execYield (h : StateIn G L s) : OutIn G L (execYield s) := by
  unfold Machine.execYield
  refine .next ?_
  split
  · exact h
  · exact .ite h.modTask h

theorem StateIn.execEventAcknowledge (h : StateIn G L s) : OutIn G L (execEventAcknowledge s) := by
  unfold Machine.execEventAcknowledge
  refine .next (h.supervise fun _ h => ?_)
  split
  · exact .ite h.modTask h
  · exact h

theorem StateIn.execKillBySupervisor (h : StateIn G L s) : OutIn G L (execKillBySupervisor s) := by
  unfold Machine.execKillBySupervisor
  refine .next (h.supervise fun _ h => ?_)
  split
  · exact .ite h.killTask h
  · exact h

theorem StateIn.execSupervisorPreempt (h : StateIn G L s) : OutIn G L (execSupervisorPreempt s) := by
  unfold Machine.execSupervisorPreempt
  refine .next (h.supervise fun _ h => ?_)
  split
  · exact .ite h.requestPreempt h
  · exact h

theorem StateIn.readBlock {id} (h : StateIn G L s) : StateIn G L (s.readBlock id).1 := by
  unfold State.readBlock
  split
  next t _ ht => exact h.fetchIa.of_fst ht
  next t ht => exact h.fetchIa.of_fst ht

theorem StateIn.regResult {id code} (h : StateIn G L s) : StateIn G L (s.regResult id code) := h

theorem StateIn.walkStart {id wins a n} (h : StateIn G L s) : StateIn G L (s.walkStart id wins a n) := by
  induction n generalizing s a with
  | zero => exact h
  | succ n ih =>
    unfold State.walkStart
    extract_lets
    split
    · exact h.logModuleViolation
    next t bs ht =>
      have h1 : StateIn G L t := h.readVa ht
      refine .ite h1 (ih ?_)
      split
      next u _ hu => exact (h1.submit.of_fst hu).postEvent
      next u _ _ hu => exact (h1.submit.of_fst hu).logModuleViolation.postEvent
      next u _ _ hu => exact h1.submit.of_fst hu

theorem StateIn.startRegion {id fromCore} (h : StateIn G L s) : StateIn G L (s.startRegion id fromCore) := by
  unfold State.startRegion
  split
  next t ht => exact (h.readBlock.of_fst ht).regResult
  next t _ ht =>
    have h1 : StateIn G L t := h.readBlock.of_fst ht
    extract_lets _ _ _ s1 s2
    have h2 : StateIn G L s2 := StateIn.regResult h1.same
    split
    · exact .ite h2 h2.winset.walkStart
    · exact h1.regResult

theorem StateIn.updateRegion {id fromCore} (h : StateIn G L s) : StateIn G L (s.updateRegion id fromCore) := by
  unfold State.updateRegion
  split
  next t _ ht => exact (h.readBlock.of_fst ht).regResult
  next _ t ht => exact (h.readBlock.of_fst ht).regResult
  next _ t _ ht =>
    extract_lets
    split
    · exact (h.readBlock.of_fst ht).modRegion.l2Release.regResult
    · exact (h.readBlock.of_fst ht).regResult

theorem StateIn.killRegion {id} (h : StateIn G L s) : StateIn G L (s.killRegion id) :=
  (h.killSubtree.foldl fun _ _ h => .ite h.logModule.killParent h).promote.regResult

/-! ### The lease engine -/

theorem StateIn.askLease {op drow dcol n dur status} (h : StateIn G L s) : StateIn G L (s.askLease op drow dcol n dur status) := h

theorem StateIn.claim {l floor ids} (h : StateIn G L s) : StateIn G L (s.claim l floor ids) := h.departStrands.modAllocs

theorem StateIn.takePool {l} (h : StateIn G L s) : StateIn G L (s.takePool l) := by
  unfold State.takePool
  split
  next t ids ht => exact (h.pick.of_fst ht).claim

theorem StateIn.takeDefaults {l n} (h : StateIn G L s) : StateIn G L (s.takeDefaults l n) := by
  induction n generalizing s with
  | zero => exact h
  | succ n ih =>
    unfold State.takeDefaults
    refine .ite h ?_
    split
    · exact h
    · split
      next t ids ht => exact ih (h.pick.of_fst ht).claim

theorem StateIn.notify {v l k floor} (h : StateIn G L s) : StateIn G L (s.notify v l k floor) := by
  unfold State.notify
  split
  next t ids ht =>
    have h1 : StateIn G L t := h.pick.of_fst ht
    exact .ite h1 h1.modAllocs.leaseEvent

theorem StateIn.takeVictims {l} (h : StateIn G L s) : StateIn G L (s.takeVictims l) := h.foldl fun _ _ h => .ite h h.notify

theorem StateIn.admitLease {r} (h : StateIn G L s) : StateIn G L (s.admitLease r) := by
  unfold State.admitLease
  split
  · exact h.writeStatus
  · exact h
  · exact h.same.leaseStatus.takePool.takeDefaults.takeVictims

theorem StateIn.cancelStrands {mine lim} (h : StateIn G L s) : StateIn G L (s.cancelStrands mine lim).1 := by
  refine List.foldlRecOn (motive := fun p : State × Nat => StateIn G L p.1) _ _ h fun p hp l _ => ?_
  dsimp only
  split
  · exact hp
  · exact .ite hp.modLease.leaseStatus hp.modLease.leaseStatus

theorem StateIn.releaseLease {r} (h : StateIn G L s) : StateIn G L (s.releaseLease r) := by
  unfold State.releaseLease
  split
  · exact h.writeStatus
  · exact h.accrue.cancelStrands.leaveLeases.writeStatus.sweepLeases

theorem StateIn.renewLease {r} (h : StateIn G L s) : StateIn G L (s.renewLease r) := by
  unfold State.renewLease
  split
  · exact h.writeStatus
  · exact (h.foldl fun _ _ h => h.modLease).writeStatus

theorem StateIn.execLeaseAccept (h : StateIn G L s) : OutIn G L (execLeaseAccept s) := by
  unfold Machine.execLeaseAccept
  refine .next ?_
  split
  · exact h
  · extract_lets
    split
    · exact h.same.admitLease
    · exact h.same.releaseLease
    · exact h.same.renewLease

theorem StateIn.execLeaseNoticeEnd (h : StateIn G L s) : OutIn G L (execLeaseNoticeEnd s) := by
  unfold Machine.execLeaseNoticeEnd
  refine .next ?_
  split
  · split
    · exact h
    · refine StateIn.sweepLeases ?_
      split
      · exact h.accrue.departStrands.modAllocs.leaseEvent
      · exact h.accrue.departStrands.modAllocs
  · exact h

theorem StateIn.landLease {l all floor} (h : StateIn G L s) : StateIn G L (s.landLease l all floor) := by
  unfold State.landLease
  extract_lets s1 ids s2 s3 s4 s5
  have h2 : StateIn G L s2 := StateIn.freeStrands h.accrue
  have h3 : StateIn G L s3 := h2.foldl fun _ _ h => h.moveRings
  have h5 : StateIn G L s5 := h3.modAllocs.modLease
  refine .ite h2.sweepLeases ?_
  split
  · exact h5
  · exact h5.leaseEvent.leaseStatus

theorem StateIn.land {u all floor} (h : StateIn G L s) : StateIn G L (s.land u all floor) := by
  unfold State.land
  extract_lets
  split
  · split
    · exact h.modAllocs.landLease
    · exact h.modAllocs.freeStrands
  · exact (h.modAllocs.foldl fun _ _ h => h.moveRings).modAllocs
  · exact h.modAllocs.modAllocs
  · exact h.modAllocs.foldl fun _ _ h => .ite h.freeStrand h.modAlloc

theorem StateIn.execStrandRetuneDone (h : StateIn G L s) : OutIn G L (execStrandRetuneDone s) := by
  unfold Machine.execStrandRetuneDone
  refine .next ?_
  split
  · exact .ite h h.land
  · exact h

theorem StateIn.execLeaseStarvationGrant (h : StateIn G L s) : OutIn G L (execLeaseStarvationGrant s) := by
  refine .next ?_
  split
  · exact h
  · refine .ite h ?_
    split
    · exact h
    · extract_lets need s1
      have h1 : StateIn G L s1 := h.modLease
      split
      next t ids ht =>
        refine List.foldlRecOn (motive := fun p : State × Nat => StateIn G L p.1) _ _ (h1.pick.of_fst ht).claim fun p hp v _ => ?_
        exact .ite hp hp.notify

theorem StateIn.execLeaseExpiry (h : StateIn G L s) : OutIn G L (execLeaseExpiry s) := by
  unfold Machine.execLeaseExpiry
  refine .next ?_
  split
  · exact h
  · split
    · exact h
    · split
      · exact h
      · extract_lets
        split
        · exact StateIn.leaseStatus (.ite h.accrue.same.leaveLeases h.accrue.same.leaveLeases.leaseEvent)
        · exact .ite h.accrue.same.leaveLeases h.accrue.same.leaveLeases.leaseEvent

theorem StateIn.sendPacket {k} (h : StateIn G L s) (ht : s.sendPacket k = some t) : StateIn G L t := by
  unfold State.sendPacket at ht
  split at ht
  · cases ht
  · split at ht
    next u i _ hu =>
      cases ht
      exact (h.pick.of_fst hu).modStrand
    · cases ht

theorem StateIn.sendPackets (h : StateIn G L s) : StateIn G L s.sendPackets := by
  refine StateIn.same (List.foldlRecOn (motive := fun r : State × List Packet => StateIn G L r.1) s.packets _ h fun r hr k _ => ?_)
  split
  · exact hr
  · split
    next t ht => exact hr.sendPacket ht
    · exact hr

end Sys2Proof.Proofs
end

section
/-! PROOFS. Power, migration, hibernation, optics, boot and the shared system registers (19, 21 to 25): each keeps the forms of
memories. -/

namespace Sys2Proof.Proofs

open Sys2Proof Sys2Proof.Machine Sys2Proof.Laws

-- One proof after another: each proof in parallel takes a thread of its own, and the check has no memory for as many.
set_option Elab.async false

variable {G L : MemForm} {s t : State} {c : Core} {cl : Cluster}

/-! ### The power manager -/

theorem StateIn.quiesceCore {c} (h : StateIn G L s) : StateIn G L (s.quiesceCore c) := by
  unfold State.quiesceCore
  extract_lets keep s1 s2
  have h1 : StateIn G L s1 := h.modCore
  have h2 : StateIn G L s2 := h1.same
  exact .ite h2.endGrant h2

theorem StateIn.warnArrays (h : StateIn G L s) : StateIn G L s.warnArrays := by
  unfold State.warnArrays
  extract_lets holders s1
  have hc : ∀ i : ClusterId, ClusterIn L s1.clusters[i.val] := fun i => by
    rw [show s1.clusters = _ from rfl, Vector.getElem_map]
    exact h.clusters i
  have h1 : StateIn G L s1 := { h with clusters := hc }
  exact h1.foldl fun _ _ h => h.refreshArray

theorem StateIn.warn {cause} (h : StateIn G L s) : StateIn G L (s.warn cause) :=
  .ite h (h.foldl fun _ _ h => h.pendAsync).warnArrays.abandonMigration.same

theorem StateIn.shedCore {c} (h : StateIn G L s) : StateIn G L (s.shedCore c) := .ite h h.quiesceCore.modCore

theorem StateIn.unshedCore {c} (h : StateIn G L s) : StateIn G L (s.unshedCore c) := .ite h h.modCore

theorem StateIn.applyShed (h : StateIn G L s) : StateIn G L s.applyShed :=
  h.foldl fun _ _ h => .ite (h.foldl fun _ _ h => h.shedCore) (.ite (h.foldl fun _ _ h => h.unshedCore) h)

theorem StateIn.refloor (h : StateIn G L s) : StateIn G L s.refloor := h

theorem StateIn.writeCap {v fromCore} (h : StateIn G L s) : StateIn G L (s.writeCap v fromCore) :=
  .ite (StateIn.warn (.ite h.same.logCore h.same.logModule)) h.same.applyShed.refloor

theorem StateIn.writeGive {v} (h : StateIn G L s) : StateIn G L (s.writeGive v) := .ite h (.ite h h.same.refloor)

theorem StateIn.writeShed {v} (h : StateIn G L s) : StateIn G L (s.writeShed v) := .ite h h

theorem StateIn.writeBo {v} (h : StateIn G L s) : StateIn G L (s.writeBo v) := .ite h h

theorem StateIn.writeLgate {i v} (h : StateIn G L s) : StateIn G L (s.writeLgate i v) :=
  h.modCore fun _ h => ⟨L.foldl h.1 fun _ _ h => L.clear h, h.2⟩

theorem StateIn.writeL2gate {b v} (h : StateIn G L s) : StateIn G L (s.writeL2gate b v) := h.same.l2Gate

theorem StateIn.writeFloor {p v} (h : StateIn G L s) : StateIn G L (s.writeFloor p v) := h.same.refloor

theorem StateIn.execLocalBankWakeDone {bank} (h : StateIn G L s) : OutIn G L (execLocalBankWakeDone bank s) :=
  .next (.ite (h.modCore fun _ h => ⟨L.clear h.1, h.2⟩) h)

theorem StateIn.cutDraw {n draw draws} (h : StateIn G L s) : StateIn G L (State.cutDraw n draw draws s) := by
  induction n generalizing s draw draws with
  | zero => exact h
  | succ n ih =>
    unfold State.cutDraw
    refine .ite h ?_
    split
    · exact h
    · exact ih h.requestPreempt

theorem StateIn.readBus {volts} (h : StateIn G L s) : StateIn G L (s.readBus volts) := h

theorem StateIn.execBrownoutShed {volts} (h : StateIn G L s) : OutIn G L (execBrownoutShed volts s) := by
  unfold Machine.execBrownoutShed
  extract_lets s1 p
  have h1 : StateIn G L s1 := h.readBus
  refine .next (.ite ?_ h1)
  split
  · exact h1.same.applyShed
  · exact h1

theorem StateIn.execBrownoutAllShed {volts} (h : StateIn G L s) : OutIn G L (execBrownoutAllShed volts s) := by
  unfold Machine.execBrownoutAllShed
  extract_lets s1 p
  have h1 : StateIn G L s1 := h.readBus
  exact .next (.ite h1.same.applyShed h1)

theorem StateIn.execBrownoutRestore {volts} (h : StateIn G L s) : OutIn G L (execBrownoutRestore volts s) := by
  unfold Machine.execBrownoutRestore
  extract_lets s1 p
  have h1 : StateIn G L s1 := h.readBus
  refine .next (.ite ?_ h1)
  split
  · exact h1.same.applyShed
  · exact h1

/-! ### Migration -/

theorem StateIn.dropCached {lo n} (h : StateIn G L s) : StateIn G L (s.dropCached lo n) := h

theorem StateIn.startMigration {v} (h : StateIn G L s) : StateIn G L (s.startMigration v) := by
  unfold State.startMigration
  refine .ite h (.ite h ?_)
  split
  · exact { h with hbm := G.putNat h.hbm }
  · exact h

theorem StateIn.recallPage {p lo n} (h : StateIn G L s) : StateIn G L (s.recallPage p lo n) := by
  unfold State.recallPage
  refine h.foldl fun _ _ h => ?_
  refine h.foldl fun _ _ h => ?_
  split
  · exact .ite (h.pokeCells.modCore fun _ h => h.dropGranule) h
  · exact h

theorem StateIn.copyFrame {source dest n} (h : StateIn G L s) : StateIn G L (s.copyFrame source dest n) :=
  { h with hbm := G.putCells (G.clear h.hbm) }

theorem StateIn.execMigrationHoldDone (h : StateIn G L s) : OutIn G L (execMigrationHoldDone s) := by
  unfold Machine.execMigrationHoldDone
  extract_lets t
  -- What the page table holds decides nothing here; as a variable it is not evaluated.
  generalize s.migHolds t.migOld.toNat = holds
  refine .ite (.next h) (.ite .fault (.next ?_))
  split
  · extract_lets s1
    have h1 : StateIn G L s1 := h.recallPage.l2Drop.copyFrame
    clear_value s1
    exact h1.same
  · exact h

theorem StateIn.execMigrationCopyDone (h : StateIn G L s) : OutIn G L (execMigrationCopyDone s) := by
  unfold Machine.execMigrationCopyDone
  extract_lets t d
  have hd : StateIn G L d := h.dropCached
  -- What the page table holds decides nothing here; as a variable it is not evaluated.
  generalize s.migHolds t.migOld.toNat = holds
  refine .ite (.next h) (.ite .fault (.next { hd with hbm := ?_ }))
  dsimp only
  exact G.putNat hd.hbm

theorem StateIn.execMigrationForward (h : StateIn G L s) : OutIn G L (execMigrationForward s) := by
  unfold Machine.execMigrationForward
  refine .next ?_
  split
  · split
    · extract_lets
      split
      · exact h.performPending.refreshArray
      · exact h.performPending
    · exact h
  · exact h

theorem StateIn.completeMigration (h : StateIn G L s) : StateIn G L s.completeMigration := by
  unfold State.completeMigration
  extract_lets t d
  have hd : StateIn G L d := h.dropCached
  exact { hd with hbm := G.putNat hd.hbm }

theorem StateIn.execMigrationEnd (h : StateIn G L s) : OutIn G L (execMigrationEnd s) := by
  unfold Machine.execMigrationEnd
  extract_lets t
  -- What the page table holds decides nothing here; as a variable it is not evaluated.
  generalize s.migHolds t.migTo.toNat = holds
  exact .ite (.next h) (.ite .fault (.next h.completeMigration))

theorem StateIn.settleMigration (h : StateIn G L s) : StateIn G L s.settleMigration := by
  unfold State.settleMigration
  split
  · exact h.completeMigration
  · exact h.completeMigration
  · exact h.abandonMigration

/-! ### Hibernation and resumption -/

theorem StateIn.recordJob {j} (h : StateIn G L s) : StateIn G L (s.recordJob j) := by
  unfold State.recordJob
  split
  · exact h.modIssuer fun _ h => h
  · exact h.makeReady
  · exact h

theorem StateIn.stopEngines (h : StateIn G L s) : StateIn G L s.stopEngines := by
  unfold State.stopEngines
  extract_lets _ s1
  have h1 : StateIn G L s1 := h.same.foldl fun _ _ h => h.recordJob
  exact h1.same

theorem StateIn.spend {most} (h : StateIn G L s) : StateIn G L (s.spend most) := h

theorem StateIn.execHibernateQuiesce (h : StateIn G L s) : OutIn G L (execHibernateQuiesce s) := by
  unfold Machine.execHibernateQuiesce
  extract_lets s1
  have h1 : StateIn G L s1 := (h.settleMigration.foldl fun _ _ h => h.quiesceCore).stopEngines
  clear_value s1
  exact .next (.ite h1.same.spend h)

theorem StateIn.flushTask {t} (h : StateIn G L s) : StateIn G L (s.flushTask t) := .ite h.chargeTask.saveContext.modTask.flushCharges h

theorem StateIn.flush (h : StateIn G L s) : StateIn G L s.flush := by
  unfold State.flush
  extract_lets s1 s2
  have h2 : StateIn G L s2 := (h.foldl fun _ _ h => h.flushTask).spend
  exact { h2 with scm := G.foldl h2.scm fun _ _ h => G.set h }

theorem StateIn.execHibernateFlush (h : StateIn G L s) : OutIn G L (execHibernateFlush s) := by
  unfold Machine.execHibernateFlush
  refine .next ?_
  split
  · exact .ite h h
  · exact h.flush
  · exact h

theorem StateIn.drainPieces {base scm cap bytes n} (h : StateIn G L s) : StateIn G L (s.drainPieces base scm cap bytes n).s := by
  induction n generalizing s bytes with
  | zero => exact h
  | succ n ih =>
    unfold State.drainPieces
    extract_lets
    split
    · exact h
    · split
      · exact h
      · split
        · exact h
        · exact ih { h with scm := G.put h.scm }

theorem StateIn.drainItems {place stopped l} (h : StateIn G L s) : StateIn G L (s.drainItems place stopped l).1 := by
  induction l generalizing s place stopped with
  | nil => exact h
  | cons i l ih =>
    unfold State.drainItems
    split
    · exact ih h
    · split
      · exact ih h
      · exact ih h.drainPieces

theorem StateIn.writeImage (h : StateIn G L s) : StateIn G L s.writeImage := by
  unfold State.writeImage
  extract_lets n bytes
  cases ht : s.writeIa s.hib.ctx.toNat bytes with
  | none => exact h
  | some t => exact h.writeIa ht

theorem StateIn.execHibernateDrain (h : StateIn G L s) : OutIn G L (execHibernateDrain s) := by
  unfold Machine.execHibernateDrain
  extract_lets items s1 _ s2
  have h1 : StateIn G L s1 := h.writeImage
  have h2 : StateIn G L s2 := { h1 with image := h1.tasks }
  refine .next (.ite ?_ h)
  split
  next u es hu =>
    have h3 : StateIn G L u := h2.drainItems.of_fst hu
    exact h3.same

theorem StateIn.execHibernateSeal (h : StateIn G L s) : OutIn G L (execHibernateSeal s) := by
  unfold Machine.execHibernateSeal
  extract_lets
  refine .next (.ite ?_ h)
  split
  refine { h with scm := ?_ }
  dsimp only
  exact G.put h.scm

theorem StateIn.loseTask {t} (h : StateIn G L s) : StateIn G L (s.loseTask t) := h.removeTask.charge.flushCharges.postEvent

theorem StateIn.judge {t} (h : StateIn G L s) : StateIn G L (s.judge t) := .ite h (.ite h.loseTask h.modTask)

theorem StateIn.settleHeld {t} (h : StateIn G L s) : StateIn G L (s.settleHeld t) := by
  unfold State.settleHeld
  split
  · exact .ite h.makeReady h
  · exact h

theorem StateIn.rollback {r} (h : StateIn G L s) : StateIn G L (s.rollback r) := .ite (h.foldl fun _ _ h => h.postEvent) h

theorem StateIn.finishRejoin (h : StateIn G L s) : StateIn G L s.finishRejoin :=
  ((h.foldl fun _ _ h => h.settleHeld).foldl fun _ _ h => h.rollback).same.applyShed

theorem StateIn.rejoinStep (h : StateIn G L s) : StateIn G L s.rejoinStep := by
  unfold State.rejoinStep
  extract_lets s1
  have h1 : StateIn G L s1 := h.foldl fun _ _ h => by split <;> exact h
  exact .ite h1.finishRejoin h1

theorem StateIn.installRegions (h : StateIn G L s) : StateIn G L s.installRegions := h

theorem StateIn.installTasks (h : StateIn G L s) : StateIn G L s.installTasks :=
  { h with tasks := fun t ht => (List.mem_append.1 ht).elim (h.image t) fun ht => h.tasks t (List.mem_of_mem_filter ht) }

theorem StateIn.resume (h : StateIn G L s) : StateIn G L s.resume := by
  unfold State.resume
  split
  · exact h
  · split
    · exact (h.installRegions.foldl fun _ _ h => h.postEvent).same.applyShed
    · exact (h.installRegions.installTasks.same.foldl fun _ _ h => h.judge).rejoinStep

theorem StateIn.execRejoinTraffic {group member step} (h : StateIn G L s) : OutIn G L (execRejoinTraffic group member step s) := by
  unfold Machine.execRejoinTraffic
  extract_lets old s1
  have h1 : StateIn G L s1 := h.same
  refine .next ?_
  split
  · exact h1
  · exact h1.rejoinStep
  · exact h.same

theorem StateIn.execRejoinTimeout (h : StateIn G L s) : OutIn G L (execRejoinTimeout s) := by
  unfold Machine.execRejoinTimeout
  extract_lets silent s1
  have h1 : StateIn G L s1 := h.foldl fun _ _ h => h.same
  exact .next (.ite h1.finishRejoin h)

theorem StateIn.releaseHeld (h : StateIn G L s) : StateIn G L s.releaseHeld := .ite h (h.foldl fun _ _ h => .ite h.makeReady h)

/-! ### The optical layer -/

theorem StateIn.parkAfter {i} (h : StateIn G L s) : StateIn G L (s.parkAfter i) := .ite h.modStrand h

theorem StateIn.writeStrandCtl {i v} (h : StateIn G L s) : StateIn G L (s.writeStrandCtl i v) := .ite h h.modStrand

theorem StateIn.writeStrandWth {i v} (h : StateIn G L s) : StateIn G L (s.writeStrandWth i v) := h.modStrand

theorem StateIn.writeHeater {r v} (h : StateIn G L s) : StateIn G L (s.writeHeater r v) := h.modRing

theorem StateIn.restoreRing {r} (h : StateIn G L s) : StateIn G L (s.restoreRing r) := by
  unfold State.restoreRing
  extract_lets s1 i s2 s3
  have h1 : StateIn G L s1 := by
    unfold s1
    refine .ite ?_ h
    split
    · exact h.modRing
    · exact h
  have h2 : StateIn G L s2 := h1.settleStrand.modRing
  have h3 : StateIn G L s3 := by
    unfold s3
    clear_value s2
    exact h2.same
  split
  · exact .ite h3 h3.moveChannel
  · exact h3

theorem StateIn.enableRing {r} (h : StateIn G L s) : StateIn G L (s.enableRing r) := by
  unfold State.enableRing
  extract_lets
  exact h.restoreRing.modRing

theorem StateIn.dropDead {i} (h : StateIn G L s) : StateIn G L (s.dropDead i) := .ite h h.accrue.departStrands.modAlloc.sweepLeases

theorem StateIn.logRing {n} (h : StateIn G L s) : StateIn G L (s.logRing n) := h.same.logModule

theorem StateIn.disableRing {r} (h : StateIn G L s) : StateIn G L (s.disableRing r) := h.settleStrand.modRing.logRing.dropDead.parkAfter

theorem StateIn.writeRingMap {r v} (h : StateIn G L s) : StateIn G L (s.writeRingMap r v) :=
  .ite h.modRing (.ite h.modRing.enableRing h.modRing.disableRing)

theorem StateIn.execWakeComplete (h : StateIn G L s) : OutIn G L (execWakeComplete s) := by
  unfold Machine.execWakeComplete
  extract_lets
  refine .next ?_
  split
  · exact .ite h.modStrand.parkAfter h
  · exact h

theorem StateIn.holdWake {r t} (h : StateIn G L s) : StateIn G L (s.holdWake r t) := .ite h.modStrand h

theorem StateIn.lineSwap {r} (h : StateIn G L s) : StateIn G L (s.lineSwap r) := by
  unfold State.lineSwap
  extract_lets
  split
  · exact h.settleStrand.modRing
  · exact .ite h.settleStrand.settleStrand.modRing.modRing.holdWake.holdWake h.disableRing

theorem StateIn.lockRing {r} (h : StateIn G L s) : StateIn G L (s.lockRing r) := .ite h h.modRing

theorem StateIn.lockPeriod {chiplet drift} (h : StateIn G L s) : StateIn G L (s.lockPeriod chiplet drift) :=
  ((h.foldl fun _ _ h => h.modRing).foldl fun _ _ h => h.lockRing).foldl fun _ _ h => .ite h.lineSwap h

theorem StateIn.execRingResettleDone (h : StateIn G L s) : OutIn G L (execRingResettleDone s) := by
  unfold Machine.execRingResettleDone
  extract_lets
  refine .next ?_
  split
  · exact .ite h (.ite h.settleStrand.modRing.restoreRing h.settleStrand.modRing.parkAfter)
  · exact h

theorem StateIn.execCdrLoss (h : StateIn G L s) : OutIn G L (execCdrLoss s) :=
  .next (.ite h (.ite h.settleStrand.logRing.same.modRing h.settleStrand.logRing.same.modRing.logRing))

theorem StateIn.trainFibre {fibre res} (h : StateIn G L s) : StateIn G L (s.trainFibre fibre res) :=
  StateIn.foldl (.ite h h.logRing) fun _ _ h => .ite h.modRing h.modRing.logRing

theorem StateIn.formStrands {router} (h : StateIn G L s) : StateIn G L (s.formStrands router) := by
  unfold State.formStrands
  exact h.same

theorem StateIn.logShort {old router} (h : StateIn G L s) : StateIn G L (s.logShort old router) := h.foldl fun _ _ h => h.logRing

theorem StateIn.logUntrained {router} (h : StateIn G L s) : StateIn G L (s.logUntrained router) := h.foldl fun _ _ h => h.logRing

theorem StateIn.formAllocs {router} (h : StateIn G L s) : StateIn G L (s.formAllocs router) := by
  unfold State.formAllocs
  exact h.same

/-! ### Power, boot and attestation -/

theorem StateIn.readManifests (h : StateIn G L s) : StateIn G L s.readManifests := by
  unfold State.readManifests
  split
  · exact h.same.applyShed
  · exact h

theorem StateIn.emptyQueues {router} (h : StateIn G L s) : StateIn G L (s.emptyQueues router) := by
  unfold State.emptyQueues
  exact h.same

theorem StateIn.requeue {l} (h : StateIn G L s) : StateIn G L (s.requeue l) := by
  refine h.foldl fun u x h => ?_
  obtain ⟨p, n⟩ := x
  refine .ite h ?_
  split
  next u _ _ hu => exact (h.pick.of_fst hu).modStrand
  next u hu => exact h.pick.of_fst hu

/-- What a training changes beside the rings is no memory. -/
theorem StateIn.withFabric {rows cols x p l b} (h : StateIn G L s) :
    StateIn G L { s with fabRows := rows, fabCols := cols, trained := x, power := p, leases := l, boot := b } := h.same

theorem StateIn.execLinkTraining {fibre res} (h : StateIn G L s) : OutIn G L (execLinkTraining fibre res s) := by
  unfold Machine.execLinkTraining
  extract_lets router s1 waiting old s2 fibres _ s3 s4
  have h2 : StateIn G L s2 := h.accrue.emptyQueues.trainFibre.formStrands.logShort
  have h3 : StateIn G L s3 := h2.withFabric
  have h4 : StateIn G L s4 := h3.logUntrained.formAllocs.requeue.refloor
  clear_value s4
  exact .ite (.next h) (.next (.ite h4.same.readManifests h4))

theorem StateIn.bootUp (h : StateIn G L s) : StateIn G L s.bootUp := by
  unfold State.bootUp
  extract_lets
  refine .ite h.same ?_
  split <;> exact h.same

theorem StateIn.raiseRollback {kind v} (h : StateIn G L s) : StateIn G L (s.raiseRollback kind v) := h.supervise fun _ h => h

theorem StateIn.unpowered (h : StateIn G L s) : StateIn G L s.unpowered where
  hbm := G.empty
  scm := h.scm
  cores i := by
    rw [show s.unpowered.cores = Vector.replicate 256 {} from rfl, Vector.getElem_replicate]
    exact ⟨L.empty, L.empty⟩
  clusters i := by
    rw [show s.unpowered.clusters = Vector.replicate 64 {} from rfl, Vector.getElem_replicate]
    exact ⟨L.empty, L.empty⟩
  tasks t ht := nomatch ht
  image := h.image

theorem StateIn.startAttest {v} (h : StateIn G L s) : StateIn G L (s.startAttest v) := .ite h h

theorem StateIn.execAttestationDone (h : StateIn G L s) : OutIn G L (execAttestationDone s) := by
  unfold Machine.execAttestationDone
  extract_lets stat
  have hstat : ∀ u v, StateIn G L u → StateIn G L (stat u v) := fun u v h => h.same
  refine .next (.ite h (.ite (hstat _ _ h) ?_))
  split
  next t ht => exact hstat _ _ (h.fetchIa.of_fst ht)
  next t _ ht =>
    have h1 : StateIn G L t := h.fetchIa.of_fst ht
    split
    · exact hstat _ _ h1
    next u hu => exact hstat _ _ (h1.writeIa hu).same

theorem StateIn.writePartCtl {p v} (h : StateIn G L s) : StateIn G L (s.writePartCtl p v) := by
  unfold State.writePartCtl
  extract_lets
  split <;> exact h

/-! ### Shared system registers -/

theorem StateIn.clearLost {v} (h : StateIn G L s) : StateIn G L (s.clearLost v) := h

theorem StateIn.partWrite {p k v} (h : StateIn G L s) : StateIn G L (s.partWrite p k v) := by
  unfold State.partWrite
  split
  · exact h.writePartCtl
  · exact h
  · exact h
  · exact h

theorem StateIn.writeModule {i v fromCore} (h : StateIn G L s) : StateIn G L (s.writeModule i v fromCore) :=
  .ite h.same <| .ite h.same <| .ite h.clearLost <| .ite h.same <| .ite h.startRegion <| .ite h.killRegion <| .ite h.updateRegion <|
    .ite h.partWrite <| .ite h.same <| .ite h.same <| .ite h.startAttest <| .ite h.same <| .ite h.same <| .ite h.same <|
    .ite h.same <| .ite h.startMigration h

theorem StateIn.writeHibCtl {v} (h : StateIn G L s) : StateIn G L (s.writeHibCtl v) :=
  .ite (StateIn.releaseHeld (.ite h.resume h)) (.ite h.resume h)

theorem StateIn.writeHib {i v} (h : StateIn G L s) : StateIn G L (s.writeHib i v) :=
  .ite (.ite h h.same) <| .ite (.ite h h.same) <| .ite (.ite h.same h) <| .ite h.same <| .ite h.same <| .ite h.same <| .ite h.same <|
    .ite h.writeHibCtl <| .ite h.same h

theorem StateIn.writePower {i v fromCore} (h : StateIn G L s) : StateIn G L (s.writePower i v fromCore) := by
  unfold State.writePower
  split
  · exact h.writeCap
  · split
    · exact h.writeGive
    · exact .ite h.writeFloor (.ite h.writeShed (.ite h.writeBo (.ite h.writeLgate (.ite h.writeL2gate h))))

theorem StateIn.writeOptics {i v} (h : StateIn G L s) : StateIn G L (s.writeOptics i v) :=
  .ite h.writeStrandCtl (.ite h.writeStrandWth (.ite h.writeHeater (.ite h.writeRingMap h)))

theorem StateIn.sharedWrite {i v fromCore} (h : StateIn G L s) : StateIn G L (s.sharedWrite i v fromCore) :=
  .ite h (.ite h.writeModule (.ite h.writeHib (.ite h.writePower h.writeOptics)))

theorem StateIn.superWrite {i v} (h : StateIn G L s) : StateIn G L (s.superWrite i v) :=
  .ite (h.superviseBooted fun _ h => h.sharedWrite) (h.supervise fun _ h => h.sharedWrite)

theorem StateIn.superRead {i} (h : StateIn G L s) : StateIn G L (s.superRead i) := by
  unfold State.superRead
  refine h.supervise fun _ h => ?_
  split <;> exact h

theorem StateIn.superAccess {off write} (h : StateIn G L s) : StateIn G L (s.superAccess off write) := by
  unfold State.superAccess
  split
  · exact h
  · split
    · exact h.superWrite
    · exact h.superRead

theorem StateIn.execCkmark {a} (h : StateIn G L s) : OutIn G L (execCkmark a s) := by
  unfold Machine.execCkmark
  refine .next (h.orRaise fun _ h => ?_)
  extract_lets
  split
  · exact h.modTask
  · exact h.modMe

theorem StateIn.stopCore (h : StateIn G L s) : StateIn G L s.stopCore := h.modMe.emit

theorem StateIn.execHalt (h : StateIn G L s) : OutIn G L (execHalt s) := by
  refine .next (h.orRaise fun u hu => ?_)
  have h1 : StateIn G L (u.modMe fun c => { c with status := .halted }) := hu.modMe
  exact .ite hu.stopCore h1.same

end Sys2Proof.Proofs
end

section
/-! PROOFS. The issue of bundles, the meaning of every instruction and event, and the step (06 to 08): every step keeps the forms of
memories, O57 and O58. -/

namespace Sys2Proof.Proofs

open Sys2Proof Sys2Proof.Machine Sys2Proof.Laws

-- One proof after another: each proof in parallel takes a thread of its own, and the check has no memory for as many.
set_option Elab.async false

variable {G L : MemForm} {s t : State} {c : Core} {cl : Cluster}

/-! ### The bundle boundary -/

theorem StateIn.freshBundle {ia} (h : StateIn G L s) : ReadIn G L (s.freshBundle ia) := h.readLine.map fun _ _ h => h

theorem StateIn.cacheBundle {ia b} (h : StateIn G L s) : StateIn G L (s.cacheBundle ia b) := by
  unfold State.cacheBundle
  extract_lets l l'
  have h1 : StateIn G L (s.modMe fun c => { c with icache := putKey ia b l' }) := h.modMe
  exact h1.same

theorem StateIn.cachedBundle {ia} (h : StateIn G L s) : ReadIn G L (s.cachedBundle ia) := by
  unfold State.cachedBundle
  extract_lets
  split
  next t b ht _ => exact .ok (h.freshBundle ht).cacheBundle
  · exact .error
  · extract_lets
    split
    · exact .ok h
    · exact h.freshBundle.map fun _ _ h => h.cacheBundle

theorem StateIn.fetchBundle (h : StateIn G L s) : ReadIn G L s.fetchBundle := by
  unfold State.fetchBundle
  extract_lets
  split
  · exact .error
  · split
    · exact .ok h
    · exact h.cachedBundle

theorem CoreIn.pass (h : CoreIn L c) : CoreIn L c.pass := by
  unfold Core.pass
  split
  · exact h
  · exact h.advance

theorem StateIn.skipBundle (h : StateIn G L s) : StateIn G L s.skipBundle := by
  unfold State.skipBundle
  extract_lets s1 k
  have h1 : StateIn G L s1 := h.modMe fun _ h => h.pass.same
  exact .ite h1.tick h1

theorem StateIn.loseHandler (h : StateIn G L s) : StateIn G L s.loseHandler := by
  unfold State.loseHandler
  split
  · exact .ite h.modTask h
  · exact h

theorem StateIn.takeAsync {a} (h : StateIn G L s) : StateIn G L (s.takeAsync a) := by
  unfold State.takeAsync
  extract_lets s1 s2
  have h1 : StateIn G L s1 := h.modMe fun _ h => h.abandonWait.same
  have h2 : StateIn G L s2 := .ite h1.loseHandler h1
  exact h2.takeTrap

theorem StateIn.boundary (h : StateIn G L s) (ht : s.boundary = some t) : StateIn G L t := by
  have hnext : s.me.sys.nextAsync.map s.takeAsync = some t → StateIn G L t := fun ht => by
    obtain ⟨a, -, rfl⟩ := Option.map_eq_some_iff.1 ht
    exact h.takeAsync
  unfold State.boundary at ht
  split at ht
  · cases ht
  · extract_lets at ht
    split at ht
    · exact hnext ht
    · split at ht
      · split at ht
        · cases ht
          exact h.preemptNow
        · split at ht
          · cases ht
            exact h.tick
          · cases ht
      · exact hnext ht

theorem StateIn.execAsyncTrapDelivery (h : StateIn G L s) : OutIn G L (execAsyncTrapDelivery s) := by
  unfold Machine.execAsyncTrapDelivery
  refine .next ?_
  split
  · split
    · exact .ite h.takeAsync h
    · exact h
  · exact h

theorem StateIn.execPfwHoldExpiry (h : StateIn G L s) : OutIn G L (execPfwHoldExpiry s) := by
  unfold Machine.execPfwHoldExpiry
  refine .next ?_
  split
  · split
    · exact h.takeAsync
    · exact h
  · exact h

theorem StateIn.exhaust (h : StateIn G L s) : StateIn G L s.exhaust := h.stopCore.logCore

theorem StateIn.execNullifierSkip (h : StateIn G L s) : OutIn G L (execNullifierSkip s) := by
  unfold Machine.execNullifierSkip
  refine .next ?_
  split
  · split
    next t _ ht => exact .ite (h.fetchBundle ht).skipBundle h
    · exact h
  · exact h

theorem StateIn.endWait (h : StateIn G L s) : StateIn G L s.endWait := by
  unfold State.endWait
  split
  · exact h.modMe.ticks
  · exact h

theorem StateIn.waitStep {w} (h : StateIn G L s) : StateIn G L (s.waitStep w) := by
  unfold State.waitStep
  split
  next t _ ht => exact (h.look.of_fst ht).takeRaise
  next t _ ht => exact (h.look.of_fst ht).satisfy.endWait
  next t _ ht => exact (h.look.of_fst ht).modMe.tick

theorem StateIn.execWaitSatisfied (h : StateIn G L s) : OutIn G L (execWaitSatisfied s) := by
  unfold Machine.execWaitSatisfied
  refine .next ?_
  split
  · exact .ite h.waitStep h
  · exact h

theorem StateIn.execHbarComplete (h : StateIn G L s) : OutIn G L (execHbarComplete s) := by
  unfold Machine.execHbarComplete
  refine .next ?_
  split
  · exact .ite h.waitStep h
  · exact h

/-! ### Every instruction and event -/

/-- Every instruction and every event keeps the forms. -/
theorem StateIn.exec {i} (h : StateIn G L s) : OutIn G L (exec i s) := by
  cases i with
  | nop | inBandControlFlit => exact .next h
  | nullifierSkip => exact h.execNullifierSkip
  | br | bri | ret => exact .next (h.orRaise fun _ h => h.branch)
  | call | calli => exact .next (h.orRaise fun _ h => h.link.branch)
  | loop | loopi | mloop => exact .next (h.orRaise fun _ h => h.startLoop)
  | lexit => exact .next (.ite h.modMe.emit.branch h)
  | exit => exact .next h.modMe
  | yield => exact h.execYield
  | hbar => exact h.execHbar
  | hbarComplete => exact h.execHbarComplete
  | waitf | waite => exact .next (h.orRaise fun _ h => h.beginWait)
  | waita => exact h.execWaita
  | waitb | waitq | drain => exact .next h.beginWait
  | waitSatisfied => exact h.execWaitSatisfied
  | probe => exact h.execProbe
  | spawn => exact h.execSpawn
  | spawnw => exact .next h.flushStores.beginWait
  | spawnwConversion => exact h.execSpawnwConversion
  | spawnWaitRetry => exact .next (.ite h (h.foldl fun _ _ h => .ite h.retrySpawn h))
  | trap | nonInstruction => exact .next h.raise
  | clkdiv => exact .next (h.orRaise fun _ h => h.modMe)
  | rot | pand | por | pxor | pandn | tdset | chset | mstat | xtsw => exact .next h.emit
  | tret => exact .next (h.orRaise fun _ h => h.userReturn)
  | rte => exact .next (h.orRaise fun _ h => h.systemReturn)
  | mtsr => exact .next (h.orRaise fun _ h => .ite h.sharedWrite h.emit)
  | mfsr => exact .next (h.orRaise fun _ h => h.same.emit)
  | halt => exact h.execHalt
  | pfack => exact .next (h.orRaise fun _ h => h.stopCore)
  | pfbudExhausted => exact .next (.ite h.exhaust h)
  | pfwHoldExpiry => exact h.execPfwHoldExpiry
  | xinv => exact .next (h.orRaise fun _ h => .ite h.dropCached h)
  | errack => exact .next (h.orRaise fun _ h => h)
  | ckmark => exact h.execCkmark
  | add | sub | mul | mulh | mulhn | div | divn | rem | and | or | xor | shl | shr | sra | min | max | minn | maxn | clz | popc
  | sel | addi | andi | ori | xori | shli | shri | srai | movi | movh | fadd | fsub | fmul | fma | fcvtif | fcvtfi =>
    exact .next h.emitS
  | cmp | cmpeqi | cmplti | cmpltni | fcmp => exact .next h.emitPair
  | ldl | tdld | hset => exact .next (h.orRaise fun _ h => h.emitLoad)
  | stl | tdst => exact .next (h.orRaise fun _ h => h.emitStore)
  | ldsp | mfc | mfv => exact .next (h.orRaise fun _ h => h.emitS)
  | stsp | mtc | mtv | bdmov | advc | advp | vwin | omrel | lqry | xtld => exact .next (h.orRaise fun _ h => h.emit)
  | haddr => exact h.execHaddr
  | vadd | vsub | vmul | vfma | vfms | vmin | vmax | vabs | vneg => exact .next h.lane3
  | vand | vor | vxor => exact .next h.bits2
  | vshl | vshr | vsra | vsel => exact .next h.patterns
  | vcmpeq | vcmplt | vcmple => exact .next h.compare
  | vadds | vmuls | vfmas | vmaxs => exact .next h.laneS
  | vwmul | vwadd => exact .next h.widen
  | vnarrow | vcvt => exact .next (h.orRaise fun _ h => h.emitConv)
  | vrsqe | vrcpe | vexp2e | vlog2e => exact .next h.estimate
  | vred | vscan | vperm | vshuf | vbcast | vdot | vmov | vmovs | viota | vcnt | xpose => exact .next (h.orRaise fun _ h => h.emitVec)
  | vch => exact h.execVch
  | vld | vldc => exact .next h.vload
  | vst | vstc => exact .next h.vstore
  | vldh => exact h.execVldh
  | vsth => exact h.execVsth
  | mlease => exact .next (h.orRaise fun _ h => .ite h h.joinArbiter.emit)
  | mrel => exact h.execMrel
  | omclm => exact h.execOmclm
  | mma | mmar | chgrad => exact .next (h.orRaise fun _ h => h.enqueue.refreshArray)
  | mzero => exact .next h.enqueue
  | mdrain | macc => exact .next (h.orRaise fun _ h => h.enqueue)
  | mresume => exact h.execMresume
  | chbeg => exact h.execChbeg
  | chstep | chrun => exact .next (h.orRaise fun _ h => h.issueChain)
  | chend => exact .next (h.orRaise fun _ h => h.enqueue.modMe fun _ h => h.modChain)
  | chabort => exact .next h.abortChain
  | copy | persist | scmrd => exact .next (h.orRaise fun _ h => h.issueCopy)
  | copyh | amo | ddict => exact .next (h.orRaise fun _ h => h.member)
  | cbatch => exact .next h.modMe.enqueue
  | gather | scatter => exact .next (h.orRaise fun _ h => h.issueRows)
  | amocas | colstep => exact .next h.member
  | qfence => exact .next (h.same.foldl fun _ _ h => h.enqueue)
  | stmap => exact h.execStmap
  | stflush => exact .next h.flushStores.member
  | stinv => exact h.execStinv
  | pref => exact h.execPref
  | decomp => exact h.execDecomp
  | bkcmd => exact h.execBkcmd
  | bkvec => exact h.execBkvec
  | lease | lrel | lrenew => exact .next (h.orRaise fun _ h => h.askLease)
  | xcvt => exact h.execXcvt
  | xpack => exact .next (h.orRaise fun _ h => h.emitVec.emitVec.emitCounts.stepLfsr)
  | xunpk => exact .next (h.orRaise fun _ h => h.foldl fun _ _ h => h.emitV)
  | xtbl => exact h.execXtbl
  | xexp => exact h.execXexp
  | xzip | xunzip => exact .next (h.orRaise fun _ h => h.emitRuns)
  | xexpand | xcompr => exact .next h.select
  | asyncTrapDelivery => exact h.execAsyncTrapDelivery
  | stashFillComplete => exact h.execStashFillComplete
  | homeAccess => exact h.execHomeAccess
  | queueCommandStart => exact h.execQueueCommandStart
  | queueCommandComplete => exact h.execQueueCommandComplete
  | batchComplete => exact h.execBatchComplete
  | decoderResume => exact h.execDecoderResume
  | arrayGrant => exact h.execArrayGrant
  | arrayPassComplete => exact h.execArrayPassComplete
  | mmarFetchReturn => exact h.execMmarFetchReturn
  | mmarFetchTimeout => exact h.execMmarFetchTimeout
  | bankCommandAccept => exact h.execBankCommandAccept
  | bankProgramStart => exact h.execBankProgramStart
  | bankProgramComplete => exact h.execBankProgramComplete
  | bnop | bsetrLo | bsetrHi | bsetrAdd | bred | bredTree | bscl | bcvt | bclr => exact .next h.engStep
  | bseg => exact .next (.ite h.engFault h.engStep)
  | bmac | bmacn => exact .next h.mac
  | bout => exact h.execBout
  | bloop | bend => exact .next h.modEng
  | bsig => exact h.execBsig
  | bhalt => exact .next h.engStep.engFault
  | bldv => exact h.execBldv
  | fabricPacket => exact .next (StateIn.sendPackets (.ite h h))
  | leaseAccept => exact h.execLeaseAccept
  | leaseNoticeEnd => exact h.execLeaseNoticeEnd
  | strandRetuneDone => exact h.execStrandRetuneDone
  | leaseStarvationGrant => exact h.execLeaseStarvationGrant
  | leaseExpiry => exact h.execLeaseExpiry
  | dispatchDecision => exact .next (.ite h.promote.decideNow h)
  | taskRetire => exact h.execTaskRetire
  | waitYield => exact h.execWaitYield
  | accountingCharge => exact .next (h.foldl fun _ _ h => h.flushCharges)
  | regStart => exact .next (h.superviseBooted fun _ h => h.startRegion)
  | regKill => exact .next (h.supervise fun _ h => h.killRegion)
  | regUpdate => exact .next (h.supervise fun _ h => h.updateRegion)
  | elogLostClear => exact .next (h.supervise fun _ h => h.clearLost)
  | systemRegisterWrite => exact .next h.superWrite
  | migCtl => exact .next (h.supervise fun _ h => h.startMigration)
  | migrationHoldDone => exact h.execMigrationHoldDone
  | migrationCopyDone => exact h.execMigrationCopyDone
  | migrationForward => exact h.execMigrationForward
  | migrationEnd => exact h.execMigrationEnd
  | pwCap => exact .next (h.supervise fun _ h => h.writeCap)
  | pwGive => exact .next (h.supervise fun _ h => h.writeGive)
  | pwShed => exact .next (h.supervise fun _ h => h.writeShed)
  | pwBo => exact .next (h.supervise fun _ h => h.writeBo)
  | pwLgate => exact .next (h.supervise fun _ h => h.writeLgate)
  | pwL2gate => exact .next (h.supervise fun _ h => h.writeL2gate)
  | localBankWakeDone => exact h.execLocalBankWakeDone
  | l2WayWakeDone => exact .next (.ite h h)
  | grantPeriodEnd => exact .next (.ite h (.ite h.same.refloor.cutDraw h.same.refloor))
  | tokenArrival => exact .next (.ite h.same.refloor (.ite h h))
  | brownoutShed => exact h.execBrownoutShed
  | brownoutAllShed => exact h.execBrownoutAllShed
  | brownoutRestore => exact h.execBrownoutRestore
  | inputLoss => exact .next (.ite h.readBus.warn h.readBus)
  | hibernateQuiesce => exact h.execHibernateQuiesce
  | hibernateFlush => exact h.execHibernateFlush
  | hibernateDrain => exact h.execHibernateDrain
  | hibernateSeal => exact h.execHibernateSeal
  | powerOff => exact .next (.ite h.unpowered h)
  | powerOn => exact .next (.ite h.readBus.same.bootUp h.readBus)
  | flashImageWrite => exact .next (.ite h.same.bootUp h)
  | hbCtlResume => exact .next h.resume
  | rejoinTimeout => exact h.execRejoinTimeout
  | hbCtlRelease => exact .next h.releaseHeld
  | attCtl => exact .next (h.supervise fun _ h => h.startAttest)
  | attestationDone => exact h.execAttestationDone
  | partCtl => exact .next (h.superviseBooted fun _ h => h.writePartCtl)
  | ostrCtl => exact .next (h.supervise fun _ h => h.writeStrandCtl)
  | strandPark | autoWake => exact .next (.ite h.modStrand h)
  | ostrWth => exact .next (h.supervise fun _ h => h.writeStrandWth)
  | wakeComplete => exact h.execWakeComplete
  | orngHtr => exact .next (h.supervise fun _ h => h.writeHeater)
  | orngMap => exact .next (h.supervise fun _ h => h.writeRingMap)
  | lockLoopPeriod => exact .next (.ite h.same.lockPeriod h)
  | ringResettleDone => exact h.execRingResettleDone
  | cdrLoss => exact h.execCdrLoss
  | linkTraining => exact h.execLinkTraining
  | crisumUnassigned => exact .next h.engFault
  | rejoinTraffic => exact h.execRejoinTraffic
  | eventAcknowledge => exact h.execEventAcknowledge
  | killBySupervisor => exact h.execKillBySupervisor
  | supervisorPreempt => exact h.execSupervisorPreempt
  | coordinatorTokens => exact .next (.ite h (.ite h.same.refloor (.ite h h)))

/-! ### Issue -/

theorem StateIn.atSlot {b sw} (h : StateIn G L s) : StateIn G L (s.atSlot b sw) := h

theorem CoreIn.issued {again} (h : CoreIn L c) : CoreIn L (c.issued again) := h

theorem StateIn.hold (h : StateIn G L s) : StateIn G L s.hold := h.modMe.tick

theorem StateIn.fill {g} (h : StateIn G L s) : StateIn G L (s.fill g) := h.modMe.hold

theorem StateIn.takeMet {m} (h : StateIn G L s) : StateIn G L (s.takeMet m) := h.same.takeRaise

theorem StateIn.bubble {i n} (h : StateIn G L s) : StateIn G L (s.bubble i n) := by
  induction n generalizing s with
  | zero => exact h
  | succ n ih => exact .ite h (ih h.tick)

theorem StateIn.changeClock {codes} (h : StateIn G L s) : StateIn G L (s.changeClock codes) := h.bubble.tick.modMe

theorem CoreIn.next {again} (h : CoreIn L c) : CoreIn L (c.next again) := by
  unfold Core.next
  split
  · exact h
  · exact h.advance

theorem StateIn.countSatisfied (h : StateIn G L s) : StateIn G L s.countSatisfied := by
  unfold State.countSatisfied
  split
  · exact h.modMe.satisfy
  · exact h

theorem StateIn.endBundle {again} (h : StateIn G L s) : StateIn G L (s.endBundle again) := by
  unfold State.endBundle
  extract_lets s1 me after s2
  have h1 : StateIn G L s1 := h.modMe.countSatisfied
  have h2 : StateIn G L s2 := h1.setCore h1.me.next.same
  split
  · exact h1
  · exact h1
  · exact (h1.setCore h1.me.next.same).tick
  · exact (h1.setCore h1.me.next.same).tick
  · split
    · exact h1.modMe.ticks
    · split
      · exact h2.changeClock
      · exact h2.ticks

/-- A meaning keeps the forms. -/
def MeaningIn (G L : MemForm) (x : Meaning) : Prop := ∀ i s, StateIn G L s → OutIn G L (x i s)

theorem StateIn.runSlots {x b l} (hx : MeaningIn G L x) (h : StateIn G L s) : OutIn G L (runSlots x b l s) := by
  induction l generalizing s with
  | nil => exact .next h
  | cons sw l ih =>
    unfold Machine.runSlots
    refine .ite (.next h) ?_
    have hi := hx sw.instr (s.atSlot b sw) h.atSlot
    split
    next t ht => exact ih (by rwa [ht] at hi)
    · exact .fault
    · exact .refused

theorem StateIn.issueBundle {x b} (hx : MeaningIn G L x) (h : StateIn G L s) : OutIn G L (s.issueBundle x b) := by
  unfold State.issueBundle
  extract_lets again pre slots live
  have hpre : StateIn G L pre := h.modMe fun _ h => h.issued
  split
  · exact .next h.takeMet
  · refine .ite (.next h.hold) ?_
    extract_lets
    split
    · exact .next h.takeMet
    · exact .next h.fill
    · exact .next h.takeMet
    · refine .ite (.next h.hold) ?_
      split
      · exact .next h.fill
      · have hrun := hpre.runSlots (b := b) (l := live) hx
        split
        next t ht => exact .next (StateIn.endBundle (by rwa [ht] at hrun))
        · exact .fault
        · exact .refused

theorem StateIn.runCore {x} (hx : MeaningIn G L x) (h : StateIn G L s) : OutIn G L (s.runCore x) := by
  unfold State.runCore
  split
  next t ht => exact .next (h.boundary ht)
  · refine .ite (.next h.exhaust) ?_
    split
    · exact .next h.violation
    next t b ht =>
      have h1 : StateIn G L t := h.fetchBundle ht
      exact .ite (.next h1.tick) (.ite (.next h1.skipBundle) (h1.issueBundle hx))

theorem StateIn.exitStep (h : StateIn G L s) : StateIn G L s.exitStep := by
  unfold State.exitStep
  extract_lets c s1
  have h1 : StateIn G L s1 := h.writeBackAll.countOpen.countOpen
  refine .ite h.tick (.ite h1 ?_)
  split
  · exact h1.takeAsync
  · exact h1.modMe

theorem StateIn.waitCore {w} (h : StateIn G L s) : StateIn G L (s.waitCore w) := by
  unfold State.waitCore
  split
  next t ht => exact h.boundary ht
  · exact .ite h.exhaust h.waitStep

theorem StateIn.haltCore (h : StateIn G L s) : StateIn G L s.haltCore := by
  unfold State.haltCore
  split
  · exact .ite h.preemptNow h.tick
  · exact h.tick

theorem StateIn.issue {x i} (hx : MeaningIn G L x) (h : StateIn G L s) : OutIn G L (s.issue x i) := by
  unfold State.issue
  extract_lets s1 s2
  have h1 : StateIn G L s1 := h.same
  have h2 : StateIn G L s2 := h1.runSpawns
  refine .ite (.next h1) ?_
  split
  · exact h2.runCore hx
  · exact .next h2.waitCore
  · exact .next (.ite h2.modMe h2.tick)
  · exact .next h2.exitStep
  · exact .next h2.haltCore
  all_goals exact .next h2.tick

theorem StateIn.runEngine {x e} (hx : MeaningIn G L x) (h : StateIn G L s) : OutIn G L (s.runEngine x e) := .ite (hx _ _ h) (.next h)

theorem StateIn.act {x a} (hx : MeaningIn G L x) (h : StateIn G L s) : OutIn G L (s.act x a) := by
  cases a with
  | issue i => exact .ite (h.issue hx) (.next h)
  | engine e => exact .ite (h.runEngine hx) (.next h)
  | elapse n => exact .next h.same
  | drift r d => exact .next (.ite h.modRing h)
  | rollback k v => exact .next h.raiseRollback
  | superAccess off w => exact .next h.superAccess
  | event i subj e => exact .ite (hx e _ h) (.next h)

theorem StateIn.stepWith {x} (hx : MeaningIn G L x) (h : StateIn G L s) : OutIn G L (s.stepWith x) := by
  unfold State.stepWith
  split <;> exact StateIn.act hx h

/-! ### The step -/

theorem StateIn.step (h : StateIn G L s) : OutIn G L (step s) := h.stepWith fun _ _ h => h.exec

/-! ### The obligations -/

/-- Every step keeps the forms of the memories. -/
theorem step_keeps_forms (h : StateIn G L s) (ht : Machine.step s = .next t) : StateIn G L t := by
  have h1 : OutIn G L (Machine.step s) := h.step
  rwa [ht] at h1

theorem coreIn_canonical_iff : CoreIn .canonical c ↔ c.memOk = true := by
  simp [CoreIn, MemForm.canonical, Core.memOk]

theorem coreIn_any : CoreIn .any c := ⟨trivial, trivial⟩

theorem taskIn_any {x : Task} : TaskIn .any x := fun _ _ => coreIn_any

/-- HBM and SCM in canonical form, with no condition on the local memories. -/
theorem memOk_iff : s.memOk = true ↔ StateIn .canonical .any s := by
  simp only [State.memOk, Bool.and_eq_true]
  constructor
  · rintro ⟨hbm, scm⟩
    exact ⟨hbm, scm, fun _ => coreIn_any, fun _ => ⟨trivial, trivial⟩, fun _ _ => taskIn_any, fun _ _ => taskIn_any⟩
  · exact fun h => ⟨h.hbm, h.scm⟩

/-- Local, operand and saved memories in canonical form, with no condition on HBM and SCM. -/
theorem localOk_iff : s.localOk = true ↔ StateIn .any .canonical s := by
  simp only [State.localOk, Bool.and_eq_true, Vector.all_eq_true, List.all_eq_true]
  constructor
  · rintro ⟨⟨⟨cores, clusters⟩, tasks⟩, image⟩
    exact ⟨trivial, trivial, fun i => coreIn_canonical_iff.2 (cores i i.isLt), fun i => clusters i i.isLt,
      fun t ht k hk => coreIn_canonical_iff.2 (tasks t ht k hk), fun t ht k hk => coreIn_canonical_iff.2 (image t ht k hk)⟩
  · intro h
    exact ⟨⟨⟨fun i hi => coreIn_canonical_iff.1 (h.cores ⟨i, hi⟩), fun i hi => h.clusters ⟨i, hi⟩⟩,
      fun t ht k hk => coreIn_canonical_iff.1 (h.tasks t ht k hk)⟩, fun t ht k hk => coreIn_canonical_iff.1 (h.image t ht k hk)⟩

/-- Settles O57: a step writes HBM and SCM only byte by byte and by dropping cells, which keep the canonical form. -/
theorem stepKeepsGlobalMemoryCanonical : Obligations.StepKeepsGlobalMemoryCanonical := fun _ _ h ht =>
  memOk_iff.2 (step_keeps_forms (memOk_iff.1 h) ht)

/-- Settles O58: the same of the local memories, the operand memories and the saved contexts. -/
theorem stepKeepsLocalMemoriesCanonical : Obligations.StepKeepsLocalMemoriesCanonical := fun _ _ h ht =>
  localOk_iff.2 (step_keeps_forms (localOk_iff.1 h) ht)

end Sys2Proof.Proofs
end

section
/-! PROOFS. Commands as their queues start and retire them, and a decoder that goes on (06 R107, R109; 10 R203 to R206, R213; 11 R238;
12 R252; 28 R436). -/

namespace Sys2Proof.Proofs

open Sys2Proof Sys2Proof.Machine Sys2Proof.Laws

theorem core_cur (s : State) : s.core s.cur = s.me := rfl

/-! ### The next command of a queue starts (06 R107) -/

theorem exec_queueCommandStart (s : State) (q : QueueId) : exec (.queueCommandStart q) s = execQueueCommandStart q s := rfl

/-- What a queue does with the command that it starts on the current core. -/
def startNext (s : State) (q : QueueId) (x : Cmd) : State :=
  match q with
  | .ca | .cb => (s.startCopy s.cur q x).refreshArray (clusterOf s.cur)
  | .m => (s.startMatrix s.cur x).refreshArray (clusterOf s.cur)
  | .dec => s.startDecoder s.cur x
  | .bank => match x.kind with | .qfence id => s.fenceStart s.cur x id | _ => s

theorem exec_queueCommandStart_none {s : State} {q : QueueId} (h : s.me.nextCmd q = none) :
    exec (.queueCommandStart q) s = .next s := by
  simp only [exec_queueCommandStart, execQueueCommandStart, core_cur, h]

theorem exec_queueCommandStart_some {s : State} {q : QueueId} {x : Cmd} (h : s.me.nextCmd q = some x) :
    exec (.queueCommandStart q) s = .next (if s.asleep s.cur && x.kind != .mrel then s else startNext s q x) := by
  simp only [exec_queueCommandStart, execQueueCommandStart, core_cur, h]
  rfl

/-- On a core that sleeps an MREL marker alone performs (28 R436). -/
theorem exec_queueCommandStart_starts {s : State} {q : QueueId} {x : Cmd} (h : s.me.nextCmd q = some x)
    (hw : s.asleep s.cur = false ∨ x.kind = .mrel) : exec (.queueCommandStart q) s = .next (startNext s q x) := by
  rw [exec_queueCommandStart_some h, if_neg]
  obtain ha | hk := hw
  · simp [ha]
  · simp [hk]

theorem exec_queueCommandStart_asleep {s : State} {q : QueueId} {x : Cmd} (h : s.me.nextCmd q = some x)
    (ha : s.asleep s.cur = true) (hk : x.kind ≠ .mrel) : exec (.queueCommandStart q) s = .next s := by
  rw [exec_queueCommandStart_some h, if_pos (by simp [ha, hk])]

theorem startNext_copy (s : State) {q : QueueId} (x : Cmd) (h : q = .ca ∨ q = .cb) :
    startNext s q x = (s.startCopy s.cur q x).refreshArray (clusterOf s.cur) := by
  obtain rfl | rfl := h <;> rfl

theorem startNext_fence (s : State) {x : Cmd} {id : Nat} (h : x.kind = .qfence id) :
    startNext s .bank x = if s.me.fenceMet id then s.setPerformed s.cur x.id else s := by
  simp only [startNext, h]
  rfl

/-- A bank-queue command is started by its acceptance, not by its queue. -/
theorem startNext_bank (s : State) {x : Cmd} (h : ∀ id, x.kind ≠ .qfence id) : startNext s .bank x = s := by
  simp only [startNext]

/-- MZERO clears both planes at once and has performed (12 R258). -/
theorem startMatrix_mzero {s : State} {x : Cmd} (hk : x.kind = .mzero) (hf : s.me.slotsFilled x = true) :
    s.startMatrix s.cur x = s.withMe ({ s.me with mx := { s.me.mx with
      plane := Vector.replicate 16384 0, check := Vector.replicate 16384 0, chk := true } }.modCmd x.id fun y =>
        { y with phase := .performed }) := by
  simp only [State.startMatrix, core_cur, hk, hf, State.mzeroRun, State.setPerformed, State.modCmd, modCore_modCore]
  rfl

theorem startMatrix_mrel {s : State} {x : Cmd} (hk : x.kind = .mrel) (hf : s.me.slotsFilled x = true) :
    s.startMatrix s.cur x = s.withMe (s.me.modCmd x.id fun y => { y with phase := .performed }) := by
  simp only [State.startMatrix, core_cur, hk, hf]
  rfl

theorem queueCommandsStart : QueueCommandsStart := by
  intro s q x c
  refine ⟨fun hw h => ⟨fun hq => ?_, fun hq => ?_, fun hq => ?_, fun id hq hk => ?_, fun hq hk => ?_⟩, fun ha h hk hf => ?_,
    fun h hk hf => ?_, fun ha h hk => exec_queueCommandStart_asleep h ha hk, exec_queueCommandStart_none⟩
  · rw [exec_queueCommandStart_starts h hw, startNext_copy s x hq]
  · rw [exec_queueCommandStart_starts h hw, hq, startNext]
  · rw [exec_queueCommandStart_starts h hw, hq, startNext]
  · subst hq
    rw [exec_queueCommandStart_starts h hw, startNext_fence s hk]
  · subst hq
    rw [exec_queueCommandStart_starts h hw, startNext_bank s hk]
  · rw [exec_queueCommandStart_starts h (.inl ha), startNext, startMatrix_mzero hk hf]
  · rw [exec_queueCommandStart_starts h (.inr hk), startNext, startMatrix_mrel hk hf]

/-! ### A command that has performed leaves its queue (10 R203, R213) -/

/-- A command that leaves its queue by itself: a CBATCH leaves with its batch, a bank-queue command with its program. -/
def leavesAlone (k : CmdKind) : Prop :=
  (∀ n y z w, k ≠ .cbatch n y z w) ∧ (∀ n y z w, k ≠ .bkcmd n y z w) ∧ ∀ n y z, k ≠ .bkvec n y z

theorem exec_queueCommandComplete (s : State) (q : QueueId) (k : Nat) :
    exec (.queueCommandComplete q k) s = execQueueCommandComplete q k s := rfl

theorem exec_queueCommandComplete_none {s : State} {q : QueueId} {k : Nat} (h : (s.me.q.get q)[k]? = none) :
    exec (.queueCommandComplete q k) s = .next s := by
  simp only [exec_queueCommandComplete, execQueueCommandComplete, core_cur, h]

theorem exec_queueCommandComplete_alone {s : State} {q : QueueId} {k : Nat} {x : Cmd} (h : (s.me.q.get q)[k]? = some x)
    (hl : leavesAlone x.kind) : exec (.queueCommandComplete q k) s =
      .next (if x.phase != .performed || s.me.reservedBefore x then s else s.retireCmd s.cur q x) := by
  obtain ⟨hb, hc, hv⟩ := hl -- they rule out the arms of the kinds that are kept
  simp only [exec_queueCommandComplete, execQueueCommandComplete, core_cur, h]
  rfl

theorem exec_queueCommandComplete_kept {s : State} {q : QueueId} {k : Nat} {x : Cmd} (h : (s.me.q.get q)[k]? = some x)
    (hl : ¬ leavesAlone x.kind) : exec (.queueCommandComplete q k) s = .next s := by
  simp only [exec_queueCommandComplete, execQueueCommandComplete, core_cur, h]
  split
  next => rfl
  next => rfl
  next => rfl
  next hb hc hv => exact absurd ⟨hb, hc, hv⟩ hl

/-! ### A CBATCH at the head of its queue (10 R205, R206) -/

theorem exec_batchComplete (s : State) (q : QueueId) : exec (.batchComplete q) s = execBatchComplete q s := rfl

theorem exec_batchComplete_nil {s : State} {q : QueueId} (h : s.me.q.get q = []) : exec (.batchComplete q) s = .next s := by
  simp only [exec_batchComplete, execBatchComplete, core_cur, h]

theorem exec_batchComplete_other {s : State} {q : QueueId} {x : Cmd} {l : List Cmd} (h : s.me.q.get q = x :: l)
    (hk : ∀ n y z w, x.kind ≠ .cbatch n y z w) : exec (.batchComplete q) s = .next s := by
  simp only [exec_batchComplete, execBatchComplete, core_cur, h]

theorem exec_batchComplete_early {s : State} {q : QueueId} {x : Cmd} {l : List Cmd} (h : s.me.q.get q = x :: l)
    (hp : x.phase ≠ .performed) : exec (.batchComplete q) s = .next s := by
  simp only [exec_batchComplete, execBatchComplete, core_cur, h]
  split
  next => rw [if_pos (by simpa using hp)]
  next => rfl

/-- What becomes of a batch whose CBATCH has left: its increments are applied, it leaves, and its failure takes effect where no record
reports it. -/
def settleBatch (s : State) (va : Option Word) (b : Batch) : State :=
  let u := (s.applyBatch s.cur b).modCore s.cur fun y => y.dropBatch b.cb b.num
  if va.isSome then u else u.resolveBatch s.cur b

theorem exec_batchComplete_performed {s : State} {q : QueueId} {x : Cmd} {l : List Cmd} {num : Nat} {va : Option Word} {v : BitVec 32}
    {cn : Bool} (h : s.me.q.get q = x :: l) (hk : x.kind = .cbatch num va v cn) (hp : x.phase = .performed) :
    exec (.batchComplete q) s = .next (let t := s.withMe (s.me.dropCmd x.id)
      ((t.me.q.batch (q == .cb) num).map (settleBatch t va)).getD t) := by
  simp only [exec_batchComplete, execBatchComplete, core_cur, h, hk, hp, bne_self_eq_false, Bool.false_eq_true, if_false]
  change Host.Outcome.next (match (s.withMe (s.me.dropCmd x.id)).me.q.batch (q == .cb) num with | none => _ | some b => _) = _
  cases (s.withMe (s.me.dropCmd x.id)).me.q.batch (q == .cb) num <;> rfl

theorem queueCommandsComplete : QueueCommandsComplete := by
  intro s q k num x b va v cn l c leaves
  refine ⟨fun h hp hr hl => ?_, fun h hn => ?_, exec_queueCommandComplete_none, fun h hk hp => ⟨fun hb => ?_, fun hb => ?_⟩,
    fun h hn => ?_, exec_batchComplete_nil⟩
  · rw [exec_queueCommandComplete_alone h hl, if_neg (by simp [hp, hr])]
  · by_cases hl : leavesAlone x.kind
    · rw [exec_queueCommandComplete_alone h hl, if_pos]
      obtain hp | hr | hl' := hn
      · simp [hp]
      · simp [hr]
      · exact absurd hl hl'
    · exact exec_queueCommandComplete_kept h hl
  · rw [exec_batchComplete_performed h hk hp]
    simp only [hb]
    rfl
  · rw [exec_batchComplete_performed h hk hp]
    simp only [hb]
    rfl
  · exact hn.elim (exec_batchComplete_early h) (exec_batchComplete_other h)

/-! ### A decoder goes on (11 R238) -/

theorem exec_decoderResume (s : State) : exec .decoderResume s = execDecoderResume s := rfl

theorem exec_decoderResume_asleep {s : State} (h : s.asleep s.cur = true) : exec .decoderResume s = .next s :=
  congrArg Host.Outcome.next (if_pos h)

theorem exec_decoderResume_none {s : State} (h : ∀ k ∈ s.me.q.dec, k.phase ≠ .suspended) : exec .decoderResume s = .next s := by
  have hf : (s.me.q.dec.find? fun k => k.phase == .suspended) = none := List.find?_eq_none.2 fun k hk => by simpa using h k hk
  simp only [exec_decoderResume, execDecoderResume, core_cur, hf, ite_self]

theorem exec_decoderResume_some {s : State} {x : Cmd} {d i : TdWord} {l : List Nat} {n : Nat} {y z : Handle}
    (ha : s.asleep s.cur = false) (hx : (s.me.q.dec.find? fun k => k.phase == .suspended) = some x)
    (hk : x.kind = .decomp d i (some l) n y) (hz : s.me.fifo x = some z) :
    exec .decoderResume s = .next (if z.free = 0 then s else s.chunkFill s.cur x d l n) := by
  simp only [exec_decoderResume, execDecoderResume, core_cur, ha, hx, hk, hz, Bool.false_eq_true, if_false]

theorem sameSlots_iff (x h : Handle) :
    x.sameSlots h = true ↔ x.base = h.base ∧ x.slotBytes = h.slotBytes ∧ x.slotCount = h.slotCount := by
  simp [Handle.sameSlots, and_assoc]

/-- A DECOMP fills the slots that h15 held at its issue, with h15's indices while it still holds these (03 R55). -/
theorem fifo_decomp {c : Core} {x : Cmd} {d i : TdWord} {e : Option (List Nat)} {n : Nat} {y z : Handle}
    (hk : x.kind = .decomp d i e n y) (hz : c.handles[15] = some z) : c.fifo x = some (if z.sameSlots y then z else y) := by
  simp only [Core.fifo, hk, hz]

theorem decodersResume : DecodersResume := by
  intro s x d i l n y z
  refine ⟨fun ha hx hk hz => ?_, fun h => ?_, fun hk hz => ?_⟩
  · rw [exec_decoderResume_some ha hx hk hz]
    exact ⟨fun hf => by rw [if_neg hf], fun hf => by rw [if_pos hf]⟩
  · exact h.elim exec_decoderResume_asleep exec_decoderResume_none
  · rw [fifo_decomp hk hz, ← sameSlots_iff]
    exact ⟨fun hs => by rw [if_pos hs], fun hs => by rw [if_neg hs]⟩

end Sys2Proof.Proofs
end

section
/-! PROOFS. Accesses where they perform and the fills of stash granules (05 R89, R90, R101; 06 R104; 21 R375; 23 R401), and O40. -/

namespace Sys2Proof.Proofs

open Sys2Proof Sys2Proof.Machine Sys2Proof.Laws

/-! ### An access at its home, and a request from outside the module (06 R104, 21 R375) -/

section

variable {s : State} {who : Requester} {ia n cls : Nat} {p : Page} {bs : List Byte}
  (hm : s.onModule ia = true) (hh : s.isHeld (iaLocal ia) = false)

include hm hh

theorem performGlobal_home (hint : Nat) (op : AccessOp) (ans : PeerAnswer) (hp : s.checkPage who (s.page (iaLocal ia)) = .ok p) :
    s.performGlobal who hint ia op ans = some (.ok ((s.reach who p ia op.size hint op.writes).performHome who p ia op)) := by
  simp only [State.performGlobal, hm, hh, hp, Bool.not_true, Bool.false_eq_true, if_false]

theorem performGlobal_refused (hint : Nat) (op : AccessOp) (ans : PeerAnswer)
    (hp : s.checkPage who (s.page (iaLocal ia)) = .error cls) :
    s.performGlobal who hint ia op ans = some (.error (cls, ia)) := by
  simp only [State.performGlobal, hm, hh, hp, Bool.not_true, Bool.false_eq_true, if_false]

theorem performIncoming_write (hp : s.checkPage who (s.page (iaLocal ia)) = .ok p) (hl : ia % 128 + bs.length ≤ 128) :
    s.performIncoming who ia (.write bs) = (s.reach who p ia bs.length 0 true).homeWrite who p ia bs := by
  simp [State.performIncoming, performGlobal_home hm hh _ _ _ hp, hm, AccessOp.size, AccessOp.writes, hl, State.performHome]

theorem performIncoming_read (hp : s.checkPage who (s.page (iaLocal ia)) = .ok p) (hl : ia % 128 + n ≤ 128) :
    s.performIncoming who ia (.read n) = (s.reach who p ia n 0 false).recall (some p) ia false := by
  simp [State.performIncoming, performGlobal_home hm hh _ _ _ hp, hm, AccessOp.size, AccessOp.writes, hl, State.performHome,
    State.homeRead]

/-- A read of the supervisor complex that the page refuses is logged. -/
theorem performIncoming_refused (hp : s.checkPage .module (s.page (iaLocal ia)) = .error cls) (hl : ia % 128 + n ≤ 128) :
    s.performIncoming .module ia (.read n) = s.logModuleViolation cls ia 0 := by
  simp [State.performIncoming, performGlobal_refused hm hh _ _ _ hp, hm, AccessOp.size, hl]

end

/-! ### The events of the homes -/

theorem exec_homeAccess (s : State) (a : HomeAccess) : exec (.homeAccess a) s = execHomeAccess a s := rfl

theorem exec_homeAccess_none {s : State} {i : Nat} (off len : Nat) (ans : PeerAnswer) (h : s.accesses[i]? = none) :
    exec (.homeAccess (.pending i off len ans)) s = .next s := by
  simp only [exec_homeAccess, execHomeAccess, State.performPending, h]
  rfl

/-- An access of a core's command concerns the arbiter of its cluster. -/
theorem exec_homeAccess_some {s : State} {i : Nat} {a : Access} (off len : Nat) (ans : PeerAnswer) (h : s.accesses[i]? = some a) :
    exec (.homeAccess (.pending i off len ans)) s = .next
      ((ownerCluster a.owner).elim (s.performPending i off len ans) (s.performPending i off len ans).refreshArray) := by
  simp only [exec_homeAccess, execHomeAccess, h, Option.map_some, Option.bind_some]
  cases ownerCluster a.owner with
  | none => rw [Option.elim_none]
  | some cl => rw [Option.elim_some]

theorem exec_homeAccess_fromPeer (s : State) (ia : BitVec 56) (req : Incoming) : exec (.homeAccess (.fromPeer ia req)) s =
    .next (if s.answersPeers then s.performIncoming .peer ia.toNat req else s) := rfl

theorem exec_homeAccess_fromSupervisor (s : State) (ia : BitVec 56) (req : Incoming) : exec (.homeAccess (.fromSupervisor ia req)) s =
    .next (s.supervise fun s => s.performIncoming .module ia.toNat req) := rfl

theorem exec_homeAccess_peerRecall (s : State) (ia : BitVec 56) (w : Bool) : exec (.homeAccess (.peerRecall ia w)) s =
    .next (if s.onModule ia.toNat || !s.answersPeers then s else s.peerRecall ia.toNat w) := rfl

theorem answersPeers_iff (s : State) : s.answersPeers = true ↔ s.powered = true ∧ (s.hib.state = .run ∨ s.hib.state = .warn) := by
  unfold State.answersPeers
  cases s.hib.state <;> simp

theorem homesPerform : HomesPerform := by
  intro s i off len n ans a ia bs req w p who t
  refine ⟨fun cl h ho => ?_, fun h ho => ?_, exec_homeAccess_none off len ans, answersPeers_iff s, fun hr => ?_, fun hr => ?_,
    fun hs => ?_, fun hs => ?_, fun hm hh hp => ⟨performIncoming_write hm hh hp, performIncoming_read hm hh hp⟩,
    fun cls => performIncoming_refused, fun hm hr => ?_, fun hn => ?_⟩
  · rw [exec_homeAccess_some off len ans h, ho, Option.elim_some]
  · rw [exec_homeAccess_some off len ans h, ho, Option.elim_none]
  · rw [exec_homeAccess_fromPeer, if_pos hr]
  · rw [exec_homeAccess_fromPeer, if_neg (by simp [hr])]
  · rw [exec_homeAccess_fromSupervisor, supervise_running _ hs]
  · rw [exec_homeAccess_fromSupervisor, supervise_stopped _ hs]
  · rw [exec_homeAccess_peerRecall, if_neg (by simp [hm, hr])]
  · rw [exec_homeAccess_peerRecall, if_pos (by simpa using hn)]

/-! ### A granule's fill (05 R89, R97, R101) -/

/-- The core stalls for a granule of its stash, and none of its own loads and stores is in flight. -/
def FillDue (s : State) (g : Nat) (e : StashEntry) : Prop :=
  s.me.status = .filling g ∧ s.me.loc.loads = [] ∧ s.me.loc.stores = [] ∧ s.me.stashEntry g = some e

/-- A fill from a peer: its bytes, or the violation that it answers; one from a module that is not there is a violation (05 R101). -/
def fillFromPeer (s : State) (g ia : Nat) (ans : PeerAnswer) : State :=
  if s.isTrained (iaModule ia) then
    match peerResult ia 4096 true ans with
    | none => s
    | some (.error (cls, addr)) => s.violation s.cur cls addr s.me.pc
    | some (.ok bs) => s.withMe (s.me.fillGranule g bs)
  else s.violation s.cur clsNoModule ia s.me.pc

/-- A fill from this module's memory: the bytes at the home, each line recalled, where the page admits the core and is no BANK page
(05 R89, R97). -/
def fillFromHome (s : State) (g ia : Nat) : State :=
  match s.checkPage (.core s.cur) (s.page (iaLocal ia)) with
  | .error cls => s.violation s.cur cls ia s.me.pc
  | .ok p =>
    if p.bank then s.violation s.cur clsStashBank ia s.me.pc
    else
      let r := (s.reach (.core s.cur) p ia 4096 0 false).readGranule p ia
      r.1.modCore s.cur fun x => x.fillGranule g r.2

theorem exec_stashFillComplete (s : State) (ans : PeerAnswer) : exec (.stashFillComplete ans) s = execStashFillComplete ans s := rfl

theorem exec_stashFillComplete_due {s : State} {g : Nat} {e : StashEntry} (ans : PeerAnswer) (h : FillDue s g e) :
    exec (.stashFillComplete ans) s = .next (
      let ia := e.ia + (g - e.lbase)
      if s.onModule ia then if s.isHeld (iaLocal ia) then s else fillFromHome s g ia else fillFromPeer s g ia ans) := by
  obtain ⟨hg, hl, hs, he⟩ := h
  simp only [exec_stashFillComplete, execStashFillComplete, core_cur, hg, hl, hs, he]
  cases hm : s.onModule (e.ia + (g - e.lbase)) with
  | true => rfl
  | false =>
    simp only [fillFromPeer]
    cases s.isTrained (iaModule (e.ia + (g - e.lbase))) <;> rfl

theorem exec_stashFillComplete_behind {s : State} {g : Nat} (ans : PeerAnswer) (hg : s.me.status = .filling g)
    (h : s.me.loc.loads ≠ [] ∨ s.me.loc.stores ≠ []) : exec (.stashFillComplete ans) s = .next s := by
  have hb : (!s.me.loc.loads.isEmpty || !s.me.loc.stores.isEmpty) = true := by simpa using h
  simp only [exec_stashFillComplete, execStashFillComplete, core_cur, hg, hb, if_true]

theorem exec_stashFillComplete_idle {s : State} (ans : PeerAnswer) (h : ∀ g, s.me.status ≠ .filling g) :
    exec (.stashFillComplete ans) s = .next s := by
  simp only [exec_stashFillComplete, execStashFillComplete, core_cur]

theorem fillFromHome_read {s t : State} {g ia : Nat} {p : Page} {bs : List Byte}
    (hp : s.checkPage (.core s.cur) (s.page (iaLocal ia)) = .ok p) (hb : p.bank = false)
    (hr : (s.reach (.core s.cur) p ia 4096 0 false).readGranule p ia = (t, bs)) :
    fillFromHome s g ia = t.modCore s.cur fun x => x.fillGranule g bs := by
  simp only [fillFromHome, hp, hb, hr, Bool.false_eq_true, if_false]

theorem fillFromHome_bank {s : State} {ia : Nat} {p : Page} (g : Nat)
    (hp : s.checkPage (.core s.cur) (s.page (iaLocal ia)) = .ok p) (hb : p.bank = true) :
    fillFromHome s g ia = s.violation s.cur clsStashBank ia s.me.pc := by
  simp only [fillFromHome, hp, hb, if_true]

theorem fillFromHome_refused {s : State} {ia cls : Nat} (g : Nat)
    (hp : s.checkPage (.core s.cur) (s.page (iaLocal ia)) = .error cls) :
    fillFromHome s g ia = s.violation s.cur cls ia s.me.pc := by
  simp only [fillFromHome, hp]

theorem peerResult_ok {ia n : Nat} {bs : List Byte} (h : bs.length = n) : peerResult ia n true (.ok bs) = some (.ok bs) := by
  simp [peerResult, h]

theorem fillFromPeer_answered {s : State} {ia : Nat} {bs : List Byte} (g : Nat) (ht : s.isTrained (iaModule ia) = true)
    (hl : bs.length = 4096) : fillFromPeer s g ia (.ok bs) = s.withMe (s.me.fillGranule g bs) := by
  rw [fillFromPeer, if_pos ht, peerResult_ok hl]

theorem fillFromPeer_hibernating {s : State} {ia : Nat} (g : Nat) (ht : s.isTrained (iaModule ia) = true) :
    fillFromPeer s g ia .hibernating = s.violation s.cur clsHibernating ia s.me.pc := if_pos ht

theorem fillFromPeer_refused {s : State} {ia : Nat} (g : Nat) (ht : s.isTrained (iaModule ia) = true) :
    fillFromPeer s g ia .refused = s.violation s.cur clsPeerRefused ia s.me.pc := if_pos ht

theorem fillFromPeer_absent {s : State} {ia : Nat} (g : Nat) (ans : PeerAnswer) (ht : s.isTrained (iaModule ia) = false) :
    fillFromPeer s g ia ans = s.violation s.cur clsNoModule ia s.me.pc := if_neg (by simp [ht])

/-- A due fill from this module whose page does not migrate. -/
theorem exec_stashFillComplete_home {s : State} {g : Nat} {e : StashEntry} (ans : PeerAnswer) (h : FillDue s g e)
    (hm : s.onModule (e.ia + (g - e.lbase)) = true) (hh : s.isHeld (iaLocal (e.ia + (g - e.lbase))) = false) :
    exec (.stashFillComplete ans) s = .next (fillFromHome s g (e.ia + (g - e.lbase))) := by
  simp only [exec_stashFillComplete_due ans h, hm, hh, if_true, Bool.false_eq_true, if_false]

theorem exec_stashFillComplete_held {s : State} {g : Nat} {e : StashEntry} (ans : PeerAnswer) (h : FillDue s g e)
    (hm : s.onModule (e.ia + (g - e.lbase)) = true) (hh : s.isHeld (iaLocal (e.ia + (g - e.lbase))) = true) :
    exec (.stashFillComplete ans) s = .next s := by
  simp only [exec_stashFillComplete_due ans h, hm, hh, if_true]

theorem exec_stashFillComplete_peer {s : State} {g : Nat} {e : StashEntry} (ans : PeerAnswer) (h : FillDue s g e)
    (hm : s.onModule (e.ia + (g - e.lbase)) = false) :
    exec (.stashFillComplete ans) s = .next (fillFromPeer s g (e.ia + (g - e.lbase)) ans) := by
  simp only [exec_stashFillComplete_due ans h, hm, Bool.false_eq_true, if_false]

theorem stashFills : StashFills := by
  intro s t g e p ans bs cls c ia due filled
  refine ⟨fun h hm hh => ⟨fun hp hb hr => ?_, fun hp hb => ?_, fun hp => ?_⟩, exec_stashFillComplete_held ans,
    fun h hm ht => ⟨fun ha hl => ?_, fun ha => ?_, fun ha => ?_⟩, fun h hm ht => ?_, exec_stashFillComplete_behind ans,
    exec_stashFillComplete_idle ans⟩
  · rw [exec_stashFillComplete_home ans h hm hh, fillFromHome_read hp hb hr]
    rfl
  · rw [exec_stashFillComplete_home ans h hm hh, fillFromHome_bank g hp hb]
    rfl
  · rw [exec_stashFillComplete_home ans h hm hh, fillFromHome_refused g hp]
  · rw [exec_stashFillComplete_peer ans h hm, ha, fillFromPeer_answered g ht hl]
    rfl
  · rw [exec_stashFillComplete_peer ans h hm, ha, fillFromPeer_hibernating g ht]
    rfl
  · rw [exec_stashFillComplete_peer ans h hm, ha, fillFromPeer_refused g ht]
    rfl
  · rw [exec_stashFillComplete_peer ans h hm, fillFromPeer_absent g ans ht]
    rfl

/-- Settles O40: each event is what its queue, its home, its granule or its decoder does next, and nothing where that has nothing to do. -/
theorem queueEventsAct : Obligations.QueueEventsAct :=
  ⟨queueCommandsStart, queueCommandsComplete, homesPerform, stashFills, decodersResume⟩

end Sys2Proof.Proofs
end

section
/-! PROOFS. The step and its agenda (log 3): what each action does with and without power, how the supervisor complex reaches its block
of registers, and O55. -/

namespace Sys2Proof.Proofs

open Sys2Proof Sys2Proof.Machine Sys2Proof.Laws

/-! ### The agenda (log 3) -/

theorem step_cons {s : State} {a : Action} {rest : List Action} (h : s.agenda = a :: rest) :
    step s = { s with agenda := rest }.act exec a := by
  simp only [step, State.stepWith, h]

theorem step_nil {s : State} (h : s.agenda = []) :
    step s = { s with choices := s.choices + 1 }.act exec (Config.freeAction s.choices) := by
  simp only [step, State.stepWith, h]

/-! ### Events and engines, with power and without (25 R413, R415; log 45) -/

theorem act_event_runs {s : State} {i : Instr} (x : Meaning) (c : CoreId) (subj : Nat)
    (h : s.powered = true ∨ unpoweredEvent i = true) :
    s.act x (.event c subj i) = x i { s with cur := c, subj := subj, curSlot := .k, curWord := 0, trial := false, met := none } :=
  if_pos (by simpa using h)

theorem act_event_off {s : State} {i : Instr} (x : Meaning) (c : CoreId) (subj : Nat)
    (hp : s.powered = false) (hi : unpoweredEvent i = false) : s.act x (.event c subj i) = .next s :=
  if_neg (by simp [hp, hi])

theorem act_engine_powered {s : State} (x : Meaning) (e : EngineId) (h : s.powered = true) : s.act x (.engine e) = s.runEngine x e :=
  if_pos h

theorem act_engine_off {s : State} (x : Meaning) (e : EngineId) (h : s.powered = false) : s.act x (.engine e) = .next s :=
  if_neg (by simp [h])

theorem act_issue_off {s : State} (x : Meaning) (c : CoreId) (h : s.powered = false) : s.act x (.issue c) = .next s :=
  if_neg (by simp [h])

theorem act_drift_powered {s : State} (x : Meaning) (r : RingId) (d : Int) (h : s.powered = true) :
    s.act x (.drift r d) = .next (s.modRing r fun y => { y with detune := y.detune + d }) :=
  congrArg Host.Outcome.next (if_pos h)

/-! ### The next command word of an engine (14 R287, R291) -/

theorem engine_runs_iff (x : Engine) : x.runs = true ↔ x.running = true ∧ x.ptr < 1024 := by
  simp [Engine.runs]

theorem engine_word_of_lt {x : Engine} (h : x.ptr < 1024) : x.word = x.cmds[x.ptr] := by
  simp [Engine.word, h]

theorem runEngine_running {s : State} {e : EngineId} (x : Meaning) (hr : (s.engine e).running = true) (hp : (s.engine e).ptr < 1024) :
    s.runEngine x e = x (decodeCrisum (s.engine e).cmds[(s.engine e).ptr]) { s with curEng := e, trial := false, met := none } := by
  rw [← engine_word_of_lt hp]
  exact if_pos ((engine_runs_iff _).2 ⟨hr, hp⟩)

/-- An engine that is stopped, or whose last word has run, does nothing. -/
theorem runEngine_over {s : State} {e : EngineId} (x : Meaning) (h : (s.engine e).running = false ∨ 1024 ≤ (s.engine e).ptr) :
    s.runEngine x e = .next { s with curEng := e, trial := false, met := none } := by
  refine if_neg fun hx => ?_
  obtain ⟨hr, hp⟩ := (engine_runs_iff (s.engine e)).1 hx
  exact h.elim (by simp [hr]) hp.not_ge

/-! ### The supervisor complex at its registers (25 R414, R418; log 83) -/

theorem act_rollback (s : State) (x : Meaning) (k : Fin 2) (v : BitVec 16) :
    s.act x (.rollback k v) = .next (s.raiseRollback k v) := rfl

theorem act_superAccess (s : State) (x : Meaning) (off : Nat) (o : Option Word) :
    s.act x (.superAccess off o) = .next (s.superAccess off o) := rfl

theorem raiseRollback_running {s : State} (k : Fin 2) (v : BitVec 16) (h : s.supStopped = false) :
    s.raiseRollback k v = { s with boot := { s.boot with
      rollback := s.boot.rollback.set k (BitVec.ofNat 16 (max s.boot.rollback[k].toNat v.toNat)) } } :=
  supervise_running _ h

theorem raiseRollback_stopped {s : State} (k : Fin 2) (v : BitVec 16) (h : s.supStopped = true) : s.raiseRollback k v = s :=
  supervise_stopped _ h

theorem superRead_running {s : State} {i : Nat} {w : Word} (h : s.supStopped = false) (hw : s.sharedRead i = some w) :
    s.superRead i = { s with choices := s.choices + 1, boot := { s.boot with superData := w } } := by
  rw [State.superRead, supervise_running _ h]
  simp only [hw]

theorem superRead_stopped {s : State} (i : Nat) (h : s.supStopped = true) : s.superRead i = s := supervise_stopped _ h

/-- An offset of no register has no effect. -/
theorem superAccess_between {s : State} {off : Nat} (o : Option Word) (h : off % 8 ≠ 0) : s.superAccess off o = s := if_pos h

theorem superAccess_write {s : State} {off : Nat} (w : Word) (h : off % 8 = 0) :
    s.superAccess off (some w) = s.superWrite (0x10000 + off / 8) w := if_neg (by simp [h])

theorem superAccess_read {s : State} {off : Nat} (h : off % 8 = 0) :
    s.superAccess off none = s.superRead (0x10000 + off / 8) := if_neg (by simp [h])

theorem superAccess_stopped {s : State} (off : Nat) (o : Option Word) (h : s.supStopped = true) : s.superAccess off o = s := by
  by_cases ho : off % 8 = 0
  · cases o with
    | some w => exact (superAccess_write w ho).trans (superWrite_stopped _ _ h)
    | none => exact (superAccess_read ho).trans (superRead_stopped _ h)
  · exact superAccess_between o ho

/-! ### The obligation -/

/-- Settles O55: a step is its first action, and each action is its one effect where the module's power and the supervisor complex allow
it. -/
theorem stepRunsTheAction : Obligations.StepRunsTheAction := by
  intro s rest c subj n off i e r d k v w o t u
  have stepped {a : Action} (ha : s.agenda = a :: rest) : step s = t.act exec a := step_cons ha
  refine ⟨fun hp ha => ?_, fun hp hi ha => ?_, fun hp ha hr h => ?_, fun hp ha h => ?_, fun hp ha => ?_, stepped,
    fun hp ha => ?_, fun hs ha => ?_, fun hs ho hb ha => ?_, fun hs ho ha hw => ?_, fun hs ha => ?_, fun ho ha => ?_, step_nil⟩
  · exact (stepped ha).trans (act_event_runs exec c subj (s := t) hp)
  · exact (stepped ha).trans (act_event_off exec c subj (s := t) hp hi)
  · rw [stepped ha, act_engine_powered exec e (s := t) hp]
    exact runEngine_running exec (s := t) hr h
  · rw [stepped ha, act_engine_powered exec e (s := t) hp]
    exact runEngine_over exec (s := t) h
  · obtain ha | ha := ha
    · exact (stepped ha).trans (act_engine_off exec e (s := t) hp)
    · exact (stepped ha).trans (act_issue_off exec c (s := t) hp)
  · exact (stepped ha).trans (act_drift_powered exec r d (s := t) hp)
  · rw [stepped ha, act_rollback, raiseRollback_running k v (s := t) hs]
  · rw [stepped ha, act_superAccess, superAccess_write w ho, superWrite_booted w (s := t) hs (.inr hb)]
  · rw [stepped ha, act_superAccess, superAccess_read ho, superRead_running (s := t) hs hw]
  · obtain ha | ha := ha
    · rw [stepped ha, act_superAccess, superAccess_stopped off o (s := t) hs]
    · rw [stepped ha, act_rollback, raiseRollback_stopped k v (s := t) hs]
  · rw [stepped ha, act_superAccess, superAccess_between o ho]

end Sys2Proof.Proofs
end

section
/-! PROOFS. The operand fields of a word (07 R121, R127 to R135; 14 R292): a sum of fields is the low part of a word exactly where every
field has its value and the bits between the fields are zero, and the codes of the operands that have one. -/

namespace Sys2Proof.Proofs

open Sys2Proof Sys2Proof.Machine Sys2Proof.Laws

section

-- One lemma after another: in parallel they take a thread each.
set_option Elab.async false

/-! ### Fields -/

theorem fld_toNat (w : BitVec 32) (lo n : Nat) : (fld w lo n).toNat = w.toNat / 2 ^ lo % 2 ^ n := by
  simp [fld, Nat.shiftRight_eq_div_pow]

theorem fld_eq_iff {w : BitVec 32} {lo n : Nat} {x : BitVec n} : fld w lo n = x ↔ w.toNat / 2 ^ lo % 2 ^ n = x.toNat := by
  rw [← fld_toNat]; exact BitVec.toNat_inj.symm

/-- A bit is a field of one bit. -/
theorem ofBool_bit (w : BitVec 32) (i : Nat) : BitVec.ofBool (bit w i) = fld w i 1 := by
  rw [eq_comm, fld_eq_iff, BitVec.toNat_ofBool, bit, BitVec.getLsbD, Nat.testBit_eq_decide_div_mod_eq, pow_one]
  rcases Nat.mod_two_eq_zero_or_one (w.toNat / 2 ^ i) with h | h <;> simp [h]

theorem fld_eq_ofBool {w : BitVec 32} {i : Nat} {t : Bool} : fld w i 1 = BitVec.ofBool t ↔ bit w i = t := by
  rw [← ofBool_bit]
  cases bit w i <;> cases t <;> decide

/-! ### The low part of a word -/

/-- The low part of a number is its upper field and the part below that. -/
theorem low_eq_iff {v lo n x r : Nat} (hr : r < 2 ^ lo) :
    v % 2 ^ (lo + n) = x * 2 ^ lo + r ↔ v / 2 ^ lo % 2 ^ n = x ∧ v % 2 ^ lo = r := by
  rw [← Nat.mod_mul_right_div_self, ← Nat.pow_add, ← Nat.mod_mod_of_dvd v (pow_dvd_pow 2 (Nat.le_add_right lo n)),
    Nat.div_mod_unique (Nat.two_pow_pos lo), eq_comm, mul_comm, add_comm]
  exact (and_iff_left hr).symm

/-- The low part of a word ends in a field and a rest exactly where the bits above the field are zero, the field has its value, and the part
below is the rest. -/
theorem low_eq_field_add {w : BitVec 32} {hi lo n r : Nat} {x : BitVec n} (h : lo + n ≤ hi ∧ r < 2 ^ lo) :
    w.toNat % 2 ^ hi = x.toNat * 2 ^ lo + r ↔
      w.toNat / 2 ^ (lo + n) % 2 ^ (hi - (lo + n)) = 0 ∧ fld w lo n = x ∧ w.toNat % 2 ^ lo = r := by
  obtain ⟨hn, hr⟩ := h
  obtain ⟨k, rfl⟩ := Nat.exists_eq_add_of_le hn
  have hx : x.toNat * 2 ^ lo + r < 2 ^ (lo + n) := by
    have := put_fits lo x
    rw [put] at this
    omega
  have top := low_eq_iff (v := w.toNat) (n := k) (x := 0) hx
  rw [zero_mul, zero_add] at top
  rw [top, Nat.add_sub_cancel_left, low_eq_iff hr, fld_eq_iff]

theorem low_eq_field {w : BitVec 32} {hi lo n : Nat} {x : BitVec n} (h : lo + n ≤ hi) :
    w.toNat % 2 ^ hi = x.toNat * 2 ^ lo ↔
      w.toNat / 2 ^ (lo + n) % 2 ^ (hi - (lo + n)) = 0 ∧ fld w lo n = x ∧ w.toNat % 2 ^ lo = 0 :=
  low_eq_field_add (r := 0) ⟨h, Nat.two_pow_pos lo⟩

/-- The last field of a word. -/
theorem low_eq_toNat {w : BitVec 32} {hi n : Nat} {x : BitVec n} (h : n ≤ hi) :
    w.toNat % 2 ^ hi = x.toNat ↔ w.toNat / 2 ^ n % 2 ^ (hi - n) = 0 ∧ fld w 0 n = x := by
  simpa [Nat.mod_one] using low_eq_field (w := w) (lo := 0) (x := x) (by simpa using h)

/-- The bits of a slot word below its opcode (07 R121). -/
def operandBits (w : BitVec 32) : Nat := w.toNat % 2 ^ 22

/-! ### Codes of operands -/

@[simp] theorem wcond_ofCode_code (a : WCond) : WCond.ofCode a.code = some a := by cases a <;> rfl

theorem wcond_ofCode_iff {x : BitVec 3} {a : WCond} : WCond.ofCode x = some a ↔ a.code = x := by
  cases a <;> (revert x; decide)

@[simp] theorem width_ofCode_code (a : Width) : Width.ofCode a.code = some a := by cases a <;> rfl

theorem width_ofCode_iff {x : BitVec 1} {a : Width} : Width.ofCode x = some a ↔ a.code = x := by
  cases a <;> (revert x; decide)

@[simp] theorem domain_ofCode_code (a : Domain) : Domain.ofCode a.code = some a := by cases a <;> rfl

theorem domain_ofCode_iff {x : BitVec 2} {a : Domain} : Domain.ofCode x = some a ↔ a.code = x := by
  cases a <;> (revert x; decide)

@[simp] theorem cond_ofCode_code (a : Cond) : Cond.ofCode a.code = some a := by cases a <;> rfl

theorem cond_ofCode_iff {x : BitVec 4} {a : Cond} : Cond.ofCode x = some a ↔ a.code = x := by
  cases a <;> (revert x; decide)

@[simp] theorem fcond_ofCode_code (a : FCond) : FCond.ofCode a.code = some a := by cases a <;> rfl

theorem fcond_ofCode_iff {x : BitVec 4} {a : FCond} : FCond.ofCode x = some a ↔ a.code = x := by
  cases a <;> (revert x; decide)

@[simp] theorem size_ofCode_code (a : Size) : Size.ofCode a.code = some a := by cases a <;> rfl

theorem size_ofCode_iff {x : BitVec 3} {a : Size} : Size.ofCode x = some a ↔ a.code = x := by
  cases a <;> (revert x; decide)

@[simp] theorem tdField_ofCode_code (a : TdField) : TdField.ofCode a.code = some a := by cases a <;> rfl

theorem tdField_ofCode_iff {x : BitVec 4} {a : TdField} : TdField.ofCode x = some a ↔ a.code = x := by
  cases a <;> (revert x; decide)

@[simp] theorem ty_ofCode_code (a : Ty) : Ty.ofCode a.code = some a := by cases a <;> rfl

theorem ty_ofCode_iff {x : BitVec 3} {a : Ty} : Ty.ofCode x = some a ↔ a.code = x := by
  cases a <;> (revert x; decide)

@[simp] theorem group_ofCode_code (a : Group) : Group.ofCode a.code = some a := by cases a <;> rfl

theorem group_ofCode_iff {x : BitVec 1} {a : Group} : Group.ofCode x = some a ↔ a.code = x := by
  cases a <;> (revert x; decide)

@[simp] theorem redOp_ofCode_code (a : RedOp) : RedOp.ofCode a.code = some a := by cases a <;> rfl

theorem redOp_ofCode_iff {x : BitVec 2} {a : RedOp} : RedOp.ofCode x = some a ↔ a.code = x := by
  cases a <;> (revert x; decide)

@[simp] theorem hint_ofCode_code (a : Hint) : Hint.ofCode a.code = some a := by cases a <;> rfl

theorem hint_ofCode_iff {x : BitVec 2} {a : Hint} : Hint.ofCode x = some a ↔ a.code = x := by
  cases a <;> (revert x; decide)

@[simp] theorem order_ofCode_code (a : Order) : Order.ofCode a.code = some a := by cases a <;> rfl

theorem order_ofCode_iff {x : BitVec 2} {a : Order} : Order.ofCode x = some a ↔ a.code = x := by
  cases a <;> (revert x; decide)

@[simp] theorem xw_ofCode_code (a : XW) : XW.ofCode a.code = some a := by cases a <;> rfl

theorem xw_ofCode_iff {x : BitVec 3} {a : XW} : XW.ofCode x = some a ↔ a.code = x := by
  cases a <;> (revert x; decide)

@[simp] theorem fmt_ofCode_code (a : Fmt) : Fmt.ofCode a.code = some a := by cases a <;> rfl

theorem fmt_ofCode_iff {x : BitVec 4} {a : Fmt} : Fmt.ofCode x = some a ↔ a.code = x := by
  cases a <;> (revert x; decide)

@[simp] theorem xround_ofCode_code (a : XRound) : XRound.ofCode a.code = some a := by cases a <;> rfl

theorem xround_ofCode_iff {x : BitVec 2} {a : XRound} : XRound.ofCode x = some a ↔ a.code = x := by
  cases a <;> (revert x; decide)

@[simp] theorem bty_ofCode_code (a : BTy) : BTy.ofCode a.code = some a := by cases a <;> rfl

theorem bty_ofCode_iff {x : BitVec 2} {a : BTy} : BTy.ofCode x = some a ↔ a.code = x := by
  cases a <;> (revert x; decide)

@[simp] theorem bfmt_ofCode_code (a : BFmt) : BFmt.ofCode a.code = some a := by cases a <;> rfl

theorem bfmt_ofCode_iff {x : BitVec 2} {a : BFmt} : BFmt.ofCode x = some a ↔ a.code = x := by
  cases a <;> (revert x; decide)

@[simp] theorem qmask_ofCode_code (q : QMask) : QMask.ofCode q.code = q := by
  obtain ⟨ca, cb, m, bank, dec⟩ := q
  cases ca <;> cases cb <;> cases m <;> cases bank <;> cases dec <;> rfl

@[simp] theorem qmask_code_ofCode (x : BitVec 5) : (QMask.ofCode x).code = x := by
  revert x; decide

/-! ### Rows of an opcode map -/

/-- What a row of an opcode map answers, if it answers an instruction, has the property. -/
def RowHas (P : Instr → Prop) (o : Option Instr) : Prop := ∀ i, o = some i → P i

variable {P : Instr → Prop} {w : BitVec 32} {o : Option Instr} {i : Instr}

theorem rowHas_none : RowHas P none := nofun

theorem rowHas_some : RowHas P (some i) ↔ P i := by simp [RowHas]

/-- A row with reserved bits: they are zero where it answers. -/
theorem rowHas_zero {lo n : Nat} : RowHas P (zero w lo n o) ↔ (w.toNat / 2 ^ lo % 2 ^ n = 0 → RowHas P o) := by
  rw [zero, fld_toNat]
  split
  · simp [*]
  · simp [*, rowHas_none]

/-- A row with a well-formed instruction alone. -/
theorem rowHas_ifWf : RowHas P (ifWf i) ↔ (i.wf = true → P i) := by
  unfold ifWf
  split
  · simp [*, rowHas_some]
  · simp [*, rowHas_none]

/-- A row with an operand that its code names. -/
theorem rowHas_bind {α : Type} {a : Option α} {f : α → Option Instr} : RowHas P (a.bind f) ↔ ∀ x, a = some x → RowHas P (f x) := by
  cases a <;> simp [rowHas_none]

theorem zero_of_zero {lo n : Nat} (h : w.toNat / 2 ^ lo % 2 ^ n = 0) : zero w lo n o = o := by
  rw [zero, fld_toNat, if_pos h]

theorem ifWf_of_wf (h : i.wf = true) : ifWf i = some i := if_pos h

end

end Sys2Proof.Proofs
end

section
/-! PROOFS. The opcode maps of the slots (07 R127 to R135): what they read from a word encodes as that word, and what the encoder writes is
read back. -/

namespace Sys2Proof.Proofs

open Sys2Proof Sys2Proof.Machine Sys2Proof.Laws

section

-- One lemma after another: in parallel they take a thread each.
set_option Elab.async false

/-! ### What a map reads encodes as the word -/

/-- The instruction is well-formed, and its encoding has the word's opcode and operand bits. -/
def EncodesAs (cls : SlotClass) (w : BitVec 32) (i : Instr) : Prop :=
  i.wf = true ∧ encodeOp i = some (cls, (opOf w).toNat, operandBits w)

theorem encodesAs_of {i : Instr} {cls : SlotClass} {w : BitVec 32} {op x : Nat} (hw : i.wf = true)
    (hi : encodeOp i = some (cls, op, x)) (ho : (opOf w).toNat = op) (hx : operandBits w = x) : EncodesAs cls w i :=
  ⟨hw, by rw [hi, ho, hx]⟩

/-- VCVT's second type stands above the first (07 R132). -/
theorem vcvt_field_order (a b r : Nat) : a * 2 ^ 1 + (b * 2 ^ 7 + r) = b * 2 ^ 7 + (a * 2 ^ 1 + r) := Nat.add_left_comm ..

theorem decodeK_encodesAs (w : BitVec 32) : RowHas (EncodesAs .k w) (decodeK w) := by
  unfold decodeK
  split <;> rename_i hop
  all_goals
    simp only [rowHas_none, rowHas_some, rowHas_zero, rowHas_bind, wcond_ofCode_iff, width_ofCode_iff, domain_ofCode_iff, pow_zero,
      Nat.div_one]
  all_goals
    intros
    refine encodesAs_of rfl rfl hop ?_
    simp (disch := omega) only [operandBits, put, add_assoc, low_eq_field_add, low_eq_field, low_eq_toNat, Nat.reduceAdd, Nat.reduceSub,
      pow_zero, Nat.mod_one, Nat.mul_one, and_self, ofBool_bit, qmask_code_ofCode, *]

theorem decodeS_encodesAs (w : BitVec 32) : RowHas (EncodesAs .s w) (decodeS w) := by
  unfold decodeS
  split <;> rename_i hop
  all_goals
    simp only [rowHas_none, rowHas_some, rowHas_zero, rowHas_bind, cond_ofCode_iff, fcond_ofCode_iff, size_ofCode_iff, tdField_ofCode_iff,
      pow_zero, Nat.div_one]
  all_goals
    intros
    refine encodesAs_of rfl rfl hop ?_
    simp (disch := omega) only [operandBits, put, add_assoc, low_eq_field_add, low_eq_field, low_eq_toNat, Nat.reduceAdd, Nat.reduceSub,
      pow_zero, Nat.mod_one, Nat.mul_one, and_self, *]

theorem decodeV_encodesAs (w : BitVec 32) : RowHas (EncodesAs .v w) (decodeV w) := by
  unfold decodeV
  split <;> rename_i hop
  all_goals
    simp only [rowHas_none, rowHas_some, rowHas_zero, rowHas_bind, ty_ofCode_iff, group_ofCode_iff, redOp_ofCode_iff, rowHas_ifWf,
      Instr.wf, pow_zero, Nat.div_one]
  all_goals
    intros
    refine encodesAs_of (by simp only [Instr.wf, *]) rfl hop ?_
    simp (disch := omega) only [operandBits, put, add_assoc, vcvt_field_order, low_eq_field_add, low_eq_field, low_eq_toNat,
      Nat.reduceAdd, Nat.reduceSub, pow_zero, Nat.mod_one, Nat.mul_one, and_self, ofBool_bit, *]

theorem decodeM_encodesAs (w : BitVec 32) : RowHas (EncodesAs .m w) (decodeM w) := by
  unfold decodeM
  split <;> rename_i hop
  all_goals
    simp only [rowHas_none, rowHas_some, rowHas_zero, pow_zero, Nat.div_one]
  all_goals
    intros
    refine encodesAs_of rfl rfl hop ?_
    simp (disch := omega) only [operandBits, put, add_assoc, low_eq_field_add, low_eq_field, Nat.reduceAdd, Nat.reduceSub, pow_zero,
      Nat.mod_one, and_self, ofBool_bit, *]

theorem decodeC_encodesAs (w : BitVec 32) : RowHas (EncodesAs .c w) (decodeC w) := by
  unfold decodeC
  split <;> rename_i hop
  all_goals
    simp only [rowHas_none, rowHas_some, rowHas_zero, rowHas_bind, hint_ofCode_iff, order_ofCode_iff, width_ofCode_iff, pow_zero,
      Nat.div_one]
  all_goals
    intros
    refine encodesAs_of rfl rfl hop ?_
    simp (disch := omega) only [operandBits, put, add_assoc, low_eq_field_add, low_eq_field, low_eq_toNat, Nat.reduceAdd, Nat.reduceSub,
      pow_zero, Nat.mod_one, Nat.mul_one, and_self, ofBool_bit, qmask_code_ofCode, *]

theorem decodeX_encodesAs (w : BitVec 32) : RowHas (EncodesAs .x w) (decodeX w) := by
  unfold decodeX
  split <;> rename_i hop
  all_goals
    simp only [rowHas_none, rowHas_some, rowHas_zero, rowHas_bind, xw_ofCode_iff, fmt_ofCode_iff, xround_ofCode_iff, rowHas_ifWf,
      Instr.wf, pow_zero, Nat.div_one]
  all_goals
    intros
    refine encodesAs_of (by simp only [Instr.wf, *]) rfl hop ?_
    simp (disch := omega) only [operandBits, put, add_assoc, low_eq_field_add, low_eq_field, low_eq_toNat, Nat.reduceAdd, Nat.reduceSub,
      pow_zero, Nat.mod_one, Nat.mul_one, and_self, ofBool_bit, *]

/-- What a slot class reads from a word encodes as the word. -/
theorem decodeOp_encodesAs {cls : SlotClass} {w : BitVec 32} {i : Instr} (h : decodeOp cls w = some i) : EncodesAs cls w i := by
  cases cls with
  | k => exact decodeK_encodesAs w i h
  | s => exact decodeS_encodesAs w i h
  | v => exact decodeV_encodesAs w i h
  | m => exact decodeM_encodesAs w i h
  | c => exact decodeC_encodesAs w i h
  | x => exact decodeX_encodesAs w i h

/-! ### What is encoded is read back -/

variable {i : Instr} {cls : SlotClass} {op x : Nat} {w : BitVec 32}

/-- Opcode and operand bits stay within their fields. -/
theorem encodeOp_lt (hi : encodeOp i = some (cls, op, x)) : op < 2 ^ 6 ∧ x < 2 ^ 22 := by
  cases i <;> cases hi
  all_goals
    exact ⟨by decide, by simp only [put, Nat.two_pow_pos] <;> omega⟩

theorem decodeK_of_encodeOp (hi : encodeOp i = some (.k, op, x)) (ho : (opOf w).toNat = op)
    (hx : operandBits w = x) : decodeK w = some i := by
  cases i <;> cases hi
  all_goals
    simp (disch := omega) only [operandBits, put, add_assoc, low_eq_field_add, low_eq_field, low_eq_toNat, Nat.reduceAdd, Nat.reduceSub,
      pow_zero, Nat.mod_one, Nat.mul_one, true_and, fld_eq_ofBool] at hx
    simp only [decodeK, ho, zero_of_zero, hx, pow_zero, Nat.div_one, wcond_ofCode_code, width_ofCode_code, domain_ofCode_code,
      Option.bind_some, qmask_ofCode_code]

/-- Arithmetic and logic (07 R129). -/
theorem decodeS_of_encodeOp_low (hi : encodeOp i = some (.s, op, x)) (hop : op < 0x1F) (ho : (opOf w).toNat = op)
    (hx : operandBits w = x) : decodeS w = some i := by
  cases i <;> cases hi <;> simp only [Nat.reduceLT] at hop
  all_goals
    simp (disch := omega) only [operandBits, put, add_assoc, low_eq_field_add, low_eq_field, low_eq_toNat, Nat.reduceAdd, Nat.reduceSub,
      pow_zero, Nat.mod_one, Nat.mul_one, true_and] at hx
    simp only [decodeS, ho, zero_of_zero, hx, pow_zero, Nat.div_one]

/-- Compares, predicates, memory, moves and floats (07 R129). -/
theorem decodeS_of_encodeOp_high (hi : encodeOp i = some (.s, op, x)) (hop : 0x1F ≤ op) (ho : (opOf w).toNat = op)
    (hx : operandBits w = x) : decodeS w = some i := by
  cases i <;> cases hi <;> simp only [Nat.reduceLeDiff] at hop
  all_goals
    simp (disch := omega) only [operandBits, put, add_assoc, low_eq_field_add, low_eq_field, low_eq_toNat, Nat.reduceAdd, Nat.reduceSub,
      pow_zero, Nat.mod_one, Nat.mul_one, true_and] at hx
    simp only [decodeS, ho, zero_of_zero, hx, pow_zero, Nat.div_one, cond_ofCode_code, fcond_ofCode_code, size_ofCode_code,
      tdField_ofCode_code, Option.bind_some]

theorem decodeV_of_encodeOp (hi : encodeOp i = some (.v, op, x)) (hw : i.wf = true) (ho : (opOf w).toNat = op)
    (hx : operandBits w = x) : decodeV w = some i := by
  cases i <;> cases hi
  all_goals
    simp (disch := omega) only [operandBits, put, add_assoc, vcvt_field_order, low_eq_field_add, low_eq_field, low_eq_toNat,
      Nat.reduceAdd, Nat.reduceSub, pow_zero, Nat.mod_one, Nat.mul_one, true_and, fld_eq_ofBool] at hx
    simp only [decodeV, ho, zero_of_zero, ifWf_of_wf hw, hx, pow_zero, Nat.div_one, ty_ofCode_code, group_ofCode_code, redOp_ofCode_code,
      Option.bind_some]

theorem decodeM_of_encodeOp (hi : encodeOp i = some (.m, op, x)) (ho : (opOf w).toNat = op)
    (hx : operandBits w = x) : decodeM w = some i := by
  cases i <;> cases hi
  all_goals
    simp (disch := omega) only [operandBits, put, add_assoc, low_eq_field_add, low_eq_field, Nat.reduceAdd, Nat.reduceSub, pow_zero,
      Nat.mod_one, true_and, fld_eq_ofBool] at hx
    simp only [decodeM, ho, zero_of_zero, hx, pow_zero, Nat.div_one]

theorem decodeC_of_encodeOp (hi : encodeOp i = some (.c, op, x)) (ho : (opOf w).toNat = op)
    (hx : operandBits w = x) : decodeC w = some i := by
  cases i <;> cases hi
  all_goals
    simp (disch := omega) only [operandBits, put, add_assoc, low_eq_field_add, low_eq_field, low_eq_toNat, Nat.reduceAdd, Nat.reduceSub,
      pow_zero, Nat.mod_one, Nat.mul_one, true_and, fld_eq_ofBool] at hx
    simp only [decodeC, ho, zero_of_zero, hx, pow_zero, Nat.div_one, hint_ofCode_code, order_ofCode_code, width_ofCode_code,
      Option.bind_some, qmask_ofCode_code]

theorem decodeX_of_encodeOp (hi : encodeOp i = some (.x, op, x)) (hw : i.wf = true) (ho : (opOf w).toNat = op)
    (hx : operandBits w = x) : decodeX w = some i := by
  cases i <;> cases hi
  all_goals
    simp (disch := omega) only [operandBits, put, add_assoc, low_eq_field_add, low_eq_field, low_eq_toNat, Nat.reduceAdd, Nat.reduceSub,
      pow_zero, Nat.mod_one, Nat.mul_one, true_and, fld_eq_ofBool] at hx
    simp only [decodeX, ho, zero_of_zero, ifWf_of_wf hw, hx, pow_zero, Nat.div_one, xw_ofCode_code, fmt_ofCode_code, xround_ofCode_code,
      Option.bind_some]

/-- A word with the opcode and the operand bits of a well-formed instruction is read as that instruction. -/
theorem decodeOp_of_encodeOp (hi : encodeOp i = some (cls, op, x)) (hw : i.wf = true) (ho : (opOf w).toNat = op)
    (hx : operandBits w = x) : decodeOp cls w = some i := by
  cases cls with
  | k => exact decodeK_of_encodeOp hi ho hx
  | s => exact (lt_or_ge op 0x1F).elim (decodeS_of_encodeOp_low hi · ho hx) (decodeS_of_encodeOp_high hi · ho hx)
  | v => exact decodeV_of_encodeOp hi hw ho hx
  | m => exact decodeM_of_encodeOp hi ho hx
  | c => exact decodeC_of_encodeOp hi ho hx
  | x => exact decodeX_of_encodeOp hi hw ho hx

end

end Sys2Proof.Proofs
end

section
/-! PROOFS. Words and their encodings (07 R121 to R124; 14 R292): slot words, Crisum words and the words of the tables, O52, O53 and O54. -/

namespace Sys2Proof.Proofs

open Sys2Proof Sys2Proof.Machine Sys2Proof.Laws

section

-- One lemma after another: in parallel they take a thread each.
set_option Elab.async false

variable {g : BitVec 4} {w : BitVec 32} {i : Instr} {cls : SlotClass} {op x : Nat}

/-! ### Slot words -/

/-- A slot word is its guard, its opcode and its operand bits (07 R121). -/
theorem toNat_eq_fields (w : BitVec 32) : w.toNat = put 28 (guardOf w) + (opOf w).toNat * 2 ^ 22 + operandBits w := by
  have := w.isLt
  simp only [put, guardOf, opOf, operandBits, fld_toNat]
  omega

theorem slotWord_fields (ho : op < 2 ^ 6) (hx : x < 2 ^ 22) (hw : BitVec.ofNat 32 (put 28 g + op * 2 ^ 22 + x) = w) :
    guardOf w = g ∧ (opOf w).toNat = op ∧ operandBits w = x := by
  have hg := g.isLt
  subst hw
  simp only [guardOf, opOf, operandBits, fld_eq_iff, fld_toNat, put, BitVec.toNat_ofNat]
  omega

/-- NOP has no opcode. -/
theorem encodeOp_ne_nop (hi : encodeOp i = some (cls, op, x)) : i ≠ .nop := by
  rintro rfl
  cases hi

theorem encodeSlot_eq (g : BitVec 4) (hi : encodeOp i = some (cls, op, x)) :
    encodeSlot g i = some (BitVec.ofNat 32 (put 28 g + op * 2 ^ 22 + x)) := by
  have h : encodeSlot g i = (encodeOp i).map fun (_, op, rest) => BitVec.ofNat 32 (put 28 g + op * 2 ^ 22 + rest) := by
    cases i
    case nop => exact absurd rfl (encodeOp_ne_nop hi)
    all_goals rfl
  rw [h, hi]
  rfl

/-- No slot class assigns opcode 0. -/
theorem decodeOp_zero (cls : SlotClass) : decodeOp cls 0 = none := by
  cases cls <;> rfl

theorem decodeSlot_of_decodeOp (h : decodeOp cls w = some i) : decodeSlot cls w = i := by
  have hw : w.toNat ≠ 0 := by
    intro h0
    rw [BitVec.eq_of_toNat_eq (y := 0) h0, decodeOp_zero] at h
    cases h
  rw [decodeSlot, if_neg hw, h, Option.getD_some]

/-! ### Crisum words -/

theorem encodesCrisum_of (hi : encodeCrisum i = some (BitVec.ofNat 32 x)) (hx : w.toNat = x) : encodeCrisum i = some w := by
  rw [hi, ← hx, BitVec.ofNat_toNat, BitVec.setWidth_eq]

/-- What an engine reads from a word encodes as the word. -/
theorem decodeCrisumCore_encodes (w : BitVec 32) : RowHas (fun i => encodeCrisum i = some w) (decodeCrisumCore w) := by
  have hw := w.isLt
  unfold decodeCrisumCore
  split <;> rename_i hop
  case h_2 =>
    split <;> rename_i hform
    all_goals
      simp only [rowHas_zero, rowHas_some, rowHas_none]
    all_goals
      intros
      refine encodesCrisum_of rfl ?_
      simp only [put, fld_toNat] at *
      omega
  case h_6 =>
    split <;> rename_i hform
    all_goals
      simp only [rowHas_zero, rowHas_some]
      intros
      refine encodesCrisum_of rfl ?_
      simp only [put, fld_toNat, bit, BitVec.getLsbD, Nat.testBit_eq_decide_div_mod_eq, decide_eq_true_eq] at *
      omega
  all_goals
    simp only [rowHas_zero, rowHas_bind, rowHas_some, rowHas_none, bty_ofCode_iff, bfmt_ofCode_iff]
  all_goals
    intros
    refine encodesCrisum_of rfl ?_
    simp only [put, fld_toNat, *] at *
    omega

/-- The bits of a Crisum word below its command (14 R292). -/
def commandBits (w : BitVec 32) : Nat := w.toNat % 2 ^ 27

theorem crisumWord_eq_add (h : op < 2 ^ 5 ∧ x < 2 ^ 27) :
    BitVec.ofNat 32 (op * 2 ^ 27 + x) = w ↔ (fld w 27 5).toNat = op ∧ commandBits w = x := by
  have := w.isLt
  rw [← BitVec.toNat_inj, BitVec.toNat_ofNat, fld_toNat, commandBits]
  omega

theorem crisumWord_eq (h : op < 2 ^ 5) : BitVec.ofNat 32 (op * 2 ^ 27) = w ↔ (fld w 27 5).toNat = op ∧ commandBits w = 0 := by
  rw [← crisumWord_eq_add ⟨h, Nat.two_pow_pos 27⟩, add_zero]

/-- BSETR's form stands below its register (14 R292). -/
theorem bsetr_fields {form : Nat} {imm : BitVec 16} (hf : form < 4)
    (h : commandBits w = form * 2 ^ 21 + (g.toNat * 2 ^ 23 + imm.toNat)) :
    (fld w 21 2).toNat = form ∧ w.toNat / 2 ^ 16 % 2 ^ 5 = 0 ∧ fld w 23 4 = g ∧ fld w 0 16 = imm := by
  have := imm.isLt
  simp only [fld_eq_iff, fld_toNat]
  rw [commandBits] at h
  omega

/-- BRED's form stands below its sets (14 R292). -/
theorem bred_fields {tree : Bool} {d s : BitVec 2} (h : commandBits w = tree.toNat * 2 ^ 22 + (d.toNat * 2 ^ 25 + s.toNat * 2 ^ 23)) :
    bit w 22 = tree ∧ w.toNat % 2 ^ 22 = 0 ∧ fld w 25 2 = d ∧ w.toNat / 2 ^ 23 % 2 ^ 2 = s.toNat := by
  have ht := tree.toNat_lt
  rw [← fld_eq_ofBool]
  simp only [fld_eq_iff, BitVec.toNat_ofBool]
  rw [commandBits] at h
  omega

/-- A Crisum word is read back as its command. -/
theorem decodeCrisumCore_of_encode {w' : BitVec 32} (h : encodeCrisum i = some w') (hw : w' = w) : decodeCrisumCore w = some i := by
  cases i <;> cases h
  all_goals
    simp (disch := omega) only [put, add_assoc, crisumWord_eq_add, crisumWord_eq, pow_zero, Nat.mul_one] at hw
    obtain ⟨hop, hx⟩ := hw
    simp only [decodeCrisumCore, hop]
  case bsetrLo.refl g imm =>
    obtain ⟨hf, hz, hg, hi⟩ := bsetr_fields (g := g) (imm := imm) (form := 0) (by decide) (by rw [hx, zero_mul, zero_add])
    simp only [hf, zero_of_zero hz, hg, hi]
  case bsetrHi.refl =>
    obtain ⟨hf, hz, hg, hi⟩ := bsetr_fields (by decide) hx
    simp only [hf, zero_of_zero hz, hg, hi]
  case bsetrAdd.refl =>
    obtain ⟨hf, hz, hg, hi⟩ := bsetr_fields (by decide) hx
    simp only [hf, zero_of_zero hz, hg, hi]
  case bred.refl d s =>
    obtain ⟨ht, hz, hd, hs⟩ := bred_fields (tree := false) (d := d) (s := s) (by rw [hx, Bool.toNat_false, zero_mul, zero_add])
    have hs' : fld w 23 2 = s := fld_eq_iff.2 hs
    simp only [ht, zero_of_zero, hz, hd, hs', pow_zero, Nat.div_one, Bool.false_eq_true, if_false]
  case bredTree.refl d =>
    obtain ⟨ht, hz, hd, hs⟩ := bred_fields (tree := true) (d := d) (s := 0#2)
      (by rw [hx, Bool.toNat_true, BitVec.toNat_zero, zero_mul, add_zero])
    simp only [ht, zero_of_zero hs, zero_of_zero, hz, hd, pow_zero, Nat.div_one, if_true]
  all_goals
    simp (disch := omega) only [commandBits, low_eq_field_add, low_eq_field, Nat.reduceAdd, Nat.reduceSub, pow_zero,
      Nat.mod_one, true_and] at hx
    simp only [zero_of_zero, hx, pow_zero, Nat.div_one, bty_ofCode_code, bfmt_ofCode_code, Option.bind_some]

/-! ### The obligations -/

/-- Settles O52: a slot word keeps guard, opcode and operand bits apart, and from those its map reads the instruction back; a Crisum word
is read back as its command. -/
theorem instructionsDecodeBack : Obligations.InstructionsDecodeBack := by
  intro g i hwf
  refine ⟨fun cls op x w hi hw => ?_, fun w hw => ?_, fun cls op x hi => ⟨_, encodeSlot_eq g hi⟩⟩
  · rw [encodeSlot_eq g hi, Option.some.injEq] at hw
    obtain ⟨hop, hx⟩ := encodeOp_lt hi
    obtain ⟨hg, ho, hb⟩ := slotWord_fields hop hx hw
    exact ⟨decodeSlot_of_decodeOp (decodeOp_of_encodeOp hi hwf ho hb), hg⟩
  · rw [decodeCrisum, decodeCrisumCore_of_encode hw rfl, Option.getD_some]

/-- Settles O53: what a map reads has the word's opcode and operand bits for its encoding, and with the guard these are the word. -/
theorem wordsEncodeBack : Obligations.WordsEncodeBack := by
  intro cls w i
  refine ⟨fun h => ?_, decodeCrisumCore_encodes w i⟩
  obtain ⟨hwf, hi⟩ := decodeOp_encodesAs h
  refine ⟨hwf, ?_, _, _, hi⟩
  rw [encodeSlot_eq _ hi, ← toNat_eq_fields, BitVec.ofNat_toNat, BitVec.setWidth_eq]

theorem decodeM_unassigned (h : (opOf w).toNat = 0x2F) : decodeM w = none := by
  simp only [decodeM, h]

theorem decodeSlot_of_none (hw : w.toNat ≠ 0) (h : decodeOp cls w = none) : decodeSlot cls w = .nonInstruction cls w := by
  rw [decodeSlot, if_neg hw, h, Option.getD_none]

/-- Settles O54: each word of the tables is read field by field, the zero word comes before every map, and opcode 0x2F is no row of the M
slot's. -/
theorem wordsOfTheTablesDecode : Obligations.WordsOfTheTablesDecode := by
  refine ⟨rfl, rfl, rfl, rfl, rfl, rfl, rfl, fun _ => rfl, fun w h => ?_⟩
  refine decodeSlot_of_none (fun h0 => ?_) (decodeM_unassigned ((fld_toNat w 22 6).trans h))
  rw [h0] at h
  cases h

end

end Sys2Proof.Proofs
end

section
/-! PROOFS. Privileged instructions in user mode (07 R124; 19 R341, R351): PRIV is raised with the slot word, whatever else they meet, O19. -/

namespace Sys2Proof.Proofs

open Sys2Proof Sys2Proof.Machine Sys2Proof.Laws

/-! ### PRIV comes before every check but ILLEGAL (07 R125) -/

theorem pickRaise_forall {p : Raise → Prop} {l : List (Option Raise)} (h : ∀ o ∈ l, ∀ x ∈ o, p x) : ∀ x ∈ pickRaise l, p x := by
  have step (best : Option Raise) (hb : ∀ x ∈ best, p x) : ∀ x ∈ l.foldl (fun best r =>
      match best, r with
      | none, r => r
      | best, none => best
      | some b, some r => if r.rank < b.rank then some r else some b) best, p x := by
    induction l generalizing best with
    | nil => exact hb
    | cons o l ih =>
      obtain ⟨ho, hl⟩ := List.forall_mem_cons.1 h
      refine ih hl _ ?_
      cases best <;> cases o <;> simp_all
      split <;> simp_all
  exact step none nofun

theorem privCheck_user {s : State} (h : s.me.sys.mode = false) : s.privCheck = some s.priv := by
  rw [State.privCheck, h, Bool.not_false, failIf_true]

/-- In user mode PRIV is raised where no later check is ILLEGAL. -/
theorem pickRaise_user {s : State} {l : List (Option Raise)} (h : s.me.sys.mode = false) (hl : ∀ o ∈ l, ∀ x ∈ o, 1 ≤ x.rank) :
    pickRaise (s.privCheck :: l) = some s.priv := by
  rw [privCheck_user h]
  exact pickRaise_cons_some hl

theorem vwinCheck_rank (s : State) (l : List Nat) : ∀ x ∈ s.vwinCheck l, x.rank = 2 := by
  intro x hx
  obtain ⟨n, -, rfl⟩ := Option.map_eq_some_iff.1 hx
  rfl

theorem tdCheck_rank (s : State) (i : BitVec 6) (spaces : List Nat) : ∀ x ∈ s.tdCheck i spaces, 1 ≤ x.rank := by
  intro x hx
  simp only [State.tdCheck] at hx
  split at hx
  · cases hx
    exact Nat.le_refl 1
  split at hx
  · cases hx
    exact Nat.le_of_ble_eq_true rfl
  split at hx
  · rw [vwinCheck_rank s _ x hx]
    exact Nat.le_succ 1
  · cases hx

theorem slotTrap_rank (s : State) (i : BitVec 6) : ∀ x ∈ s.slotTrap i, 1 ≤ x.rank := by
  intro x hx
  simp only [State.slotTrap] at hx
  split at hx
  · obtain ⟨n, -, rfl⟩ := Option.map_eq_some_iff.1 hx
    exact Nat.le_of_ble_eq_true rfl
  · cases hx

theorem failIf_tdesc_rank (b : Bool) (i : BitVec 6) : ∀ x ∈ failIf b (tdescTrap i), 1 ≤ x.rank := by
  intro x hx
  rw [failIf_rank (n := 3) rfl x hx]
  decide

theorem trapCopy_rank (s : State) (d src : BitVec 6) (dests sources : List Nat) : ∀ x ∈ s.trapCopy d src dests sources, 1 ≤ x.rank := by
  refine pickRaise_forall ?_
  simp only [List.forall_mem_cons, List.not_mem_nil, false_imp_iff, implies_true, and_true]
  exact ⟨tdCheck_rank s src sources, tdCheck_rank s d dests, failIf_tdesc_rank _ d, slotTrap_rank s d⟩

theorem scmChecks_user {s : State} {d src : BitVec 6} {dests sources : List Nat} (h : s.me.sys.mode = false) :
    pickRaise [s.privCheck, s.trapCopy d src dests sources, s.trapScm d src] = some s.priv := by
  refine pickRaise_user h ?_
  simp only [List.forall_mem_cons, List.not_mem_nil, false_imp_iff, implies_true, and_true]
  exact ⟨trapCopy_rank s d src dests sources, failIf_tdesc_rank _ d⟩

/-! ### The checks of the privileged instructions -/

theorem trapRte_user {s : State} (h : s.me.sys.mode = false) : s.trapRte = some s.priv := by
  rw [State.trapRte, h, Bool.false_and, failIf_false, pickRaise_user h (by simp)]

theorem trapPfack_user {s : State} (h : s.me.sys.mode = false) : s.trapPfack = some s.priv := by
  rw [State.trapPfack, h, Bool.false_and, failIf_false, pickRaise_user h (by simp)]

theorem trapSysReg_user {s : State} (index : BitVec 17) (h : s.me.sys.mode = false) : s.trapSysReg index = some s.priv := by
  rw [State.trapSysReg, h]
  rfl

theorem xinvChecks_user {s : State} (a : BitVec 5) (h : s.me.sys.mode = false) :
    pickRaise [s.privCheck, s.trapXinv a] = some s.priv := by
  refine pickRaise_user h ?_
  simp only [List.forall_mem_cons, List.not_mem_nil, false_imp_iff, implies_true, and_true]
  intro x hx
  rw [failIf_rank (n := 3) rfl x hx]
  decide

/-- What raises PRIV does nothing else. -/
theorem orRaise_priv {s : State} {o : Option Raise} (f : State → State) (h : o = some s.priv) :
    (.next (s.orRaise o f) : Host.Outcome State Fault Refusal) = .next (s.raise (.trap 0x02 (s.curWord.setWidth 64) 0)) := by
  rw [h, orRaise_some]
  rfl

/-- Settles O19: in user mode the first check of each privileged instruction is PRIV, and none of its others is ILLEGAL. -/
theorem privilegedInstructionsNeedTheMode : Obligations.PrivilegedInstructionsNeedTheMode := by
  intro s a b d e index h
  exact ⟨orRaise_priv _ (trapRte_user h), orRaise_priv _ (trapSysReg_user index h), orRaise_priv _ (trapSysReg_user index h),
    orRaise_priv _ (privCheck_user h), orRaise_priv _ (trapPfack_user h), orRaise_priv _ (xinvChecks_user a h),
    orRaise_priv _ (privCheck_user h), orRaise_priv _ (privCheck_user h), orRaise_priv _ (scmChecks_user h),
    orRaise_priv _ (scmChecks_user h)⟩

end Sys2Proof.Proofs
end

section
/-! PROOFS. The issue of a bundle of one instruction (07 R120, R122, R140; 08 R148): from the agenda over the fetch and the checks to the
meaning of the instruction, O56. -/

namespace Sys2Proof.Proofs

open Sys2Proof Sys2Proof.Machine Sys2Proof.Laws

theorem act_issue_powered {s : State} (x : Meaning) (c : CoreId) (h : s.powered = true) : s.act x (.issue c) = s.issue x c := if_pos h

/-- The state in which a core's next sc begins. -/
def issuingAt (s : State) (c : CoreId) : State :=
  { s with cur := c, curSlot := .k, curWord := 0, now := max s.now (s.core c).tick, trial := false, met := none }

theorem issue_running {s : State} (x : Meaning) {c : CoreId} (hs : (issuingAt s c).me.shed = false)
    (hr : (issuingAt s c).runSpawns.me.status = .running) : s.issue x c = (issuingAt s c).runSpawns.runCore x := by
  simp only [issuingAt] at hs hr ⊢
  simp only [State.issue, hs, hr, Bool.false_eq_true, if_false]

theorem runCore_issues {s t : State} (x : Meaning) {b : BitVec 256} (hb : s.boundary = none) (he : s.me.exhausted = false)
    (hf : s.fetchBundle = .ok (t, b)) (hv : (vectorBundle b && !t.me.vecAligned) = false) (hk : t.skippable b = false) :
    s.runCore x = t.issueBundle x b := by
  simp only [State.runCore, hb, he, hf, hv, hk, Bool.false_eq_true, if_false]

theorem runSlots_singleton {s : State} (x : Meaning) (b : BitVec 256) (sw : SlotWord) (h : s.me.status ≠ .idle) :
    runSlots x b [sw] s = x sw.instr (s.atSlot b sw) := by
  rw [runSlots, if_neg (by simpa using h)]
  cases x sw.instr (s.atSlot b sw) <;> rfl

/-- What remains of a bundle once its slots have executed: its end. -/
def bundleEnded : Host.Outcome State Fault Refusal → Host.Outcome State Fault Refusal
  | .next u => .next (u.endBundle none)
  | .fault f => .fault f
  | .refused r => .refused r

/-- A bundle of one instruction whose guard is true, and which nothing holds back or traps, executes and ends. -/
theorem issueBundle_singleton {t : State} (x : Meaning) {b : BitVec 256} {sw : SlotWord} (hu : t.me.takesUp = none)
    (hw : bundleSlots b = [sw]) (hg : t.me.rp sw.guard = true) :
    let pre := t.modMe fun c => c.issued none
    pre.earlyTrap x b [sw] = none → t.heldBack [sw] = false → (pre.trySlots x b [sw]).2 = none →
    (pre.withoutThreshold.trySlots x b [sw]).2 = none → t.me.hsetMissing [sw] = none →
    (pre.trySlots x b [sw]).1.me.overfull = false → t.me.bundleMissing (pre.trySlots x b [sw]).1.me = none → pre.me.status ≠ .idle →
    t.issueBundle x b = bundleEnded (x sw.instr (pre.atSlot b sw)) := by
  intro pre he hh hm hm' hs ho hl hi
  have hlive : [sw].filter (fun sw => t.me.rp sw.guard) = [sw] := by simp [hg]
  have hearly : [sw].filter (fun sw => t.me.rp sw.guard || t.trapsAnyway sw.instr) = [sw] := by simp [hg]
  simp only [State.issueBundle, hu, hw, Option.isNone_none, Bool.true_or, List.filter_true, hlive, hearly]
  simp only [show (t.modMe fun c => c.issued none) = pre from rfl, he, hh, hm, hm', hs, ho, hl, runSlots_singleton x b sw hi,
    Option.orElse_none, Bool.false_eq_true, if_false]
  rfl

/-- Settles O56: the core's issue passes the boundary and the fetch, and a bundle of one instruction is that instruction's meaning and
the end of the bundle. -/
theorem stepIssuesTheBundle : Obligations.StepIssuesTheBundle := by
  intro s t rest c b sw hp ha s1 s0 pre hshed hrun hb he hf hv hi hu hk hw hg het hh hm hm' hs ho hl
  have hs1 : issuingAt { s with agenda := rest } c = s1 := rfl
  calc step s = { s with agenda := rest }.act exec (.issue c) := step_cons ha
    _ = { s with agenda := rest }.issue exec c := act_issue_powered (s := { s with agenda := rest }) exec c hp
    _ = s0.runCore exec := issue_running exec (hs1 ▸ hshed) (hs1 ▸ hrun)
    _ = t.issueBundle exec b := runCore_issues exec hb he hf hv hk
    _ = bundleEnded (exec sw.instr (pre.atSlot b sw)) := issueBundle_singleton exec hu hw hg het hh hm hm' hs ho hl hi

end Sys2Proof.Proofs
end

section
/-! PROOFS. What is taken at a boundary before a bundle issues: the nullifier (07 R136-R138), asynchronous traps and their order
(19 R344, R347) and the PFW handler's budget (19 R352), parts of O39. -/

namespace Sys2Proof.Proofs

open Sys2Proof Sys2Proof.Machine Sys2Proof.Laws

/-! ### The nullifier -/

theorem skipBundle_eq (t : State) :
    t.skipBundle = (let u := t.withMe { t.me.pass with skipRun := t.me.skipRun + 1 }
      if 4 < u.me.skipRun ∧ u.me.skipRun % 4 = 1 then u.tick u.cur else u) := rfl

/-- Nothing else is taken at the boundary, and the nullifier judges the bundle at the pc (22 R381, R388). -/
def NullifierFree (s : State) : Prop :=
  s.me.status = .running ∧ s.me.shed = false ∧ s.boundary = none ∧ s.me.exhausted = false

theorem nullifierFree_iff (s : State) :
    (s.me.status == .running && !s.me.shed && s.boundary.isNone && !s.me.exhausted) = true ↔ NullifierFree s := by
  simp [NullifierFree, and_assoc]

theorem execNullifierSkip_free {s t : State} {b : BitVec 256} (h : NullifierFree s) (hf : s.fetchBundle = .ok (t, b)) :
    execNullifierSkip s = .next (if !(vectorBundle b && !s.me.vecAligned) && t.skippable b then t.skipBundle else s) := by
  simp only [execNullifierSkip, if_pos ((nullifierFree_iff s).2 h), hf]

theorem execNullifierSkip_held {s : State} (h : ¬ NullifierFree s) : execNullifierSkip s = .next s := by
  rw [execNullifierSkip, if_neg (mt (nullifierFree_iff s).1 h)]

/-- A vector bundle outside the first sc of a vector cycle does not issue in this sc, and is not skipped (22 R381). -/
theorem execNullifierSkip_unaligned {s t : State} {b : BitVec 256} (hf : s.fetchBundle = .ok (t, b)) (hv : vectorBundle b = true)
    (ha : s.me.vecAligned = false) : execNullifierSkip s = .next s := by
  by_cases h : NullifierFree s
  · rw [execNullifierSkip_free h hf, hv, ha, if_neg (by simp)]
  · exact execNullifierSkip_held h

theorem trapsAnyway_eq_false_iff (s : State) (i : Instr) :
    s.trapsAnyway i = false ↔ (∀ cls w, i ≠ .nonInstruction cls w) ∧ (s.me.sys.mode = false → Instr.privileged i = false) := by
  unfold State.trapsAnyway
  split
  · simp
  · next i hi =>
    simp only [Bool.and_eq_false_iff, Bool.not_eq_false']
    constructor
    · exact fun h => ⟨hi, fun hm => h.resolve_right (by simp [hm])⟩
    · intro ⟨_, h⟩
      cases hm : s.me.sys.mode with
      | true => exact .inr rfl
      | false => exact .inl (h hm)

theorem skippable_iff (t : State) (b : BitVec 256) :
    t.skippable b = true ↔ t.me.kept ≠ some t.me.pc ∧ bundleSlots b ≠ [] ∧ ∀ sw ∈ bundleSlots b,
      sw.guard ≠ 0 ∧ t.me.pPrev[sw.guard.toNat] = false ∧ (∀ cls w, sw.instr ≠ .nonInstruction cls w) ∧
      (t.me.sys.mode = false → Instr.privileged sw.instr = false) := by
  simp only [State.skippable, Bool.and_eq_true, List.all_eq_true, bne_iff_ne, Bool.not_eq_true', List.isEmpty_eq_false_iff,
    trapsAnyway_eq_false_iff, and_assoc]

theorem vectorBundle_iff (b : BitVec 256) :
    vectorBundle b = true ↔ ∃ sw ∈ bundleSlots b, sw.slot = .va ∨ sw.slot = .vb ∨ sw.slot = .x := by
  simp only [vectorBundle, List.any_eq_true, Bool.or_eq_true, beq_iff_eq, or_assoc]

theorem pass_of_takesUp_none {x : Core} (h : x.takesUp = none) : x.pass = x.advance := by
  rw [Core.pass, h]

theorem nullifierSkips : NullifierSkips := by
  intro s t b l free due u
  refine ⟨fun ⟨hfree, hf, hv⟩ hs => ?_, fun ⟨hfree, hf, hv⟩ hs => ?_, execNullifierSkip_held, execNullifierSkip_unaligned,
    skippable_iff t b, vectorBundle_iff b, pass_of_takesUp_none⟩
  · have issues : (!(vectorBundle b && !s.me.vecAligned) && t.skippable b) = true := by
      cases hb : vectorBundle b with
      | false => simp [hs]
      | true => simp [hs, hv hb]
    exact (execNullifierSkip_free hfree hf).trans (by rw [if_pos issues, skipBundle_eq])
  · exact (execNullifierSkip_free hfree hf).trans (by rw [hs, Bool.and_false, if_neg Bool.false_ne_true])

/-! ### The order of asynchronous traps (19 R344) -/

theorem before_iff (a b : AsyncTrap) : a.before b = true ↔ (b.cause = 0x14 → a.cause = 0x14) ∧
    ((a.cause = 0x14 ↔ b.cause = 0x14) → a.since ≤ b.since ∧ (a.since = b.since → a.cause ≤ b.cause)) := by
  by_cases ha : a.cause = 0x14 <;> by_cases hb : b.cause = 0x14 <;> simp [AsyncTrap.before, ha, hb] <;> omega

theorem before_refl (a : AsyncTrap) : a.before a = true := by
  simp [before_iff]

theorem before_trans {a b c : AsyncTrap} (hab : a.before b = true) (hbc : b.before c = true) : a.before c = true := by
  rw [before_iff] at *
  omega

theorem before_of_not {a b : AsyncTrap} (h : ¬ a.before b = true) : b.before a = true := by
  rw [before_iff] at *
  omega

/-- The choice between the best trap so far and the next one. -/
def firstTrap (best : Option AsyncTrap) (a : AsyncTrap) : Option AsyncTrap :=
  match best with
  | none => some a
  | some b => if b.before a then some b else some a

theorem nextAsync_eq_foldl (y : Sys) : y.nextAsync = (y.asyncs.filter y.mayTake).foldl firstTrap none := rfl

theorem foldl_firstTrap_some (l : List AsyncTrap) (x : AsyncTrap) :
    ∃ a, l.foldl firstTrap (some x) = some a ∧ a ∈ x :: l ∧ ∀ b ∈ x :: l, a.before b = true := by
  induction l generalizing x with
  | nil => exact ⟨x, rfl, List.mem_singleton_self x, by simp [before_refl]⟩
  | cons y l ih =>
    by_cases h : x.before y = true
    · obtain ⟨a, ha, hmem, hmin⟩ := ih x
      have hax := hmin x List.mem_cons_self
      refine ⟨a, by rw [List.foldl_cons, firstTrap, if_pos h, ha], ?_, ?_⟩
      · simp only [List.mem_cons] at hmem ⊢
        tauto
      · simp only [List.forall_mem_cons] at hmin ⊢
        exact ⟨hax, before_trans hax h, hmin.2⟩
    · obtain ⟨a, ha, hmem, hmin⟩ := ih y
      have hay := hmin y List.mem_cons_self
      refine ⟨a, by rw [List.foldl_cons, firstTrap, if_neg h, ha], List.mem_cons_of_mem x hmem, ?_⟩
      exact List.forall_mem_cons.2 ⟨before_trans hay (before_of_not h), hmin⟩

theorem nextAsync_some {y : Sys} {a : AsyncTrap} (h : y.nextAsync = some a) :
    a ∈ y.asyncs.filter y.mayTake ∧ ∀ b ∈ y.asyncs.filter y.mayTake, a.before b = true := by
  rw [nextAsync_eq_foldl] at h
  cases hl : y.asyncs.filter y.mayTake with
  | nil => simp [hl] at h
  | cons x l =>
    obtain ⟨a', ha', hmem, hmin⟩ := foldl_firstTrap_some l x
    rw [hl, List.foldl_cons, firstTrap, ha', Option.some_inj] at h
    exact h ▸ ⟨hmem, hmin⟩

theorem nextAsync_none {y : Sys} (h : y.nextAsync = none) : y.asyncs.filter y.mayTake = [] := by
  rw [nextAsync_eq_foldl] at h
  cases hl : y.asyncs.filter y.mayTake with
  | nil => rfl
  | cons x l =>
    obtain ⟨a, ha, -⟩ := foldl_firstTrap_some l x
    rw [hl, List.foldl_cons, firstTrap, ha] at h
    cases h

theorem mayTake_iff (y : Sys) (a : AsyncTrap) :
    y.mayTake a = true ↔ if a.cause = 0x14 then y.sh = false ∨ 512 ≤ y.held else y.sh = false ∧ y.uh = false := by
  by_cases h : a.cause = 0x14 <;> simp [Sys.mayTake, h]

theorem nextAsync_mem {y : Sys} {a : AsyncTrap} (h : y.nextAsync = some a) : a ∈ y.asyncs ∧ y.mayTake a = true :=
  List.mem_filter.1 (nextAsync_some h).1

theorem nextAsync_before {y : Sys} {a b : AsyncTrap} (h : y.nextAsync = some a) (hb : b ∈ y.asyncs) (ht : y.mayTake b = true) :
    a.before b = true := (nextAsync_some h).2 b (List.mem_filter.2 ⟨hb, ht⟩)

theorem not_mayTake_of_nextAsync_none {y : Sys} {b : AsyncTrap} (h : y.nextAsync = none) (hb : b ∈ y.asyncs) : ¬ y.mayTake b = true :=
  List.filter_eq_nil_iff.1 (nextAsync_none h) b hb

/-- Under a system handler only a PFW is taken, once the handler has issued 512 bundles since it came (19 R347). -/
theorem nextAsync_of_sh {y : Sys} {a : AsyncTrap} (h : y.nextAsync = some a) (hs : y.sh = true) : a.cause = 0x14 ∧ 512 ≤ y.held := by
  have ht := (mayTake_iff y a).1 (nextAsync_mem h).2
  by_cases hc : a.cause = 0x14 <;> simp_all

/-! ### Their delivery -/

/-- The state in which the current core has abandoned its wait and the trap is no longer pending. -/
def relieved (s : State) (a : AsyncTrap) : State :=
  s.withMe { s.me.abandonWait with sys := { s.me.sys with asyncs := s.me.sys.asyncs.erase a } }

theorem me_relieved (s : State) (a : AsyncTrap) :
    (relieved s a).me = { s.me.abandonWait with sys := { s.me.sys with asyncs := s.me.sys.asyncs.erase a } } := me_withMe s _

@[simp] theorem abandonWait_pc (x : Core) : x.abandonWait.pc = x.pc := by
  unfold Core.abandonWait
  split <;> rfl

@[simp] theorem me_relieved_pc (s : State) (a : AsyncTrap) : (relieved s a).me.pc = s.me.pc := by
  rw [me_relieved]
  exact abandonWait_pc s.me

@[simp] theorem me_relieved_sh (s : State) (a : AsyncTrap) : (relieved s a).me.sys.sh = s.me.sys.sh := by
  rw [me_relieved]

@[simp] theorem taskOf_relieved (s : State) (a : AsyncTrap) (k : CoreId) : (relieved s a).taskOf k = s.taskOf k := rfl

@[simp] theorem cur_relieved (s : State) (a : AsyncTrap) : (relieved s a).cur = s.cur := rfl

theorem loseHandler_some {s : State} {x : Task} (h : s.taskOf s.cur = some x) :
    s.loseHandler = if s.me.sys.sh then s.modTask x.va fun t => { t with resumable := false } else s := by
  simp only [State.loseHandler, h]

theorem modTask_me (s : State) (va : Word) (f : Task → Task) : (s.modTask va f).me = s.me := rfl

theorem takeAsync_eq (s : State) (a : AsyncTrap) :
    s.takeAsync a = (let t := if a.cause == 0x14 then (relieved s a).loseHandler else relieved s a
      t.takeTrap t.cur 0 a.cause false a.tinfo0 a.tinfo1 t.me.pc) := rfl

theorem takeAsync_user {s : State} {a : AsyncTrap} (h : a.cause ≠ 0x14) :
    s.takeAsync a = (relieved s a).takeTrap s.cur 0 a.cause false a.tinfo0 a.tinfo1 s.me.pc := by
  rw [takeAsync_eq, if_neg (by simpa using h)]
  simp only [cur_relieved, me_relieved_pc]

/-- A PFW that a system handler held is taken: that handler's state is lost (19 R347). -/
theorem takeAsync_pfw {s : State} {a : AsyncTrap} {x : Task} (h : a.cause = 0x14) (ht : s.taskOf s.cur = some x) :
    s.takeAsync a = (if s.me.sys.sh then (relieved s a).modTask x.va fun t => { t with resumable := false } else relieved s a).takeTrap
      s.cur 0 a.cause false a.tinfo0 a.tinfo1 s.me.pc := by
  rw [takeAsync_eq, if_pos (by simpa using h), loseHandler_some (s := relieved s a) (x := x) ht, me_relieved_sh]
  split <;> simp only [modTask_cur, modTask_me, cur_relieved, me_relieved_pc]

/-- A trap may be delivered at this boundary. -/
def Deliverable (s : State) : Prop := s.me.atBoundary = true ∧ s.me.shed = false ∧ s.me.skipRun = 0

theorem deliverable_iff (s : State) : (s.me.atBoundary && !s.me.shed && s.me.skipRun == 0) = true ↔ Deliverable s := by
  simp [Deliverable, and_assoc]

theorem execAsyncTrapDelivery_some {s : State} {a : AsyncTrap} (h : Deliverable s)
    (ha : s.me.sys.nextAsync = some a) :
    execAsyncTrapDelivery s = .next (if a.cause == 0x14 || s.preemptDue.isNone then s.takeAsync a else s) := by
  simp only [execAsyncTrapDelivery, if_pos ((deliverable_iff s).2 h), ha]

theorem execAsyncTrapDelivery_idle {s : State} (h : ¬ Deliverable s ∨ s.me.sys.nextAsync = none) :
    execAsyncTrapDelivery s = .next s := by
  unfold execAsyncTrapDelivery
  split
  · next hd => rw [h.resolve_left (not_not_intro ((deliverable_iff s).1 hd))]
  · rfl

theorem execPfwHoldExpiry_some {s : State} {a : AsyncTrap} (h : Deliverable s)
    (ha : s.me.sys.nextAsync = some a) (hs : s.me.sys.sh = true) : execPfwHoldExpiry s = .next (s.takeAsync a) := by
  simp only [execPfwHoldExpiry, (deliverable_iff s).2 h, hs, Bool.and_self, if_true, ha]

theorem execPfwHoldExpiry_idle {s : State} (h : ¬ Deliverable s ∨ s.me.sys.nextAsync = none) :
    execPfwHoldExpiry s = .next s := by
  unfold execPfwHoldExpiry
  split
  · next hd => rw [h.resolve_left (not_not_intro ((deliverable_iff s).1 (Bool.and_eq_true_iff.1 hd).1))]
  · rfl

theorem execPfwHoldExpiry_outside {s : State} (h : s.me.sys.sh = false) : execPfwHoldExpiry s = .next s := by
  rw [execPfwHoldExpiry, h, Bool.and_false, if_neg Bool.false_ne_true]

theorem trapsAreDelivered : TrapsAreDelivered := by
  intro s a b x y due u lost open_
  refine ⟨fun hd ha hc hp => ?_, fun hd ha hc hx => ?_, fun hd ha hs hx => ?_, fun hd ha hc hp => ?_,
    fun h => ⟨execAsyncTrapDelivery_idle h, execPfwHoldExpiry_idle h⟩, execPfwHoldExpiry_outside, fun ha => ?_, fun ha hb ho => ?_,
    fun ha hb ho => not_mayTake_of_nextAsync_none ha hb ((mayTake_iff y b).2 ho)⟩
  · refine (execAsyncTrapDelivery_some hd ha).trans ?_
    rw [hp, Option.isNone_none, Bool.or_true, if_pos rfl, takeAsync_user hc]
    rfl
  · refine (execAsyncTrapDelivery_some hd ha).trans ?_
    rw [beq_iff_eq.2 hc, Bool.true_or, if_pos rfl, takeAsync_pfw hc hx]
    rfl
  · obtain ⟨hc, hheld⟩ := nextAsync_of_sh ha hs
    refine ⟨(execPfwHoldExpiry_some hd ha hs).trans ?_, hheld⟩
    rw [takeAsync_pfw hc hx, hc]
    rfl
  · refine (execAsyncTrapDelivery_some hd ha).trans ?_
    rw [beq_false_of_ne hc, Option.isNone_eq_false_iff.2 hp, Bool.or_false, if_neg Bool.false_ne_true]
  · obtain ⟨hmem, ht⟩ := nextAsync_mem ha
    exact ⟨hmem, (mayTake_iff y a).1 ht⟩
  · exact (before_iff a b).1 (nextAsync_before ha hb ((mayTake_iff y b).2 ho))

/-! ### The PFW handler's budget (19 R352) -/

theorem exhaust_eq (s : State) : s.exhaust =
    ((s.withMe { s.me with status := .stopped, pc := s.me.sys.tbaddr, jump := none }).delivering 1 [.rte]).logCore s.cur 0 2 0x14 := by
  rw [State.exhaust, State.stopCore, emit_eq_delivering, modMe_eq_withMe]

theorem exhausted_iff (x : Core) : x.exhausted = true ↔ x.sys.inPfw = true ∧ x.sys.pfbud = 0 := by
  simp [Core.exhausted]

theorem handlerBudgetEnds : HandlerBudgetEnds := by
  intro s due
  have due_iff : (s.me.atBoundary && s.me.exhausted) = true ↔ due := by rw [Bool.and_eq_true, exhausted_iff]
  have exec_eq : exec .pfbudExhausted s = .next (if s.me.atBoundary && s.me.exhausted then s.exhaust else s) := rfl
  refine ⟨fun h => ?_, fun h => ?_⟩
  · rw [exec_eq, if_pos (due_iff.2 h), exhaust_eq]
  · rw [exec_eq, if_neg (mt due_iff.1 h)]

end Sys2Proof.Proofs
end

section
/-! PROOFS. The end of a wait (08 R155, R159, R162) and what makes a task give up its hoop (02 R37, R41; 08 R161; 20 R365-R367), parts of
O39. -/

namespace Sys2Proof.Proofs

open Sys2Proof Sys2Proof.Machine Sys2Proof.Laws

/-! ### The end of a wait -/

/-- No trap comes before the end of a wait, and the core's die is not shed. -/
def WaitFree (s : State) : Prop := s.me.sys.nextAsync = none ∧ s.me.shed = false

theorem waitFree_iff (s : State) : (s.me.sys.nextAsync.isNone && !s.me.shed) = true ↔ WaitFree s := by
  simp [WaitFree]

theorem seenTrue_of_look_ok {s t : State} {w v : Wait} {b : Bool} (hf : WaitFree s) (hl : s.look s.cur w = (t, .ok (b, v))) :
    s.seenTrue w = b := by
  simp only [State.seenTrue, (waitFree_iff s).2 hf, hl, Bool.true_and]

theorem seenTrue_of_look_false {s t : State} {w v : Wait} (hl : s.look s.cur w = (t, .ok (false, v))) : s.seenTrue w = false := by
  simp only [State.seenTrue, hl, Bool.and_false]

theorem seenTrue_of_look_error {s t : State} {w : Wait} {r : Raise} (hl : s.look s.cur w = (t, .error r)) : s.seenTrue w = false := by
  simp only [State.seenTrue, hl, Bool.and_false]

theorem seenTrue_of_not_free {s : State} (w : Wait) (h : ¬ WaitFree s) : s.seenTrue w = false := by
  rw [State.seenTrue, Bool.eq_false_iff.2 (mt (waitFree_iff s).1 h), Bool.false_and]

theorem waitStep_of_look_true {s t : State} {w v : Wait} (hl : s.look s.cur w = (t, .ok (true, v))) :
    s.waitStep w = (t.satisfy t.cur v).endWait := by
  simp only [State.waitStep, hl]

theorem execWaitSatisfied_waiting {s : State} {w : Wait} (h : s.me.status = .waiting w) :
    execWaitSatisfied s = .next (if s.seenTrue w then s.waitStep w else s) := by
  simp only [execWaitSatisfied, h]

theorem execWaitSatisfied_not_waiting {s : State} (h : ∀ w, s.me.status ≠ .waiting w) : execWaitSatisfied s = .next s := by
  unfold execWaitSatisfied
  split
  · next w hw => exact absurd hw (h w)
  · rfl

theorem execHbarComplete_hoop {s : State} {k : Nat} (h : s.me.status = .waiting (.hoop k)) :
    execHbarComplete s = .next (if s.seenTrue (.hoop k) then s.waitStep (.hoop k) else s) := by
  simp only [execHbarComplete, h]

theorem execHbarComplete_other {s : State} (h : ∀ k, s.me.status ≠ .waiting (.hoop k)) : execHbarComplete s = .next s := by
  unfold execHbarComplete
  split
  · next k hk => exact absurd hk (h k)
  · rfl

theorem exec_wait_events_unseen {s : State} (h : ∀ w, s.me.status = .waiting w → s.seenTrue w = false) :
    execWaitSatisfied s = .next s ∧ execHbarComplete s = .next s := by
  unfold execWaitSatisfied execHbarComplete
  constructor <;> split
  · next w hw => rw [h w hw, if_neg Bool.false_ne_true]
  · rfl
  · next k hk => rw [h _ hk, if_neg Bool.false_ne_true]
  · rfl

/-- The state in which the wait of the current core is over and the bundle after it is due. -/
def waitOver (t : State) : State :=
  (t.withMe { t.me with status := .running, pc := t.me.waitNext, delay := 1 }).ticks t.cur t.me.delay

theorem endWait_waiting {t : State} {v : Wait} (h : t.me.status = .waiting v) : t.endWait = waitOver t := by
  rw [State.endWait, h]
  rfl

/-- A wait whose look leaves the state as it is and that leaves nothing behind ends at once. -/
theorem waitStep_plain {s : State} {w : Wait} (hw : s.me.status = .waiting w) (hl : s.look s.cur w = (s, .ok (true, w)))
    (hs : s.satisfy s.cur w = s) : s.waitStep w = waitOver s := by
  rw [waitStep_of_look_true hl, hs, endWait_waiting hw]

theorem look_hoop (s : State) (k : Nat) : s.look s.cur (.hoop k) = (s, .ok (s.hoopArrived s.cur k, .hoop k)) := rfl

theorem look_drain (s : State) : s.look s.cur .drain = (s, .ok (s.me.drained, .drain)) := rfl

theorem waitsEnd : WaitsEnd := by
  intro s t w v k due ended
  refine ⟨fun hw hd hl => ?_, fun hw hd ha => ?_, fun hw hd ha => ?_, fun hw hl => ?_, fun r hw hl => ?_, fun h => ?_,
    execHbarComplete_other, endWait_waiting⟩
  · refine (execWaitSatisfied_waiting hw).trans ?_
    rw [seenTrue_of_look_ok hd hl, if_pos rfl, waitStep_of_look_true hl]
  · have hl : s.look s.cur (.hoop k) = (s, .ok (true, .hoop k)) := by rw [look_hoop, ha]
    have hover : (if s.seenTrue (.hoop k) then s.waitStep (.hoop k) else s) = waitOver s := by
      rw [seenTrue_of_look_ok hd hl, if_pos rfl, waitStep_plain hw hl rfl]
    exact ⟨(execWaitSatisfied_waiting hw).trans (congrArg _ hover), (execHbarComplete_hoop hw).trans (congrArg _ hover)⟩
  · have hl : s.look s.cur .drain = (s, .ok (true, .drain)) := by rw [look_drain, ha]
    refine (execWaitSatisfied_waiting hw).trans ?_
    rw [seenTrue_of_look_ok hd hl, if_pos rfl, waitStep_plain hw hl rfl]
    rfl
  · refine exec_wait_events_unseen fun x hx => ?_
    cases hw.symm.trans hx
    exact seenTrue_of_look_false hl
  · refine (execWaitSatisfied_waiting hw).trans ?_
    rw [seenTrue_of_look_error hl, if_neg Bool.false_ne_true]
  · refine exec_wait_events_unseen fun x hx => ?_
    exact seenTrue_of_not_free x (h.resolve_right fun hn => hn x hx)

/-! ### A task gives up its hoop -/

/-- The core's SPAWNW has waited 4,096 sc (02 R37). -/
def SpawnLate (x : Core) : Prop := 4096 ≤ (x.tick - x.waitSince) / x.scTicks

/-- The ticks of a wait after which it may yield the hoop (20 R367). -/
def yieldThreshold (r : Region) : Nat := (if r.wyThr = 0 then 100 else r.wyThr) * usTicks

theorem converting_cur_isSome_iff (s : State) (x : Task) :
    (s.converting { x with cores := [s.cur] }).isSome = true ↔ ∃ child, s.me.status = .waiting (.spawn child) ∧ SpawnLate s.me := by
  rw [State.converting, List.findSome?_isSome_iff]
  simp only [List.length_singleton, List.range_one, List.zip_cons_cons, List.zip_nil_left, List.mem_singleton, exists_eq_left,
    core_cur]
  split
  · next child hw =>
    refine Option.isSome_ite.trans ⟨fun hl => ⟨child, hw, hl⟩, fun ⟨_, _, hl⟩ => hl⟩
  · next h => exact iff_of_false Bool.false_ne_true fun ⟨child, hw, _⟩ => h child hw

theorem execSpawnwConversion_hosting {s : State} {x : Task} (hx : s.taskOf s.cur = some x) :
    execSpawnwConversion s = .next (if s.hib.state == .run && !s.me.shed && (s.converting { x with cores := [s.cur] }).isSome then
      s.requestPreempt x preemptSpawn else s) := by
  simp only [execSpawnwConversion, hx, core_cur]
  rfl

theorem execSpawnwConversion_idle {s : State} (hx : s.taskOf s.cur = none) : execSpawnwConversion s = .next s := by
  simp only [execSpawnwConversion, hx]

theorem execSpawnwConversion_late {s : State} {x : Task} {child : Word} (hx : s.taskOf s.cur = some x) (hh : s.hib.state = .run)
    (hs : s.me.shed = false) (hw : s.me.status = .waiting (.spawn child)) (hl : SpawnLate s.me) :
    execSpawnwConversion s = .next (s.requestPreempt x preemptSpawn) := by
  have conv := (converting_cur_isSome_iff s x).2 ⟨child, hw, hl⟩
  rw [execSpawnwConversion_hosting hx, hh, hs, conv]
  rfl

theorem execSpawnwConversion_early {s : State} (h : ∀ child, s.me.status = .waiting (.spawn child) → ¬ SpawnLate s.me) :
    execSpawnwConversion s = .next s := by
  cases hx : s.taskOf s.cur with
  | none => exact execSpawnwConversion_idle hx
  | some x =>
    have conv : ¬ (s.converting { x with cores := [s.cur] }).isSome = true := fun hc =>
      have ⟨child, hw, hl⟩ := (converting_cur_isSome_iff s x).1 hc
      h child hw hl
    rw [execSpawnwConversion_hosting hx, Bool.eq_false_iff.2 conv, Bool.and_false, if_neg Bool.false_ne_true]

theorem execSpawnwConversion_barred {s : State} (h : s.hib.state ≠ .run ∨ s.me.shed = true) : execSpawnwConversion s = .next s := by
  cases hx : s.taskOf s.cur with
  | none => exact execSpawnwConversion_idle hx
  | some x =>
    have barred : (s.hib.state == .run && !s.me.shed) = false := by simpa [imp_iff_not_or] using h
    rw [execSpawnwConversion_hosting hx, barred, Bool.false_and, if_neg Bool.false_ne_true]

theorem execWaitYield_waiting {s : State} {x : Task} {r : Region} {w : Wait} (hx : s.taskOf s.cur = some x)
    (hr : s.region x.region = some r) (hw : s.me.status = .waiting w) : execWaitYield s = .next
      (if (x.waitYield || r.wy) && !s.me.shed && s.hib.state == .run && decide (s.me.waitSince + yieldThreshold r < s.now)
        then s.requestPreempt x preemptWait else s) := by
  simp only [execWaitYield, hx, hr, core_cur, hw]
  rfl

/-- No wait of a task yields whose condition, in its own region, fails. -/
theorem execWaitYield_of_not {s : State} (h : ∀ x r w, s.taskOf s.cur = some x → s.region x.region = some r → s.me.status = .waiting w →
      ¬ ((x.waitYield = true ∨ r.wy = true) ∧ s.me.shed = false ∧ s.hib.state = .run ∧ s.me.waitSince + yieldThreshold r < s.now)) :
    execWaitYield s = .next s := by
  simp only [execWaitYield, core_cur]
  split
  · next x w hx hw =>
    cases hr : s.region x.region with
    | none => rfl
    | some r =>
      have := h x r w hx hr hw
      refine congrArg _ (if_neg ?_)
      simpa [and_assoc, yieldThreshold] using this
  · rfl

theorem execYield_idle {s : State} (hx : s.taskOf s.cur = none) : execYield s = .next s := by
  simp only [execYield, hx]

/-- A Ready task at this level or above that the cores of the task's hoop could hold (08 R161). -/
def HasRival (s : State) (x : Task) : Prop :=
  ∃ r ∈ s.tasks, r.kind = 0 ∧ r.queued = true ∧ s.level x ≤ s.level r ∧ (s.region r.region).isSome = true ∧
    (s.findHoop r x.cores.contains x.cores).isSome = true

theorem any_rival_iff (s : State) (x : Task) :
    (s.tasks.any fun r => r.kind == 0 && r.queued && decide (s.level x ≤ s.level r) && (s.region r.region).isSome
      && (s.findHoop r x.cores.contains x.cores).isSome) = true ↔ HasRival s x := by
  simp only [HasRival, List.any_eq_true, Bool.and_eq_true, beq_iff_eq, decide_eq_true_eq, and_assoc]

theorem execYield_rival {s : State} {x : Task} (hx : s.taskOf s.cur = some x) (h : HasRival s x) :
    execYield s = .next (s.modTask x.va fun t => { t with preempt := some preemptYield }) := by
  simp only [execYield, hx, (any_rival_iff s x).2 h, if_true]

theorem execYield_no_rival {s : State} {x : Task} (hx : s.taskOf s.cur = some x) (h : ¬ HasRival s x) : execYield s = .next s := by
  simp only [execYield, hx, Bool.eq_false_iff.2 (mt (any_rival_iff s x).1 h)]
  rfl

/-! ### A pre-emption is asked for (20 R365) -/

/-- A pre-emption asked of the task does nothing (20 R370, 22 R388). -/
def LeftAlone (s : State) (x : Task) : Prop :=
  x.kind ≠ 0 ∨ x.state ≠ .running ∨ x.preempt.isSome = true ∨ s.leaving x = true ∨ s.halted x = true

theorem requestPreempt_left {s : State} {x : Task} (n : Nat) (h : LeftAlone s x) : s.requestPreempt x n = s := if_pos h

theorem requestPreempt_now {s : State} {x : Task} {n : Nat} (h : ¬ LeftAlone s x) (hp : s.mayPreempt x n = true) :
    s.requestPreempt x n = s.preemptNow x n := (if_neg h).trans (if_pos hp)

theorem requestPreempt_later {s : State} {x : Task} {n : Nat} (h : ¬ LeftAlone s x) (hp : s.mayPreempt x n = false) :
    s.requestPreempt x n =
      x.cores.foldl (fun s k => s.refreshArray (clusterOf k)) (s.modTask x.va fun t => { t with preempt := some n }) :=
  (if_neg h).trans (if_neg (Bool.eq_false_iff.1 hp))

theorem preemptNow_converting {s : State} {x : Task} {i : Nat} {child : Word} (h : s.converting x = some (i, child)) :
    s.preemptNow x preemptSpawn = (s.convert x i child).flushCharges x.region := by
  simp only [State.preemptNow, beq_self_eq_true, h]

theorem preemptNow_plain {s : State} {x : Task} {n : Nat} (h : n ≠ preemptSpawn ∨ s.converting x = none) :
    s.preemptNow x n = ((s.chargeTask x).preempted x n).flushCharges x.region := by
  unfold State.preemptNow
  split
  · next i child hn hc => simp_all
  · rfl

theorem hoopsAreGivenUp : HoopsAreGivenUp := by
  intro s x r w child n i left late thr rival
  refine ⟨execSpawnwConversion_late, fun hw hl => ?_, fun h => ?_, fun hx hr hw hs hh hy ht => ?_, fun hx hr h => ?_, fun h => ?_,
    execYield_rival, execYield_no_rival, execYield_idle, requestPreempt_left n, requestPreempt_now, requestPreempt_later,
    preemptNow_converting, preemptNow_plain⟩
  · refine execSpawnwConversion_early fun c' hc => hl
  · rcases h with hw | hx | hb
    · exact execSpawnwConversion_early fun c' hc => absurd hc (hw c')
    · exact execSpawnwConversion_idle hx
    · exact execSpawnwConversion_barred hb
  · refine (execWaitYield_waiting hx hr hw).trans (congrArg _ (if_pos ?_))
    have ht' : s.me.waitSince + yieldThreshold r < s.now := ht
    simpa [hs, hh, ht'] using hy
  · refine execWaitYield_of_not fun x' r' w' hx' hr' _ ⟨hy, _, _, hlt⟩ => ?_
    cases hx.symm.trans hx'
    cases hr.symm.trans hr'
    rcases h with ⟨h1, h2⟩ | hle
    · simp [h1, h2] at hy
    · exact absurd hlt (Nat.not_lt.2 hle)
  · refine execWaitYield_of_not fun x' r' w' hx' _ hw' ⟨_, hs, hh, _⟩ => ?_
    rcases h with hx | hw | hs' | hh'
    · exact absurd (hx.symm.trans hx') nofun
    · exact hw w' hw'
    · exact absurd (hs.symm.trans hs') nofun
    · exact hh' hh

end Sys2Proof.Proofs
end

section
/-! PROOFS. The spawn-wait list (20 R367), words that are no instruction (07 R124) and XINV (19 R351), the last parts of O39. -/

namespace Sys2Proof.Proofs

open Sys2Proof Sys2Proof.Machine Sys2Proof.Laws

/-! ### The order of the spawn-wait list -/

/-- One waiter is retried no later than another: one that is retried first, and then by the order of joining. -/
def RetriedBefore (p q : Task × Word) : Prop :=
  (q.1.retryFirst = true → p.1.retryFirst = true) ∧ (p.1.retryFirst = q.1.retryFirst → p.1.readySeq ≤ q.1.readySeq)

theorem retriedBefore_trans {p q r : Task × Word} (hpq : RetriedBefore p q) (hqr : RetriedBefore q r) : RetriedBefore p r := by
  unfold RetriedBefore at *
  cases hp : p.1.retryFirst <;> cases hq : q.1.retryFirst <;> cases hr : r.1.retryFirst <;> simp_all <;> omega

/-- The condition under which a waiter is put before another. -/
theorem insertsBefore_iff (x y : Task × Word) :
    ((x.1.retryFirst && !y.1.retryFirst) || (x.1.retryFirst == y.1.retryFirst && decide (x.1.readySeq < y.1.readySeq))) = true ↔
      ¬ RetriedBefore y x := by
  cases hx : x.1.retryFirst <;> cases hy : y.1.retryFirst <;> simp [RetriedBefore, hx, hy]

theorem retriedBefore_of_not {x y : Task × Word} (h : ¬ RetriedBefore y x) : RetriedBefore x y := by
  unfold RetriedBefore at *
  cases hx : x.1.retryFirst <;> cases hy : y.1.retryFirst <;> simp_all <;> omega

theorem insertWaiter_cons (x y : Task × Word) (l : List (Task × Word)) :
    insertWaiter x (y :: l) =
      if (x.1.retryFirst && !y.1.retryFirst) || (x.1.retryFirst == y.1.retryFirst && decide (x.1.readySeq < y.1.readySeq))
      then x :: y :: l else y :: insertWaiter x l := rfl

theorem mem_insertWaiter {x z : Task × Word} {l : List (Task × Word)} : z ∈ insertWaiter x l ↔ z = x ∨ z ∈ l := by
  induction l with
  | nil => exact List.mem_cons
  | cons y l ih =>
    rw [insertWaiter_cons]
    split
    · exact List.mem_cons
    · rw [List.mem_cons, ih, List.mem_cons, or_left_comm]

theorem insertWaiter_pairwise {x : Task × Word} {l : List (Task × Word)} (h : l.Pairwise RetriedBefore) :
    (insertWaiter x l).Pairwise RetriedBefore := by
  induction l with
  | nil => exact List.pairwise_singleton _ x
  | cons y l ih =>
    obtain ⟨hy, hl⟩ := List.pairwise_cons.1 h
    rw [insertWaiter_cons]
    split
    · next hlt =>
      have hxy := retriedBefore_of_not ((insertsBefore_iff x y).1 hlt)
      exact h.cons (List.forall_mem_cons.2 ⟨hxy, fun z hz => retriedBefore_trans hxy (hy z hz)⟩)
    · next hge =>
      have hyx : RetriedBefore y x := not_not.1 (mt (insertsBefore_iff x y).2 hge)
      refine (ih hl).cons fun z hz => ?_
      rcases mem_insertWaiter.1 hz with rfl | hz
      · exact hyx
      · exact hy z hz

theorem mem_foldr_insertWaiter {z : Task × Word} {l : List (Task × Word)} : z ∈ l.foldr insertWaiter [] ↔ z ∈ l := by
  induction l with
  | nil => exact Iff.rfl
  | cons x l ih => rw [List.foldr_cons, mem_insertWaiter, ih, List.mem_cons]

theorem foldr_insertWaiter_pairwise (l : List (Task × Word)) : (l.foldr insertWaiter []).Pairwise RetriedBefore := by
  induction l with
  | nil => exact .nil
  | cons x l ih => exact insertWaiter_pairwise ih

theorem mem_spawnWaiters {s : State} {x : Task} {d : Word} : (x, d) ∈ s.spawnWaiters ↔ x ∈ s.tasks ∧ x.state = .spawnWait d := by
  rw [State.spawnWaiters, mem_foldr_insertWaiter, List.mem_filterMap]
  constructor
  · rintro ⟨t, ht, hs⟩
    split at hs
    · next d' hd =>
      cases hs
      exact ⟨ht, hd⟩
    · cases hs
  · rintro ⟨hx, hs⟩
    exact ⟨x, hx, by rw [hs]⟩

/-! ### The retries -/

/-- One step of the retries: a waiter that has not ended is retried where its descriptor's VA belongs to no task. -/
def retryStep (t : State) (p : Task × Word) : State :=
  if (t.task p.1.va).isSome = true ∧ t.task p.2 = none then t.retrySpawn p.1 p.2 else t

theorem execSpawnWaitRetry_run {s : State} (h : s.hib.state = .run) :
    execSpawnWaitRetry s = .next (s.spawnWaiters.foldl retryStep s) := by
  have steps : (fun (t : State) (p : Task × Word) =>
      if ((t.task p.1.va).isSome && (t.task p.2).isNone) = true then t.retrySpawn p.1 p.2 else t) = retryStep := by
    funext t p
    simp only [retryStep, Bool.and_eq_true, Option.isNone_iff_eq_none]
  rw [← steps, execSpawnWaitRetry, h]
  rfl

theorem execSpawnWaitRetry_asleep {s : State} (h : s.hib.state ≠ .run) : execSpawnWaitRetry s = .next s :=
  congrArg _ (if_pos (bne_iff_ne.2 h))

/-- What a retry makes of the answer to its submission (20 R367, log 37). -/
theorem retrySpawn_eq {s u v : State} {x : Task} {d : Word} {wins : Vector Window 8} {r : Submission}
    (hu : s.winset x.region = (u, wins)) (hv : u.submit d (u.forTask x) wins x.region (some x.va) = (v, r)) :
    s.retrySpawn x d = (match r with
      | .accepted => if v.readyRoom then v.makeReady x.va .preempted else u.modTask x.va fun t => { t with retryFirst := true }
      | .lacking => v
      | .failed code => (v.logModule d.toNat x.va 2 causeFatal).killParent x code d
      | .violation cls addr => (v.logModuleViolation cls addr x.va).killParent x cls d) := by
  simp only [State.retrySpawn, hu, hv]
  cases r <;> rfl

theorem spawnWaitersAreRetried : SpawnWaitersAreRetried := by
  intro s u v x d wins r
  refine ⟨execSpawnWaitRetry_run, execSpawnWaitRetry_asleep, mem_spawnWaiters, foldr_insertWaiter_pairwise _, fun hu hv => ?_⟩
  have retry := retrySpawn_eq hu hv
  refine ⟨fun hr hroom => ?_, fun hr hroom => ?_, fun hr => ?_, fun code hr => ?_, fun cls addr hr => ?_⟩ <;> subst hr
  · rw [retry, hroom]
    rfl
  · rw [retry, hroom]
    rfl
  all_goals exact retry

/-! ### Words that are no instruction (07 R124), and XINV (19 R351) -/

theorem trapWord_cause (s : State) (cls : SlotClass) (w : BitVec 32) : ∃ cause,
    s.trapWord cls w = .trap cause (w.setWidth 64) 0 ∧ (s.me.sys.mode = true → cause = 1) ∧ (cause = 1 ∨ cause = 2) := by
  simp only [State.trapWord]
  split
  · next h =>
    refine ⟨2, rfl, fun hm => ?_, .inr rfl⟩
    simp [hm] at h
  · exact ⟨1, rfl, fun _ => rfl, .inl rfl⟩

/-- The intermediate address that XINV names. -/
def xinvAddress (s : State) (i : BitVec 5) : Nat := (s.me.rs i).toNat % 2 ^ 56

theorem execXinv_privileged {s : State} {i l : BitVec 5} (hm : s.me.sys.mode = true) :
    execXinv i l s = .next (s.orRaise (s.trapXinv i) fun s =>
      if s.onModule (xinvAddress s i) then s.dropCached (iaLocal (xinvAddress s i)) (s.me.rs l).toNat else s) := by
  rw [execXinv, (privCheck_eq_none s).2 hm]
  cases h : s.trapXinv i <;> rfl

theorem trapXinv_eq (s : State) (i : BitVec 5) : s.trapXinv i =
    failIf (!s.onModule (xinvAddress s i) && !s.isTrained (iaModule (xinvAddress s i))) (.violation 9 (xinvAddress s i)) := rfl

theorem trapXinv_known {s : State} {i : BitVec 5}
    (h : s.onModule (xinvAddress s i) = true ∨ s.isTrained (iaModule (xinvAddress s i)) = true) : s.trapXinv i = none := by
  rcases h with h | h <;> simp [trapXinv_eq, h]

theorem trapXinv_unknown {s : State} {i : BitVec 5} (h : s.onModule (xinvAddress s i) = false)
    (ht : s.isTrained (iaModule (xinvAddress s i)) = false) : s.trapXinv i = some (.violation 9 (xinvAddress s i)) := by
  simp [trapXinv_eq, h, ht]

/-- The cached translations left once those of a range are dropped (21 R376). -/
theorem dropCached_tlb (s : State) (lo n : Nat) : ∃ tlb, s.dropCached lo n = { s with trans := { s.trans with tlb := tlb } } ∧
    (n = 0 → tlb = []) ∧ ∀ p, p ∈ tlb ↔ p ∈ s.trans.tlb ∧ n ≠ 0 ∧
      ((cachedRange p.1 + 1) * 2 ^ 21 ≤ lo ∨ lo + n ≤ cachedRange p.1 * 2 ^ 21) := by
  refine ⟨_, rfl, fun hn => if_pos hn, fun p => ?_⟩
  by_cases hn : n = 0
  · simp [hn]
  · simp [hn]

theorem nonInstructionsTrap : NonInstructionsTrap := by
  intro s cls w i l ia
  refine ⟨?_, fun hm hon => ?_, fun hm hoff ht => ?_, fun hm hoff ht => ?_⟩
  · obtain ⟨cause, hc, hpriv⟩ := trapWord_cause s cls w
    exact ⟨cause, congrArg (fun r => Host.Outcome.next (s.raise r)) hc, hpriv⟩
  · obtain ⟨tlb, hdrop, hzero, hmem⟩ := dropCached_tlb s (iaLocal ia) (s.me.rs l).toNat
    have toNat_eq_zero : (s.me.rs l).toNat = 0 ↔ s.me.rs l = 0 := BitVec.toNat_eq (y := 0#64) |>.symm
    refine ⟨tlb, (execXinv_privileged hm).trans ?_, fun hl => hzero (toNat_eq_zero.2 hl), fun p => ?_⟩
    · rw [trapXinv_known (.inl hon), orRaise_none]
      exact congrArg _ ((if_pos hon).trans hdrop)
    · rw [hmem p, Ne, toNat_eq_zero]
  · refine (execXinv_privileged hm).trans ?_
    rw [trapXinv_known (.inr ht), orRaise_none]
    exact congrArg _ (if_neg (Bool.eq_false_iff.1 hoff))
  · refine (execXinv_privileged hm).trans ?_
    rw [trapXinv_unknown hoff ht, orRaise_some]
    rfl

/-- Settles O39, part by part: each event acts where its cause stands and leaves the state as it is elsewhere. -/
theorem coreEventsAct : Obligations.CoreEventsAct :=
  ⟨nullifierSkips, trapsAreDelivered, handlerBudgetEnds, waitsEnd, hoopsAreGivenUp, spawnWaitersAreRetried, nonInstructionsTrap⟩

end Sys2Proof.Proofs
end

section
/-! PROOFS. The arithmetic of the S slot (07 R126, R130; 08 R147, R166 to R170, R175, R176): what the quotients, the bit counts and the
compares are as numbers, O1, O2, O3 and O7. -/

namespace Sys2Proof.Proofs

open Sys2Proof Sys2Proof.Machine Sys2Proof.Laws

/-! ### Quotients and remainders (08 R166, R167) -/

theorem divS_zero (a : Word) : divS a 0 = BitVec.allOnes 64 := if_pos rfl

theorem divU_zero (a : Word) : divU a 0 = BitVec.allOnes 64 := if_pos rfl

theorem divS_of_ne_zero {a b : Word} (h : b ≠ 0) : divS a b = a.sdiv b := by
  rw [divS, if_neg h]
  refine BitVec.eq_of_toInt_eq ?_
  rw [BitVec.toInt_ofInt, BitVec.toInt_sdiv]

theorem divU_of_ne_zero {a b : Word} (h : b ≠ 0) : divU a b = a / b := by
  rw [divU, if_neg h, BitVec.udiv_def]

/-- With a divisor of 0 the remainder is the dividend, as the library has it too. -/
theorem remS_eq_srem (a b : Word) : remS a b = a.srem b := by
  by_cases h : b = 0
  · rw [remS, if_pos h, h]
    exact BitVec.srem_zero.symm
  · rw [remS, if_neg h]
    refine BitVec.eq_of_toInt_eq ?_
    rw [← BitVec.toInt_srem, BitVec.ofInt_toInt]

theorem divisionDelivers : DivisionDelivers := by
  intro s d a b
  refine ⟨divS (s.me.rs a) (s.me.rs b), divU (s.me.rs a) (s.me.rs b), remS (s.me.rs a) (s.me.rs b), rfl, rfl, rfl,
    fun hb => ?_, fun ha hb => ?_, fun hb hover => ?_, fun hb => ?_⟩
  · rw [hb, remS_eq_srem]
    exact ⟨divS_zero _, divU_zero _, BitVec.srem_zero⟩
  · rw [ha, hb]
    decide
  · rw [divS_of_ne_zero hb, remS_eq_srem]
    exact ⟨BitVec.toInt_sdiv_of_ne_or_ne _ _ (not_and_or.1 hover), BitVec.toInt_srem _ _⟩
  · rw [divU_of_ne_zero hb, BitVec.toNat_udiv]

/-! ### Bit counts (08 R166) -/

theorem leadingZeros_bounds {w : Word} (h : w ≠ 0) :
    leadingZeros w < 64 ∧ 2 ^ (63 - leadingZeros w) ≤ w.toNat ∧ w.toNat < 2 ^ (64 - leadingZeros w) := by
  have hw : w.toNat ≠ 0 := fun h0 => h (BitVec.eq_of_toNat_eq h0)
  have hlog : w.toNat.log2 < 64 := (Nat.log2_lt hw).2 w.isLt
  have hlow : 63 - leadingZeros w = w.toNat.log2 := by rw [leadingZeros, if_neg h]; omega
  have hhigh : 64 - leadingZeros w = w.toNat.log2 + 1 := by rw [leadingZeros, if_neg h]; omega
  refine ⟨by omega, ?_, ?_⟩
  · rw [hlow]
    exact Nat.log2_self_le hw
  · rw [hhigh]
    exact Nat.lt_log2_self

theorem popCount_eq_countP (x n : Nat) : popCount x n = (List.range n).countP x.testBit := by
  induction n generalizing x with
  | zero => rfl
  | succ n ih =>
    have hshift : x.testBit ∘ Nat.succ = (x / 2).testBit := funext fun i => Nat.testBit_succ x i
    have hlow : x % 2 = if x.testBit 0 then 1 else 0 := by
      rw [Nat.testBit_zero]
      obtain h | h := Nat.mod_two_eq_zero_or_one x <;> simp [h]
    rw [popCount, ih, List.range_succ_eq_map, List.countP_cons, List.countP_map, hshift, hlow, Nat.add_comm]

theorem bitCountsDeliver : BitCountsDeliver := by
  intro s d a
  exact ⟨leadingZeros (s.me.rs a), popCount (s.me.rs a).toNat 64, rfl, rfl, fun h => if_pos h, leadingZeros_bounds,
    popCount_eq_countP _ _⟩

/-- Settles O1: the quotients are the library's but for a divisor of 0, CLZ counts down from the highest set bit, POPC bit by bit. -/
theorem divisionAndBitCountsDeliver : Obligations.DivisionAndBitCountsDeliver := ⟨divisionDelivers, bitCountsDeliver⟩

/-! ### The register and the immediate forms (07 R126; 08 R166, R168) -/

theorem ite_slt {α : Type} (x y : Word) (u v : α) : (if x.slt y then u else v) = if x.toInt < y.toInt then u else v :=
  if_congr BitVec.slt_iff_toInt_lt rfl rfl

theorem ite_ult {α : Type} (x y : Word) (u v : α) : (if x.ult y then u else v) = if x.toNat < y.toNat then u else v :=
  if_congr BitVec.ult_iff_toNat_lt rfl rfl

theorem registerFormsDeliver : RegisterFormsDeliver := by
  intro s d a b p
  simp only [← ite_slt, ← ite_ult]
  exact ⟨rfl, rfl, rfl, rfl, rfl, rfl, rfl, rfl, rfl, rfl, rfl, rfl, rfl, rfl, rfl, rfl⟩

theorem immediateFormsDeliver : ImmediateFormsDeliver := by
  intro s d a imm k w
  exact ⟨rfl, rfl, rfl, rfl, rfl, rfl, rfl, rfl, rfl⟩

/-- Settles O2: each form is its meaning's own value, with the choices of MIN to MAXN read as comparisons of numbers. -/
theorem integerArithmeticDelivers : Obligations.IntegerArithmeticDelivers := ⟨registerFormsDeliver, immediateFormsDeliver⟩

/-! ### Compares and predicates (07 R130; 08 R169, R170) -/

/-- A pair of predicates is in flight as two results, pd's first. -/
theorem emitPair_eq_delivering (s : State) (lat : Nat) (pd pc : BitVec 4) (b : Bool) :
    s.emitPair lat pd pc b = s.delivering lat [.p pd b, .p pc !b] :=
  emit_delivering s lat [.p pd b] (.p pc !b)

theorem cmpHolds_iff (cond : Cond) (a b : Word) : cmpHolds cond a b = true ↔ cmpSpec cond a b := by
  cases cond
  case eq => exact beq_iff_eq
  case ne => exact bne_iff_ne
  case lt | gt => exact BitVec.slt_iff_toInt_lt
  case ge | le => exact BitVec.sle_iff_toInt_le
  case ltn | gtn => exact BitVec.ult_iff_toNat_lt
  case gen | len => exact BitVec.ule_iff_toNat_le

theorem slt_sext_iff (a : Word) (imm : BitVec 9) : a.slt (sext imm) = true ↔ a.toInt < imm.toInt := by
  rw [BitVec.slt_iff_toInt_lt, sext, BitVec.toInt_signExtend_of_le (by decide)]

theorem ult_zext_iff (a : Word) (imm : BitVec 9) : a.ult (zext imm) = true ↔ a.toNat < imm.toNat := by
  rw [BitVec.ult_iff_toNat_lt, zext, BitVec.toNat_setWidth_of_le (by decide)]

/-- Settles O3: a pair is delivered in the order pd, pc, and each condition is the comparison that R130 names. -/
theorem comparesAndPredicatesDeliver : Obligations.ComparesAndPredicatesDeliver := by
  intro s pd pc pa pb a b cond imm
  refine ⟨cmpHolds cond (s.me.rs a) (s.me.rs b), s.me.rs a == sext imm, (s.me.rs a).slt (sext imm), (s.me.rs a).ult (zext imm),
    ?_, ?_, ?_, ?_, rfl, rfl, ?_, rfl, cmpHolds_iff _ _ _, beq_iff_eq, slt_sext_iff _ _, ult_zext_iff _ _⟩
  case refine_5 => rw [← Bool.bne_eq_xor]; rfl
  all_goals exact congrArg Host.Outcome.next (emitPair_eq_delivering s 1 pd pc _)

/-! ### Floating point (08 R175, R176) -/

/-- Settles O7: every result is its meaning's own value, and FCMP's pair is delivered in the order pd, pc. -/
theorem scalarFloatDelivers : Obligations.ScalarFloatDelivers := by
  intro s d a b c pd pc cond rd
  exact ⟨rfl, rfl, rfl, rfl, rfl, rfl, congrArg Host.Outcome.next (emitPair_eq_delivering s 2 pd pc _)⟩

end Sys2Proof.Proofs
end

section
/-! PROOFS. Moves of the S slot between registers, local memory, spill, control registers and vector elements (03 R46, R47, R52, R60; 05 R84
to R88; 06 R105; 08 R171 to R174): what a store to the scratchpad does, O4; the moves that deliver, O5 and O6. -/

namespace Sys2Proof.Proofs

open Sys2Proof Sys2Proof.Machine Sys2Proof.Laws

/-! ### A store to the scratchpad (05 R84, 06 R105) -/

theorem mem_granuleStarts_lt {a n x : Nat} (hn : 0 < n) (hx : x ∈ granuleStarts a n) : x < a + n := by
  obtain rfl | hx := List.mem_cons.1 hx
  · omega
  · exact of_decide_eq_true (List.mem_filter.1 hx).2

/-- No byte of the scratchpad has a home elsewhere that could fail. -/
theorem stashFail_scratchpad {s : State} {c : CoreId} {a n : Nat} (hn : 0 < n) (h : a + n ≤ (s.core c).stashBase) :
    s.stashFail c a n = none := by
  refine List.findSome?_eq_none_iff.2 fun x hx => ?_
  have below : x < (s.core c).stashBase := (mem_granuleStarts_lt hn hx).trans_le h
  cases he : (s.core c).stashEntry x with
  | none => rfl
  | some e => simp only [below, decide_true, Bool.true_or, if_true]

theorem asked_scratchpad {s : State} {c : CoreId} {a n : Nat} (h : a + n ≤ (s.core c).stashBase) : s.asked c a n = s := by
  have hm : (s.core c).missing a n = none := if_pos (.inr h)
  rw [State.asked, hm]
  rfl

/-- A core with bytes of its scratchpad stored one after the other. -/
def storedBytes (c : Core) (issue a : Nat) : List Byte → Core
  | [] => c
  | b :: bs => storedBytes (c.storeByte issue a b) issue (a + 1) bs

/-- Bytes stored change local memory and what queued commands keep of it. -/
theorem storedBytes_eq (c : Core) (issue a : Nat) (bs : List Byte) : ∃ q, storedBytes c issue a bs =
    { c with q := q, loc := { c.loc with lmem := c.loc.lmem.put a bs } } := by
  induction bs generalizing c a with
  | nil => exact ⟨c.q, rfl⟩
  | cons b bs ih => exact ih (c.storeByte issue a b) (a + 1)

theorem modCore_id (s : State) (c : CoreId) : s.modCore c id = s := by
  simp [State.modCore, State.setCore, State.core]

theorem performBytes_scratchpad {s : State} {c : CoreId} (issue : Nat) {a : Nat} {bs : List Byte}
    (h : a + bs.length ≤ (s.core c).stashBase) : s.performBytes c issue a bs = s.modCore c fun x => storedBytes x issue a bs := by
  induction bs generalizing s a with
  | nil => exact (modCore_id s c).symm
  | cons b bs ih =>
    rw [List.length_cons] at h
    have first : s.performByte c issue a b = s.modCore c (·.storeByte issue a b) := if_pos (by omega)
    have room : ((s.modCore c (·.storeByte issue a b)).core c).stashBase = (s.core c).stashBase := by
      rw [core_modCore_same]
      rfl
    rw [State.performBytes, first, ih (by omega), modCore_modCore]
    rfl

/-- A store to the scratchpad changes its core alone: the bytes of local memory, and what queued commands keep of them. -/
theorem performStore_scratchpad {s : State} {c : CoreId} {st : LocalStore} (hf : st.half = false) (hb : st.bytes ≠ [])
    (h : st.addr + st.bytes.length ≤ (s.core c).stashBase) :
    s.performStore c st = s.modCore c fun x => storedBytes x st.issue st.addr st.bytes := by
  have bytes : st.final ((s.core c).loc.lmem.get st.last) = st.bytes := by
    rw [LocalStore.final, hf]
    rfl
  have room : ((s.modCore c fun x => storedBytes x st.issue st.addr st.bytes).core c).stashBase = (s.core c).stashBase := by
    obtain ⟨q, hq⟩ := storedBytes_eq (s.core c) st.issue st.addr st.bytes
    rw [core_modCore_same, hq]
    rfl
  rw [State.performStore, stashFail_scratchpad (List.length_pos_iff.2 hb) h, bytes]
  show (s.performBytes c st.issue st.addr st.bytes).asked c st.addr st.bytes.length = _
  rw [performBytes_scratchpad _ h, asked_scratchpad (room ▸ h)]

/-- Settles O4: the store is one change of its core, and there a write of its bytes into local memory. -/
theorem localStoreWritesItsBytes : Obligations.LocalStoreWritesItsBytes := by
  intro s c st hf hb h hw t
  have ht : t = s.modCore c fun x => storedBytes x st.issue st.addr st.bytes := performStore_scratchpad hf hb h
  obtain ⟨q, hq⟩ := storedBytes_eq (s.core c) st.issue st.addr st.bytes
  have hc : t.core c = { s.core c with q := q, loc := { (s.core c).loc with lmem := (s.core c).loc.lmem.put st.addr st.bytes } } := by
    rw [ht, core_modCore_same, hq]
  rw [hc]
  refine ⟨fun i hi => mem_get_put hw hi, fun x hx => mem_get_put_ne hx, rfl, rfl, rfl, rfl, rfl, rfl, fun d hd => ?_, ?_⟩
  · rw [ht, core_modCore_ne hd]
  · rw [ht]
    exact ⟨rfl, rfl, rfl, rfl⟩

/-! ### LDL and STL (05 R84, R88; 08 R171) -/

theorem localCheck_past_end (c : Core) {a n : Nat} (w : Bool) (hn : 0 < n) (h : 2 ^ 20 < a + n) : c.localCheck a n w = some clsLocal :=
  (if_neg hn.ne').trans (if_pos h)

theorem localCheck_within {c : Core} {a n : Nat} (w : Bool) (hn : 0 < n) (h : a + n ≤ 2 ^ 20) (hg : c.gatedSpan a n = false) :
    c.localCheck a n w = if a + n ≤ c.stashBase then none else
      let starts := (granuleStarts a n).filter fun x => decide (c.stashBase ≤ x)
      if starts.any fun x => (c.stashEntry x).isNone then some clsUnmapped
      else if w && starts.any fun x => !((c.stashEntry x).map (·.write)).getD false then some clsPerm
      else none :=
  (if_neg hn.ne').trans ((if_neg (Nat.not_lt.2 h)).trans (if_neg (Bool.eq_false_iff.1 hg)))

theorem localCheck_scratchpad {c : Core} {a n : Nat} (w : Bool) (hs : a + n ≤ c.stashBase) (h : a + n ≤ 2 ^ 20)
    (hg : c.gatedSpan a n = false) : c.localCheck a n w = none := by
  obtain rfl | hn := Nat.eq_zero_or_pos n
  · exact if_pos rfl
  · exact (localCheck_within w hn h hg).trans (if_pos hs)

theorem localCheck_unmapped {c : Core} {a n : Nat} (w : Bool) (hn : 0 < n) (h : a + n ≤ 2 ^ 20) (hg : c.gatedSpan a n = false)
    (hs : c.stashBase ≤ a) (he : c.stashEntry a = none) : c.localCheck a n w = some clsUnmapped := by
  have first : a ∈ (granuleStarts a n).filter fun x => decide (c.stashBase ≤ x) :=
    List.mem_filter.2 ⟨List.mem_cons_self, decide_eq_true hs⟩
  refine (localCheck_within w hn h hg).trans ((if_neg (by omega)).trans (if_pos ?_))
  exact List.any_eq_true.2 ⟨a, first, by rw [he]; rfl⟩

theorem sizeSigned_eq (size : Size) : sizeSigned size = decide (size = .i8 ∨ size = .i16 ∨ size = .i32) := by
  cases size <;> rfl

theorem localAddr_eq (c : Core) (a : BitVec 5) (imm : BitVec 9) : c.localAddr a imm = (c.rs a + imm.signExtend 64).toNat := rfl

theorem exec_ldl (s : State) (d a : BitVec 5) (size : Size) (imm : BitVec 9) : exec (.ldl d a size imm) s =
    .next (s.orRaise (s.localAccess (s.me.localAddr a imm) (sizeSpec size) false) fun s =>
      s.loading 4 (s.me.localAddr a imm) (sizeSpec size) (.s d (size = .i8 ∨ size = .i16 ∨ size = .i32))) := by
  rw [← sizeSigned_eq]
  rfl

theorem exec_stl (s : State) (d a : BitVec 5) (size : Size) (imm : BitVec 9) : exec (.stl d a size imm) s =
    .next (s.orRaise (s.localAccess (s.me.localAddr a imm) (sizeSpec size) true) fun s =>
      s.storing (s.me.localAddr a imm) (bytesOfNat (sizeSpec size) (s.me.rs d).toNat) false) := rfl

/-- The part of O5 about LDL and STL. -/
theorem localMovesDeliver : LocalMovesDeliver := by
  intro s d a size imm cls
  rw [← localAddr_eq]
  refine ⟨fun h => ?_, fun h => ?_, fun _ _ w => localCheck_past_end _ w, fun _ _ w => localCheck_scratchpad w,
    fun _ _ w => localCheck_unmapped w, fun h => ?_, fun h => ?_⟩
  · rw [exec_ldl, localAccess_of_some h, orRaise_some]
  · rw [exec_stl, localAccess_of_some h, orRaise_some]
  · rw [exec_ldl, localAccess_of_none h, orRaise_none]
  · rw [exec_stl, localAccess_of_none h, orRaise_none]

/-! ### LDSP and STSP (03 R52, 08 R172) -/

theorem trapSpill_within {s : State} {imm : BitVec 11} (h : 8 * imm.toNat + 8 ≤ s.me.loc.spillLimit) : s.trapSpill imm = none :=
  failIf_decide_of_not _ (Nat.not_lt.2 h)

theorem trapSpill_beyond {s : State} {imm : BitVec 11} (h : s.me.loc.spillLimit < 8 * imm.toNat + 8) :
    s.trapSpill imm = some (.trap 0x04 (BitVec.ofNat 64 (8 * imm.toNat)) (BitVec.ofNat 64 s.me.loc.spillLimit)) :=
  failIf_decide_of _ h

theorem exec_ldsp (s : State) (d : BitVec 5) (imm : BitVec 11) : exec (.ldsp d imm) s = .next (s.orRaise (s.trapSpill imm) fun s =>
    s.delivering 1 [.s d (BitVec.ofNat 64 (natOfBytes (s.me.loc.spill.bytes (8 * imm.toNat) 8)))]) := rfl

theorem exec_stsp (s : State) (a : BitVec 5) (imm : BitVec 11) : exec (.stsp a imm) s = .next (s.orRaise (s.trapSpill imm) fun s =>
    s.delivering 1 [.spill (8 * imm.toNat) (s.me.rs a)]) := rfl

/-- The part of O5 about LDSP and STSP. -/
theorem spillMovesDeliver : SpillMovesDeliver := by
  intro s d a imm
  refine ⟨fun h => ?_, fun h => ?_⟩
  · rw [exec_ldsp, exec_stsp, trapSpill_within h, orRaise_none, orRaise_none]
    exact ⟨rfl, rfl⟩
  · rw [exec_ldsp, exec_stsp, trapSpill_beyond h, orRaise_some, orRaise_some]
    exact ⟨rfl, rfl⟩

/-! ### A record that turns bad before HSET reads it (08 R179; log 52) -/

theorem result_of_bad_record {l : LocalLoad} {h : BitVec 4} {top : Nat} {bs : List Byte} (hl : l.dest = .handle h top)
    (hb : handleOf top (natOfBytes bs) = none) : l.result bs = .advance h true 0 := by
  simp only [LocalLoad.result, hl, hb]

theorem advance_zero {x : Handle} (h : x.prod < 2 * x.slotCount) : x.advance true 0 = x := by
  rw [Handle.advance, if_pos rfl, Nat.add_zero, Nat.mod_eq_of_lt h]

/-- Where the handle's producer count is in its range a record that has turned bad leaves the handle as it is. -/
theorem handles_commit_of_bad_record {c : Core} {l : LocalLoad} {h : BitVec 4} {top : Nat} {bs : List Byte} (p : Pending)
    (hl : l.dest = .handle h top) (hb : handleOf top (natOfBytes bs) = none)
    (hc : ∀ x, c.handles[h.toNat] = some x → x.prod < 2 * x.slotCount) :
    (c.commit { p with res := l.result bs }).handles = c.handles := by
  have same : (c.handles[h.toNat].map fun x => x.advance true 0) = c.handles[h.toNat] := by
    cases hx : c.handles[h.toNat] with
    | none => rfl
    | some x => exact congrArg some (advance_zero (hc x hx))
  rw [result_of_bad_record hl hb]
  show c.handles.set h.toNat (c.handles[h.toNat].map fun x => x.advance true 0) = c.handles
  rw [same, Vector.set_getElem_self]

/-- A core all of whose handles have a producer count that no record configures: 5 with one slot (03 R53 has it below 2). -/
def strayCore : Core :=
  { handles := Vector.replicate 16 (some { base := 0, slotBytes := 512, slotCount := 1, prod := 5, cons := 5 }) }

/-- The load of an HSET of h0 (08 R179). -/
def recordLoad : LocalLoad := { due := 2, readyAt := 3, slot := 1, ord := 0, addr := 0, len := 16, dest := .handle 0 0 }

theorem strayCore_handle_moves :
    (strayCore.commit { readyAt := 3, slot := 1, ord := 0, res := .advance 0 true 0 }).handles ≠ strayCore.handles := by
  intro h
  have h0 := congrArg (fun v : Vector (Option Handle) 16 => (v[0]).map (·.prod)) h
  revert h0
  decide

/-- Refutes O5 in its part about loads: a record that has turned bad is committed as an advance by 0 slots, and on a core whose handle
has a producer count of 5 with one slot, which the statement does not exclude, that changes the count to 1. Where the count is in its
range the handle stays as it is (`handles_commit_of_bad_record`); the other two parts of O5 hold (`localMovesDeliver`, `spillMovesDeliver`). -/
theorem not_localAndSpillMovesDeliver : ¬ Obligations.LocalAndSpillMovesDeliver := by
  rintro ⟨-, -, loads⟩
  obtain ⟨-, -, -, -, -, -, keeps⟩ := loads recordLoad [] 0 0 0 0 0
  have hbad : handleOf 0 (natOfBytes []) = none := by decide
  have h := keeps strayCore { readyAt := 3, slot := 1, ord := 0, res := .advance 0 true 0 } rfl hbad
  rw [result_of_bad_record rfl hbad] at h
  exact strayCore_handle_moves h

/-! ### MFC and MTC (03 R47, R60; 08 R173) -/

theorem exec_mfc (s : State) (d : BitVec 5) (index : BitVec 12) : exec (.mfc d index) s =
    .next (s.orRaise (s.trapMfc index) fun s => s.delivering 1 [.s d ((s.ctlRead s.cur index.toNat).getD 0)]) := rfl

theorem exec_mtc (s : State) (a : BitVec 5) (index : BitVec 12) : exec (.mtc a index) s =
    .next (s.orRaise (s.trapMtc a index) fun s => s.delivering 1 [.ctrl index.toNat (s.me.rs a)]) := rfl

theorem trapMtc_of_some {s : State} {a : BitVec 5} {index : BitVec 12} {v : Word} (hv : s.ctlRead s.cur index.toNat = some v) :
    s.trapMtc a index = failIf (!ctlLegal index.toNat (s.me.rs a)) (.trap 0x03 (s.me.rs a) 0) := by
  rw [State.trapMtc, hv, Option.isNone_some, failIf_false]
  rfl

theorem trapMtc_of_none {s : State} (a : BitVec 5) {index : BitVec 12} (hv : s.ctlRead s.cur index.toNat = none) :
    s.trapMtc a index = some s.illegal := by
  rw [State.trapMtc, hv, Option.isNone_none, failIf_true, pickRaise_first _ _ rfl]

theorem controlRegisterMoves : ControlRegisterMoves := by
  intro s d a index
  refine ⟨fun v hv => ?_, fun v hv hl => ?_, fun v hv hl => ?_, fun hv => ⟨?_, ?_⟩⟩
  · rw [exec_mfc, State.trapMfc, hv, Option.isNone_some, failIf_false, orRaise_none, hv, Option.getD_some]
  · rw [exec_mtc, trapMtc_of_some hv, hl, Bool.not_true, failIf_false, orRaise_none]
  · rw [exec_mtc, trapMtc_of_some hv, hl, Bool.not_false, failIf_true, orRaise_some]
  · rw [exec_mfc, State.trapMfc, hv, Option.isNone_none, failIf_true, orRaise_some]
  · rw [exec_mtc, trapMtc_of_none a hv, orRaise_some]

/-! ### MFV and MTV (03 R46, 08 R174) -/

theorem testBit_withBits (x lo n v i : Nat) :
    (withBits x lo n v).testBit i = if lo ≤ i ∧ i < lo + n then v.testBit (i - lo) else x.testBit i := by
  have hlow : x % 2 ^ lo < 2 ^ lo := Nat.mod_lt _ (Nat.two_pow_pos lo)
  have hfield : v % 2 ^ n < 2 ^ n := Nat.mod_lt _ (Nat.two_pow_pos n)
  have split : withBits x lo n v = 2 ^ lo * (2 ^ n * (x / 2 ^ (lo + n)) + v % 2 ^ n) + x % 2 ^ lo := by
    rw [withBits, Nat.pow_add]
    ring
  rw [split, Nat.testBit_two_pow_mul_add _ hlow, Nat.testBit_two_pow_mul_add _ hfield]
  simp only [Nat.testBit_mod_two_pow, Nat.testBit_div_two_pow]
  obtain hi | hi := Nat.lt_or_ge i lo
  · rw [if_pos hi, if_neg (by omega), decide_eq_true hi, Bool.true_and]
  · obtain hn | hn := Nat.lt_or_ge i (lo + n)
    · rw [if_neg (by omega), if_pos (by omega), if_pos ⟨hi, hn⟩, decide_eq_true (by omega), Bool.true_and]
    · rw [if_neg (by omega), if_neg (by omega), if_neg (by omega)]
      congr 1
      omega

theorem testBit_elem (v : VecReg) (w i j : Nat) : (elem v w i).testBit j = (decide (j < w) && v.toNat.testBit (j + w * i)) := by
  rw [elem, Nat.testBit_mod_two_pow, Nat.testBit_div_two_pow]

theorem testBit_vecPutElem (v : VecReg) {el i : Nat} (x : Nat) (hi : i < 4096) : (vecPutElem v el x).toNat.testBit i =
    if 32 * el ≤ i ∧ i < 32 * el + 32 then x.testBit (i - 32 * el) else v.toNat.testBit i := by
  rw [vecPutElem, BitVec.testBit_toNat, BitVec.getLsbD_ofNat, decide_eq_true hi, Bool.true_and, testBit_withBits]

theorem elem_vecPutElem_same (v : VecReg) {el : Nat} (x : Nat) (h : el < 128) : elem (vecPutElem v el x) 32 el = x % 2 ^ 32 := by
  refine Nat.eq_of_testBit_eq fun j => ?_
  rw [testBit_elem, Nat.testBit_mod_two_pow]
  by_cases hj : j < 32
  · rw [testBit_vecPutElem v x (by omega), if_pos (by omega), Nat.add_sub_cancel]
  · rw [decide_eq_false hj, Bool.false_and, Bool.false_and]

theorem elem_vecPutElem_ne (v : VecReg) {el i : Nat} (x : Nat) (hi : i < 128) (hne : i ≠ el) :
    elem (vecPutElem v el x) 32 i = elem v 32 i := by
  refine Nat.eq_of_testBit_eq fun j => ?_
  rw [testBit_elem, testBit_elem]
  by_cases hj : j < 32
  · rw [testBit_vecPutElem v x (by omega), if_neg (by omega)]
  · rw [decide_eq_false hj, Bool.false_and, Bool.false_and]

theorem exec_mfv (s : State) (d : BitVec 5) (v : BitVec 6) (el : BitVec 7) : exec (.mfv d v el) s =
    .next (s.orRaise (s.vwinCheck [v.toNat]) fun s =>
      s.delivering 3 [.s d (BitVec.ofNat 64 (elem (s.me.rv v.toNat) 32 el.toNat))]) := rfl

theorem exec_mtv (s : State) (v : BitVec 6) (a : BitVec 5) (el : BitVec 7) : exec (.mtv v a el) s =
    .next (s.orRaise (s.vwinCheck [v.toNat]) fun s => s.delivering 2
      [.vec (s.me.phys v.toNat) (vecPutElem (s.me.rv v.toNat) el.toNat ((s.me.rs a).toNat % 2 ^ 32)) false]) := rfl

theorem vectorElementMoves : VectorElementMoves := by
  intro s d a v el hv
  refine ⟨vecPutElem (s.me.rv v.toNat) el.toNat ((s.me.rs a).toNat % 2 ^ 32), ?_, ?_, ?_, fun i => elem_vecPutElem_ne _ _⟩
  · rw [exec_mfv, vwinCheck_of_usable hv, orRaise_none]
  · rw [exec_mtv, vwinCheck_of_usable hv, orRaise_none]
  · rw [elem_vecPutElem_same _ _ el.isLt, Nat.mod_mod]

/-- Settles O6: the moves are their checks and then their result, and a replaced field of bits leaves every other field. -/
theorem registerMovesDeliver : Obligations.RegisterMovesDeliver := ⟨controlRegisterMoves, vectorElementMoves⟩

end Sys2Proof.Proofs
end

section
/-! PROOFS. Branches, calls and hardware loops of the K slot (03 R44, R48; 08 R148 to R154; 19 R346): what goes where, O10; how loops begin
and end, O11; and what the end of a body resolves, O12. -/

namespace Sys2Proof.Proofs

open Sys2Proof Sys2Proof.Machine Sys2Proof.Laws

/-! ### Results in flight, and then a branch (08 R147, R148) -/

theorem branch_delivering (s : State) (target : Word) (delay : Nat) (l : List Result) :
    (s.delivering 1 l).branch target delay = s.redirected target delay l := by
  rw [State.branch, modMe_eq_withMe, me_delivering]
  exact withMe_withMe s _ _

theorem branch_eq_redirected (s : State) (target : Word) (delay : Nat) : s.branch target delay = s.redirected target delay [] := by
  rw [← branch_delivering, delivering_nil]

/-! ### Branches and calls (08 R149) -/

/-- A bundle address of 48 bits (07 R120). -/
def BundleAddress (w : Word) : Prop := w.toNat % 32 = 0 ∧ w.toNat < 2 ^ 48

theorem badTarget_eq_false_iff (w : Word) : badTarget w = false ↔ BundleAddress w := by
  simp only [badTarget, wideTarget, Bool.or_eq_false_iff, decide_eq_false_iff_not, not_not, not_le, BundleAddress]

theorem trapTarget_good {s : State} {w : Word} (h : BundleAddress w) : s.trapTarget w = none := by
  rw [State.trapTarget, (badTarget_eq_false_iff w).2 h, failIf_false]

theorem trapTarget_bad {s : State} {w : Word} (h : ¬ BundleAddress w) : s.trapTarget w = some s.illegal := by
  rw [State.trapTarget, Bool.of_not_eq_false (mt (badTarget_eq_false_iff w).1 h), failIf_true]

theorem trapOffset_good {s : State} {off : BitVec 22} (h : (s.me.offTarget off).toNat < 2 ^ 48) : s.trapOffset off = none :=
  failIf_decide_of_not _ (Nat.not_le.2 h)

theorem trapOffset_bad {s : State} {off : BitVec 22} (h : 2 ^ 48 ≤ (s.me.offTarget off).toNat) : s.trapOffset off = some s.illegal :=
  failIf_decide_of _ h

/-- ln in flight, as a call puts it there (08 R149). -/
def linkResult (s : State) : Result := .ctrl 0x01B (s.me.pc + 32)

theorem exec_br (s : State) (off : BitVec 22) : exec (.br off) s =
    .next (s.orRaise (s.trapOffset off) fun s => s.redirected (s.me.offTarget off) 1 []) := by
  simp only [← branch_eq_redirected]
  rfl

theorem exec_call (s : State) (off : BitVec 22) : exec (.call off) s =
    .next (s.orRaise (s.trapOffset off) fun s => s.redirected (s.me.offTarget off) 1 [linkResult s]) := by
  simp only [← branch_delivering]
  rfl

theorem exec_bri (s : State) (a : BitVec 5) : exec (.bri a) s =
    .next (s.orRaise (s.trapTarget (s.me.rs a)) fun s => s.redirected (s.me.rs a) 3 []) := by
  simp only [← branch_eq_redirected]
  rfl

theorem exec_calli (s : State) (a : BitVec 5) : exec (.calli a) s =
    .next (s.orRaise (s.trapTarget (s.me.rs a)) fun s => s.redirected (s.me.rs a) 3 [linkResult s]) := by
  simp only [← branch_delivering]
  rfl

theorem exec_ret (s : State) : exec .ret s =
    .next (s.orRaise (s.trapTarget s.me.ctl.ln) fun s => s.redirected s.me.ctl.ln 3 []) := by
  simp only [← branch_eq_redirected]
  rfl

/-- Settles O10: each branch is its check, and then its redirection with ln in flight for the calls. -/
theorem branchesRedirect : Obligations.BranchesRedirect := by
  intro s off a good ln rel
  refine ⟨fun h => ⟨?_, ?_⟩, fun h => ⟨?_, ?_⟩, fun h => ⟨?_, ?_⟩, fun h => ?_, fun h => ⟨?_, ?_⟩, fun h => ?_⟩
  · rw [exec_br, trapOffset_good h, orRaise_none]
    rfl
  · rw [exec_call, trapOffset_good h, orRaise_none]
    rfl
  · rw [exec_br, trapOffset_bad h, orRaise_some]
  · rw [exec_call, trapOffset_bad h, orRaise_some]
  · rw [exec_bri, trapTarget_good h, orRaise_none]
  · rw [exec_calli, trapTarget_good h, orRaise_none]
    rfl
  · rw [exec_ret, trapTarget_good h, orRaise_none]
  · rw [exec_bri, trapTarget_bad h, orRaise_some]
  · rw [exec_calli, trapTarget_bad h, orRaise_some]
  · rw [exec_ret, trapTarget_bad h, orRaise_some]

/-! ### Loops begin (08 R151) -/

/-- The record of a loop instruction made, and nothing else changed. -/
def loopMade (s : State) (lc : BitVec 2) (len : Nat) (modulo : Bool) (stages : Nat) : State :=
  s.withMe { s.me with loops := s.me.loops.set lc.toNat (loopStarted s.me len modulo stages) }

/-- The stage predicates as MLOOP begins with them: p8 alone (08 R151). -/
def firstStage : List Result := (List.range 8).map fun i => .p (BitVec.ofNat 4 (8 + i)) (i == 0)

theorem startLoop_zero (s : State) (lc : BitVec 2) (len : Nat) (modulo : Bool) (stages : Nat) :
    s.startLoop lc 0 len modulo stages =
      s.redirected (s.me.pc + BitVec.ofNat 64 (32 * len) + 32) 1 [.ctrl (0x020 + lc.toNat) 0] := by
  rw [← branch_delivering]
  rfl

theorem startLoop_nonzero (s : State) (lc : BitVec 2) {count : Nat} (len : Nat) (modulo : Bool) (stages : Nat) (h : count ≠ 0) :
    s.startLoop lc count len modulo stages =
      let t := (loopMade s lc len modulo stages).delivering 1
        [.ctrl (0x020 + lc.toNat) (BitVec.ofNat 64 (count + if modulo then stages - 1 else 0))]
      (if modulo then (List.range 8).foldl (fun t i => t.emit 1 (.p (BitVec.ofNat 4 (8 + i)) (i == 0))) t else t).branch
        (s.me.pc + 32) 1 :=
  if_neg h

theorem startLoop_plain (s : State) (lc : BitVec 2) {count : Nat} (len : Nat) (h : count ≠ 0) :
    s.startLoop lc count len false 1 = (loopMade s lc len false 1).redirected (s.me.pc + 32) 1
      [.ctrl (0x020 + lc.toNat) (BitVec.ofNat 64 count)] :=
  (startLoop_nonzero s lc len false 1 h).trans (branch_delivering _ _ _ _)

/-- Results put in flight one after the other are in flight together. -/
theorem foldl_emit (s : State) (lat : Nat) (l : List Result) (f : Nat → Result) (is : List Nat) :
    is.foldl (fun s i => s.emit lat (f i)) (s.delivering lat l) = s.delivering lat (l ++ is.map f) := by
  induction is generalizing l with
  | nil => rw [List.foldl_nil, List.map_nil, List.append_nil]
  | cons i is ih => rw [List.foldl_cons, emit_delivering, ih, List.append_assoc, List.map_cons, List.singleton_append]

theorem startLoop_modulo (s : State) (lc : BitVec 2) {count : Nat} (len st : Nat) (h : count ≠ 0) :
    s.startLoop lc count len true (st + 1) = (loopMade s lc len true (st + 1)).redirected (s.me.pc + 32) 1
      (.ctrl (0x020 + lc.toNat) (BitVec.ofNat 64 (count + st)) :: firstStage) := by
  rw [startLoop_nonzero s lc len true (st + 1) h, ← branch_delivering]
  simp only [if_true, foldl_emit, Nat.add_sub_cancel, List.singleton_append, firstStage]

theorem exec_loop (s : State) (lc : BitVec 2) (r : BitVec 5) (len : BitVec 15) : exec (.loop lc r len) s =
    .next (s.orRaise (failIf (len.toNat == 0) s.illegal) fun s => s.startLoop lc ((s.me.rs r).toNat % 2 ^ 32) len.toNat false 1) := rfl

theorem exec_loopi (s : State) (lc : BitVec 2) (count len : BitVec 10) : exec (.loopi lc count len) s =
    .next (s.orRaise (failIf (len.toNat == 0) s.illegal) fun s => s.startLoop lc count.toNat len.toNat false 1) := rfl

theorem exec_mloop (s : State) (lc : BitVec 2) (r : BitVec 5) (st : BitVec 4) (len : BitVec 11) : exec (.mloop lc r st len) s =
    .next (s.orRaise (s.trapMloop lc r st len) fun s =>
      s.startLoop lc ((s.me.rs r).toNat % 2 ^ 32) len.toNat true (st.toNat + 1)) := rfl

theorem lengthCheck_pos {n : Nat} {r : Raise} (h : 0 < n) : failIf (n == 0) r = none := by
  rw [beq_eq_false_iff_ne.2 h.ne', failIf_false]

theorem loopsStart : LoopsStart := by
  intro s lc r len count len10 past made
  refine ⟨fun hl hc => ?_, fun hl hc => ?_, fun hl hc => ?_, fun hl hc => ?_, fun hl => ?_, fun hl => ?_⟩
  · rw [exec_loop, lengthCheck_pos hl, orRaise_none, hc, startLoop_zero]
  · rw [exec_loop, lengthCheck_pos hl, orRaise_none, startLoop_plain s lc _ hc]
    rfl
  · rw [exec_loopi, lengthCheck_pos hl, orRaise_none, hc]
    exact congrArg _ (startLoop_zero s lc _ false 1)
  · rw [exec_loopi, lengthCheck_pos hl, orRaise_none, startLoop_plain s lc _ fun h0 => hc (BitVec.eq_of_toNat_eq h0)]
    rfl
  · rw [exec_loop, hl]
    rfl
  · rw [exec_loopi, hl]
    rfl

/-! ### MLOOP (08 R151; log 14) -/

/-- What MLOOP is refused for. -/
def MloopRefused (s : State) (lc : BitVec 2) (r : BitVec 5) (st : BitVec 4) (len : BitVec 11) : Prop :=
  len = 0 ∨ 8 < st.toNat + 1 ∨ 2 ^ 32 - (st.toNat + 1) < (s.me.rs r).toNat % 2 ^ 32 ∨
    ∃ k : Fin 4, k.val ≠ lc.toNat ∧ (s.me.loops[k]).active = true ∧ (s.me.loops[k]).modulo = true

theorem trapMloop_eq_ite (s : State) (lc : BitVec 2) (r : BitVec 5) (st : BitVec 4) (len : BitVec 11)
    [Decidable (MloopRefused s lc r st len)] :
    s.trapMloop lc r st len = if MloopRefused s lc r st len then some s.illegal else none := by
  have zero : (len.toNat == 0) = true ↔ len = 0 := by
    rw [beq_iff_eq]
    exact ⟨fun h => BitVec.eq_of_toNat_eq h, fun h => by rw [h]; rfl⟩
  have stages : decide (7 < st.toNat) = true ↔ 8 < st.toNat + 1 := by
    rw [decide_eq_true_iff]
    omega
  refine if_congr ?_ rfl rfl
  simp only [Bool.or_eq_true, zero, stages, decide_eq_true_iff, or_assoc, List.any_eq_true, List.mem_finRange, true_and,
    Bool.and_eq_true, bne_iff_ne, and_assoc, MloopRefused]

theorem moduloLoopStarts : ModuloLoopStarts := by
  classical
  intro s lc r st len n other bad
  refine ⟨fun hb (hn : (s.me.rs r).toNat % 2 ^ 32 = 0) => ?_, fun hb hn => ?_, fun hb => ?_⟩
  · have check : s.trapMloop lc r st len = none := (trapMloop_eq_ite ..).trans (if_neg hb)
    rw [exec_mloop, check, orRaise_none, hn, startLoop_zero]
  · have check : s.trapMloop lc r st len = none := (trapMloop_eq_ite ..).trans (if_neg hb)
    rw [exec_mloop, check, orRaise_none, startLoop_modulo s lc _ _ hn]
    rfl
  · have check : s.trapMloop lc r st len = some s.illegal := (trapMloop_eq_ite ..).trans (if_pos hb)
    rw [exec_mloop, check, orRaise_some]

/-! ### LEXIT and ROT (08 R153, R154) -/

theorem loopExitAndRotation : LoopExitAndRotation := by
  intro s lc imm r
  refine ⟨fun h => ?_, fun h => ?_, rfl⟩
  · rw [← branch_delivering]
    exact congrArg _ (if_pos h)
  · exact congrArg _ (if_neg (Bool.eq_false_iff.1 h))

/-- Settles O11: a loop instruction is its check and then the skip or the record with what it puts in flight. -/
theorem loopsStartAndEnd : Obligations.LoopsStartAndEnd := ⟨loopsStart, moduloLoopStarts, loopExitAndRotation⟩

/-! ### The record that a bundle ends (08 R152, 19 R346) -/

/-- A record that a bundle at this address ends: active, and masked by no handler's entry. -/
def EndsAt (c : Core) (pc : Word) (n : Fin 4) : Prop :=
  (c.loops[n]).active = true ∧ (c.loops[n]).maskU = false ∧ (c.loops[n]).maskS = false ∧ (c.loops[n]).stop = pc

/-- One record looked at in the search for the most recently started one that ends here. -/
def laterEnding (c : Core) (pc : Word) (best : Option (Fin 4)) (n : Fin 4) : Option (Fin 4) :=
  let r := c.loops[n]
  let later := match best with
    | none => true
    | some m => decide (c.loops[m].order < r.order)
  if r.active && !r.maskU && !r.maskS && r.stop == pc && later then some n else best

theorem endingLoop_eq_foldl (c : Core) (pc : Word) : c.endingLoop pc = (List.finRange 4).foldl (laterEnding c pc) none := rfl

theorem endsAt_iff (c : Core) (pc : Word) (n : Fin 4) : EndsAt c pc n ↔
    ((c.loops[n]).active && !(c.loops[n]).maskU && !(c.loops[n]).maskS && (c.loops[n]).stop == pc) = true := by
  simp only [EndsAt, Bool.and_eq_true, Bool.not_eq_true', beq_iff_eq, and_assoc]

theorem laterEnding_of_not {c : Core} {pc : Word} {n : Fin 4} (best : Option (Fin 4)) (h : ¬ EndsAt c pc n) :
    laterEnding c pc best n = best := by
  rw [endsAt_iff, Bool.not_eq_true] at h
  simp only [laterEnding, h, Bool.false_and, Bool.false_eq_true, if_false]

theorem laterEnding_none {c : Core} {pc : Word} {n : Fin 4} (h : EndsAt c pc n) : laterEnding c pc none n = some n := by
  rw [endsAt_iff] at h
  simp only [laterEnding, h, Bool.true_and, if_true]

theorem laterEnding_some {c : Core} {pc : Word} {n : Fin 4} (m : Fin 4) (h : EndsAt c pc n) :
    laterEnding c pc (some m) n = if (c.loops[m]).order < (c.loops[n]).order then some n else some m := by
  rw [endsAt_iff] at h
  simp only [laterEnding, h, Bool.true_and, decide_eq_true_eq]

/-- A record that the search answers ends here. -/
theorem endsAt_of_foldl {c : Core} {pc : Word} {n : Fin 4} {l : List (Fin 4)} {best : Option (Fin 4)}
    (hb : ∀ m ∈ best, EndsAt c pc m) (h : l.foldl (laterEnding c pc) best = some n) : EndsAt c pc n := by
  induction l generalizing best with
  | nil => exact hb n h
  | cons k l ih =>
    refine ih (fun m hm => ?_) h
    by_cases hk : EndsAt c pc k
    · obtain heq | heq : laterEnding c pc best k = some k ∨ laterEnding c pc best k = best := ite_eq_or_eq _ _ _
      · rw [heq, Option.mem_some_iff] at hm
        exact hm ▸ hk
      · exact hb m (heq ▸ hm)
    · exact hb m (laterEnding_of_not best hk ▸ hm)

theorem endsAt_of_endingLoop {c : Core} {pc : Word} {n : Fin 4} (h : c.endingLoop pc = some n) : EndsAt c pc n :=
  endsAt_of_foldl (fun m hm => absurd hm (Option.not_mem_none m)) h

theorem endingLoop_eq_none {c : Core} {pc : Word} (h : ∀ m, ¬ EndsAt c pc m) : c.endingLoop pc = none :=
  Option.eq_none_iff_forall_ne_some.2 fun n hn => h n (endsAt_of_endingLoop hn)

section
variable {c : Core} {pc : Word} {n : Fin 4} (hlast : ∀ m, m ≠ n → EndsAt c pc m → (c.loops[m]).order < (c.loops[n]).order)
include hlast

/-- Once found, the record started last stays the answer. -/
theorem foldl_laterEnding_found (l : List (Fin 4)) : l.foldl (laterEnding c pc) (some n) = some n := by
  induction l with
  | nil => rfl
  | cons k l ih =>
    have keep : laterEnding c pc (some n) k = some n := by
      by_cases hk : EndsAt c pc k
      · have older : ¬ (c.loops[n]).order < (c.loops[k]).order := by
          by_cases hkn : k = n
          · rw [hkn]
            exact Nat.lt_irrefl _
          · exact (hlast k hkn hk).asymm
        rw [laterEnding_some n hk, if_neg older]
      · exact laterEnding_of_not _ hk
    rw [List.foldl_cons, keep, ih]

variable (hn : EndsAt c pc n)
include hn

/-- The record started last is found where it is among those still to be looked at. -/
theorem foldl_laterEnding_of_mem {l : List (Fin 4)} {best : Option (Fin 4)} (hl : n ∈ l) (hb : ∀ m ∈ best, EndsAt c pc m) :
    l.foldl (laterEnding c pc) best = some n := by
  induction l generalizing best with
  | nil => cases hl
  | cons k l ih =>
    rw [List.foldl_cons]
    by_cases hkn : k = n
    · have take : laterEnding c pc best k = some n := by
        rw [hkn]
        cases best with
        | none => exact laterEnding_none hn
        | some m =>
          rw [laterEnding_some m hn]
          by_cases hmn : m = n
          · rw [hmn, ite_self]
          · exact if_pos (hlast m hmn (hb m rfl))
      rw [take, foldl_laterEnding_found hlast]
    · refine ih ((List.mem_cons.1 hl).resolve_left (Ne.symm hkn)) fun m hm => ?_
      exact endsAt_of_foldl (l := [k]) hb hm

theorem endingLoop_eq_some : c.endingLoop pc = some n :=
  foldl_laterEnding_of_mem hlast hn (List.mem_finRange n) fun m hm => absurd hm (Option.not_mem_none m)

end

/-! ### Loop-back (03 R44, R48; 08 R152) -/

/-- The base of the rotating names after a rotation by so many names. -/
def rotatedBase (t : Ctl) (n : Nat) : BitVec 10 :=
  if t.rsize.toNat = 0 then t.rrb else BitVec.ofNat 10 (((t.rrb.toNat : Int) - n) % t.rsize.toNat).toNat

theorem rotate_eq (c : Core) (n : Nat) : c.rotate n = { c with ctl := { c.ctl with rrb := rotatedBase c.ctl n } } := by
  by_cases h : c.ctl.rsize.toNat = 0
  · rw [rotatedBase, if_pos h]
    exact if_pos h
  · rw [rotatedBase, if_neg h]
    exact if_neg h

theorem toNat_rotatedBase {t : Ctl} (n : Nat) (h0 : 0 < t.rsize.toNat) (h : t.rsize.toNat ≤ 1024) :
    (rotatedBase t n).toNat = (((t.rrb.toNat : Int) - n) % t.rsize.toNat).toNat := by
  have hlt := Int.emod_lt_of_pos ((t.rrb.toNat : Int) - n) (Int.natCast_pos.2 h0)
  rw [rotatedBase, if_neg h0.ne', BitVec.toNat_ofNat]
  exact Nat.mod_eq_of_lt (by omega)

/-- The stage predicates of a file shifted upward by those that stand, with p8 as given (08 R152). -/
def shifted (p : Vector Bool 16) (more : Bool) (old : Vector Bool 16) : Vector Bool 16 :=
  Vector.ofFn fun i : Fin 16 => if i.val < 8 then old[i] else if i.val = 8 then more else p[i.val - 1]

theorem shiftStages_eq (c : Core) (more : Bool) :
    c.shiftStages more = { c with p := shifted c.p more c.p, pPrev := shifted c.p more c.pPrev } := rfl

/-- The body of a loop has an iteration more to begin after this one (08 R152). -/
def moreStages (c : Core) (n : Fin 4) : Bool := decide ((c.loops[n]).stages - 1 < (c.ctl.lc[n]).toNat - 1)

/-- A core whose loop goes round once more: the counter down by one, at the start of the body, a modulo body's stages and names moved
on. -/
def iterated (c : Core) (n : Fin 4) : Core :=
  let d := c.setLc n (c.ctl.lc[n] - 1)
  { (if (c.loops[n]).modulo
      then (d.shiftStages (moreStages c n)).rotate c.ctl.rstep.toNat else d) with
    pc := (c.loops[n]).start }

theorem iterated_plain {c : Core} {n : Fin 4} (h : (c.loops[n]).modulo = false) : iterated c n =
    { c with pc := (c.loops[n]).start, ctl := { c.ctl with lc := c.ctl.lc.set n (c.ctl.lc[n] - 1) } } := by
  simp only [iterated, h, Bool.false_eq_true, if_false]
  rfl

theorem iterated_modulo {c : Core} {n : Fin 4} (h : (c.loops[n]).modulo = true) : iterated c n =
    { c with
      pc := (c.loops[n]).start, p := shifted c.p (moreStages c n) c.p, pPrev := shifted c.p (moreStages c n) c.pPrev
      ctl := { c.ctl with lc := c.ctl.lc.set n (c.ctl.lc[n] - 1), rrb := rotatedBase c.ctl c.ctl.rstep.toNat } } := by
  simp only [iterated, h, if_true, rotate_eq, shiftStages_eq]
  rfl

/-- A core whose record falls out: its counter 0, the record inactive (08 R152). -/
def fallenOut (c : Core) (n : Fin 4) : Core := (c.setLc n 0).setLoop n { c.loops[n] with active := false }

theorem loopBack_none {c : Core} (fuel : Nat) (h : c.endingLoop c.pc = none) : c.loopBack fuel = { c with pc := c.pc + 32 } := by
  cases fuel with
  | zero => rfl
  | succ fuel => simp only [Core.loopBack, h]

theorem loopBack_some {c : Core} {n : Fin 4} (fuel : Nat) (h : c.endingLoop c.pc = some n) :
    c.loopBack (fuel + 1) = if 1 < (c.ctl.lc[n]).toNat then iterated c n else (fallenOut c n).loopBack fuel := by
  simp only [Core.loopBack, h]
  rfl

/-- The active records of a core. -/
def activeLoops (c : Core) : Nat := c.loops.countP (·.active)

theorem activeLoops_fallenOut {c : Core} {n : Fin 4} (h : (c.loops[n]).active = true) :
    activeLoops (fallenOut c n) + 1 = activeLoops c := by
  have pos : 0 < activeLoops c := Vector.countP_pos_iff.2 ⟨c.loops[n], Vector.getElem_mem n.isLt, h⟩
  have count : activeLoops (fallenOut c n) = activeLoops c - 1 := by
    show (c.loops.set n.val { c.loops[n] with active := false }).countP (·.active) = _
    rw [Vector.countP_set]
    simp only [Fin.getElem_fin] at h
    simp [h, activeLoops]
  omega

/-- Fuel for the active records is enough. -/
theorem loopBack_succ {c : Core} {fuel : Nat} (h : activeLoops c ≤ fuel) : c.loopBack (fuel + 1) = c.loopBack fuel := by
  induction fuel generalizing c with
  | zero =>
    cases he : c.endingLoop c.pc with
    | none => rw [loopBack_none _ he, loopBack_none _ he]
    | some n =>
      have := activeLoops_fallenOut (endsAt_of_endingLoop he).1
      omega
  | succ fuel ih =>
    cases he : c.endingLoop c.pc with
    | none => rw [loopBack_none _ he, loopBack_none _ he]
    | some n =>
      have := activeLoops_fallenOut (endsAt_of_endingLoop he).1
      rw [loopBack_some _ he, loopBack_some _ he, ih (by omega)]

theorem advance_iterates {c : Core} {n : Fin 4} (h : c.endingLoop c.pc = some n) (hk : 1 < (c.ctl.lc[n]).toNat) :
    c.advance = iterated c n :=
  (loopBack_some 3 h).trans (if_pos hk)

theorem advance_fallsOut {c : Core} {n : Fin 4} (h : c.endingLoop c.pc = some n) (hk : (c.ctl.lc[n]).toNat ≤ 1) :
    c.advance = (fallenOut c n).advance := by
  have fewer := activeLoops_fallenOut (endsAt_of_endingLoop h).1
  have most : activeLoops c ≤ 4 := Vector.countP_le_size
  exact ((loopBack_some 3 h).trans (if_neg (Nat.not_lt.2 hk))).trans (loopBack_succ (by omega)).symm

theorem getElem_lc_iterated {c t : Core} {n m : Fin 4} {v : BitVec 32} (h : t.ctl.lc = c.ctl.lc.set n v) :
    t.ctl.lc[m] = if m = n then v else c.ctl.lc[m] := by
  simp only [Fin.getElem_fin, h, Vector.getElem_set, Fin.ext_iff, eq_comm]

theorem loopBackIterates : LoopBackIterates := by
  intro c n ha hu hs hstop hlast hk t
  have ht : t = iterated c n :=
    advance_iterates (endingLoop_eq_some (fun m hm he => hlast m hm he.1) ⟨ha, hu, hs, hstop⟩) hk
  cases hmod : (c.loops[n]).modulo with
  | false =>
    have same := ht.trans (iterated_plain hmod)
    have lc (m : Fin 4) := getElem_lc_iterated (m := m) (congrArg (fun x : Core => x.ctl.lc) same)
    refine ⟨?_, (lc n).trans (if_pos rfl), fun m hm => (lc m).trans (if_neg hm), ?_, ?_, ?_, ?_, ?_, fun _ => ?_, nofun⟩
    all_goals rw [same]
    exact ⟨rfl, rfl⟩
  | true =>
    have same := ht.trans (iterated_modulo hmod)
    have lc (m : Fin 4) := getElem_lc_iterated (m := m) (congrArg (fun x : Core => x.ctl.lc) same)
    refine ⟨?_, (lc n).trans (if_pos rfl), fun m hm => (lc m).trans (if_neg hm), ?_, ?_, ?_, ?_, ?_, nofun,
      fun _ => ⟨fun i => ?_, fun h0 => ?_, fun h0 h1 => ?_⟩⟩
    all_goals rw [same]
    · exact Vector.getElem_ofFn _
    · exact if_pos (by rw [h0]; rfl)
    · exact toNat_rotatedBase _ h0 h1

theorem loopBackFallsOut : LoopBackFallsOut := by
  intro c n ends
  refine ⟨fun hn hlast hk => ?_, fun h => loopBack_none 4 (endingLoop_eq_none h)⟩
  exact advance_fallsOut (endingLoop_eq_some hlast hn) hk

/-- Settles O12: the search finds the record started last, and fuel for four records resolves every one that falls out. -/
theorem loopBackRepeats : Obligations.LoopBackRepeats := ⟨loopBackIterates, loopBackFallsOut⟩

end Sys2Proof.Proofs
end

section
/-! PROOFS. PROBE, EXIT, NOP, the spawns and CLKDIV (01 R18; 02 R36, R37; 05 R100; 08 R158, R160, R162, R165; log 16), O14; traps that
instructions meet, and the returns from their handlers (08 R163, R164; 19 R342, R349, R351; log 24), O17 and O18. -/

namespace Sys2Proof.Proofs

open Sys2Proof Sys2Proof.Machine Sys2Proof.Laws

/-! ### PROBE (05 R100, 08 R158) -/

theorem cachePage_tlb (s : State) (ia : Nat) : ∃ tlb, s.cachePage ia = { s with trans := { s.trans with tlb := tlb } } := by
  obtain h | h : s.cachePage ia = s ∨ s.cachePage ia = _ := ite_eq_or_eq _ _ _
  · exact ⟨s.trans.tlb, h⟩
  · exact ⟨_, h⟩

theorem cachePieces_nil (s : State) : s.cachePieces [] = s := rfl

/-- One piece of a range is looked at. -/
def cachePiece (s : State) (va : Nat) : State :=
  match translate s.me.sys.wins {} va with
  | .ok ia => if s.onModule ia then s.cachePage (iaLocal ia) else s
  | .error _ => s

theorem cachePiece_tlb (s : State) (va : Nat) : ∃ tlb, cachePiece s va = { s with trans := { s.trans with tlb := tlb } } := by
  unfold cachePiece
  split
  · split
    · exact cachePage_tlb s _
    · exact ⟨s.trans.tlb, rfl⟩
  · exact ⟨s.trans.tlb, rfl⟩

/-- A look at the pieces of a range changes what the translation units hold and nothing else (21 R376). -/
theorem cachePieces_tlb (s : State) (l : List Nat) : ∃ tlb, s.cachePieces l = { s with trans := { s.trans with tlb := tlb } } := by
  have steps (s : State) : ∃ tlb, l.foldl cachePiece s = { s with trans := { s.trans with tlb := tlb } } := by
    induction l generalizing s with
    | nil => exact ⟨s.trans.tlb, rfl⟩
    | cons va l ih =>
      obtain ⟨first, hfirst⟩ := cachePiece_tlb s va
      obtain ⟨rest, hrest⟩ := ih (cachePiece s va)
      refine ⟨rest, ?_⟩
      rw [List.foldl_cons, hrest, hfirst]
  exact steps s

theorem probePieces_zero (base : Nat) : probePieces base 0 = [] := by
  have none_left : ∀ i, ¬ max base ((base / 65536 + i) * 65536) < min base ((base / 65536 + i + 1) * 65536) := fun i => by omega
  simp [probePieces, cutAt, none_left]

/-- The state after a probe, with what the translation units hold of the pieces of its range. -/
def probed (s : State) (base len : BitVec 5) : State :=
  { s.cachePieces (if 2 ^ 48 < (s.me.rs base).toNat + (s.me.rs len).toNat then []
      else probePieces (s.me.rs base).toNat (s.me.rs len).toNat) with choices := s.choices + 1 }

theorem exec_probe (s : State) (base len : BitVec 5) (w : Bool) :
    exec (.probe base len w) s = .next ((probed s base len).orRaise (s.trapProbe base len w) id) := by
  show Host.Outcome.next (match s.trapProbe base len w with | some r => (probed s base len).raise r | none => probed s base len) = _
  cases s.trapProbe base len w <;> rfl

theorem probeExitAndNop : ProbeExitAndNop := by
  intro s base len w
  refine ⟨fun h0 => ?_, fun h0 hin hp => ?_, fun hout h0 => ?_, rfl, rfl⟩
  · have check : s.trapProbe base len w = none := if_pos h0
    have same : probed s base len = { s with choices := s.choices + 1 } := by
      rw [probed, h0, probePieces_zero, ite_self, cachePieces_nil]
    rw [exec_probe, check, orRaise_none, same, id]
  · have check : s.trapProbe base len w = none :=
      (if_neg h0).trans ((if_neg (Nat.not_lt.2 hin)).trans (List.findSome?_eq_none_iff.2 hp))
    obtain ⟨tlb, htlb⟩ := cachePieces_tlb s (probePieces (s.me.rs base).toNat (s.me.rs len).toNat)
    refine ⟨tlb, ?_⟩
    rw [exec_probe, check, orRaise_none, id, probed, if_neg (Nat.not_lt.2 hin), htlb]
  · have check : s.trapProbe base len w = some (.violation clsWindow (s.me.rs base).toNat) := (if_neg h0).trans (if_pos hout)
    rw [exec_probe, check, orRaise_some, probed, if_pos hout, cachePieces_nil]

/-! ### SPAWN and SPAWNW (02 R36, R37; 08 R162; log 16) -/

/-- The state in which the accept bit of a SPAWN of slot k is in flight besides (08 R162). -/
def spawnAnswered (t : State) (pd : BitVec 4) (issue readyAt : Nat) (b : Bool) : State :=
  t.withMe { t.me with
    pend := t.me.pend ++ [{ readyAt := max readyAt (t.me.sc + 1), slot := Slot.k.num, ord := issue, res := .p pd b }] }

/-- What becomes of a SPAWN with the answer to its submission: a spawn that is not accepted is counted, and a descriptor that cannot be
read is a violation (02 R36, 08 R162). -/
def spawnOutcome (t : State) (pd : BitVec 4) (issue readyAt : Nat) : Submission → State
  | .accepted => spawnAnswered t pd issue readyAt true
  | .violation cls addr => t.raise (.violation cls addr)
  | .lacking | .failed _ => spawnAnswered (t.charge t.me.ctl.region.toNat 0xD8 1) pd issue readyAt false

theorem exec_spawn (s : State) (task : BitVec 5) (pd : BitVec 4) : exec (.spawn task pd) s = .next (
    let f := s.flushStores s.cur
    if f.me.drained && f.me.spawns.isEmpty then
      match f.spawnAnswer (s.me.rs task) pd f.me.issue (f.me.sc + 16) with
      | (t, some (cls, addr)) => t.raise (.violation cls addr)
      | (t, none) => t
    else f.withMe { f.me with
      spawns := f.me.spawns ++ [{ issue := f.me.issue, pc := f.me.pc, task := s.me.rs task, pd := pd, readyAt := f.me.sc + 16 }] }) := rfl

/-- A SPAWN whose core's earlier stores have performed, and none of whose SPAWNs waits, is answered at once. -/
theorem exec_spawn_answered {s f t : State} {task : BitVec 5} (pd : BitVec 4) {r : Submission} (hf : s.flushStores s.cur = f)
    (hd : f.me.drained = true) (hs : f.me.spawns = [])
    (hr : f.submit (s.me.rs task) (.core f.cur) f.me.sys.wins f.me.ctl.region.toNat ((f.taskOf f.cur).map (·.va)) = (t, r)) :
    exec (.spawn task pd) s = .next (spawnOutcome t pd f.me.issue (f.me.sc + 16) r) := by
  have turn : (f.me.drained && f.me.spawns.isEmpty) = true := by rw [hd, hs]; rfl
  rw [exec_spawn, hf]
  refine congrArg _ ((if_pos turn).trans ?_)
  simp only [State.spawnAnswer, hr]
  cases r <;> rfl

/-- Any other waits for its turn. -/
theorem exec_spawn_waits {s f : State} (task : BitVec 5) (pd : BitVec 4) (hf : s.flushStores s.cur = f)
    (h : f.me.drained = false ∨ f.me.spawns ≠ []) : exec (.spawn task pd) s = .next (f.withMe { f.me with
      spawns := f.me.spawns ++ [{ issue := f.me.issue, pc := f.me.pc, task := s.me.rs task, pd := pd, readyAt := f.me.sc + 16 }] }) := by
  have turn : ¬ (f.me.drained && f.me.spawns.isEmpty) = true := by
    rw [Bool.and_eq_true, List.isEmpty_iff]
    rintro ⟨hd, hs⟩
    exact h.elim (fun h => absurd (hd.symm.trans h) nofun) (· hs)
  rw [exec_spawn, hf]
  exact congrArg _ (if_neg turn)

theorem exec_spawnw (s : State) (task : BitVec 5) :
    exec (.spawnw task) s = .next ((s.flushStores s.cur).beginWait (.spawn (s.me.rs task))) := rfl

theorem beginWait_of_error {s t : State} {w : Wait} {m : Raise} (h : s.waited.look s.cur w = (t, .error m)) :
    s.beginWait w = t.raise m := by
  simp only [State.beginWait, modMe_waitSince, cur_waited, h]

theorem spawnsSubmit : SpawnsSubmit := by
  intro s t task pd r f va w answer
  refine ⟨fun hd hs hr => ?_, fun hwait => ?_, fun h => ?_, fun h => ?_, fun m h => ?_⟩
  · have answered := exec_spawn_answered pd rfl hd hs hr
    refine ⟨fun ha => ?_, fun code hl => ?_, fun cls addr hv => ?_⟩
    · subst ha
      exact answered
    · obtain rfl | rfl := hl
      · exact answered
      · exact answered
    · subst hv
      exact answered
  · exact exec_spawn_waits task pd rfl hwait
  · exact congrArg _ (beginWait_of_holds h)
  · exact congrArg _ (beginWait_of_fails h)
  · exact congrArg _ (beginWait_of_error h)

/-! ### CLKDIV (01 R18, 08 R165) -/

theorem exec_clkdiv (s : State) (dom : Domain) (code : BitVec 4) : exec (.clkdiv dom code) s =
    .next (s.orRaise (s.trapClkdiv dom code) fun s => s.withMe { s.me with
      asked := s.me.asked.set (domIdx dom) code, clkNext := some (s.me.codesFor dom code) }) := rfl

theorem trapClkdiv_eq_none_iff (s : State) (dom : Domain) (code : BitVec 4) :
    s.trapClkdiv dom code = none ↔ code.toNat < 7 ∧ codesLegal (s.me.codesFor dom code) = true := by
  simp [State.trapClkdiv, failIf]

theorem clockRequests : ClockRequests := by
  intro s dom code asked codes
  refine ⟨fun hc hl => ?_, fun hbad => ?_⟩
  · have check : s.trapClkdiv dom code = none := (trapClkdiv_eq_none_iff s dom code).2 ⟨hc, hl⟩
    rw [exec_clkdiv, check, orRaise_none]
    rfl
  · have check : s.trapClkdiv dom code = some s.illegal := by
      refine if_pos ?_
      rwa [Bool.or_eq_true, decide_eq_true_iff, Bool.not_eq_true']
    rw [exec_clkdiv, check, orRaise_some]

/-- Settles O14: each instruction is its check and then its effect; a wait for an accepted spawn begins as every other wait. -/
theorem probesSpawnsAndClocksAct : Obligations.ProbesSpawnsAndClocksAct := ⟨probeExitAndNop, spawnsSubmit, clockRequests⟩

/-! ### Traps that an instruction meets (08 R163; 19 R342, R349; log 24) -/

theorem takeRaise_trap_of_ne {s : State} {cause : Nat} (t0 t1 : Word) (h : cause ≠ 0x13) :
    s.takeRaise (.trap cause t0 t1) = s.takeTrap s.cur s.curSlot.num cause true t0 t1 s.me.pc := by
  simp only [State.takeRaise, beq_iff_eq, h, if_false]

theorem takeRaise_swtrap (s : State) (t0 t1 : Word) : s.takeRaise (.trap 0x13 t0 t1) =
    (s.modMe (·.advance)).takeTrap s.cur s.curSlot.num 0x13 true t0 t1 s.me.advance.pc := by
  rw [← me_modMe s (·.advance)]
  rfl

theorem raisedTrapsAreTaken : RaisedTrapsAreTaken := by
  intro s cause t0 t1 imm ht
  refine ⟨fun hc => (raise_taken s _ ht).trans (takeRaise_trap_of_ne t0 t1 hc), ?_⟩
  exact congrArg _ ((raise_taken s _ ht).trans (takeRaise_swtrap s _ 0))

theorem nestedTrapsAreFatal : NestedTrapsAreFatal := by
  intro s c slot cause t0 t1 tbaddr
  refine ⟨fun hsys huh => ?_, fun hclass hsh => ?_⟩
  · rw [takeTrap_cases, if_pos ⟨huh, hsys⟩]
    rfl
  · have later : ¬((s.core c).sys.uh = true ∧ systemCause cause = false) := by
      rintro ⟨huh, hsys⟩
      obtain h | ⟨-, h⟩ := hclass
      · exact absurd (h.symm.trans hsys) nofun
      · exact absurd (h.symm.trans huh) nofun
    rw [takeTrap_cases, if_neg later, if_pos (hclass.imp_right And.left), if_pos hsh]
    rfl

/-- Settles O17: outside a trial what is met is taken, and a handler's own synchronous trap is fatal before it is entered. -/
theorem raisedAndNestedTraps : Obligations.RaisedAndNestedTraps := ⟨raisedTrapsAreTaken, nestedTrapsAreFatal⟩

/-! ### The returns (08 R164; 19 R351, R352) -/

theorem userReturn_eq (s : State) : s.userReturn = s.redirected s.me.sys.uret 3 [.tret] := by
  rw [State.userReturn, State.emit, modMe_modMe]
  rfl

theorem systemReturn_eq (s : State) : s.systemReturn = s.redirected s.me.sys.tbaddr 3 [.rte] := by
  rw [State.systemReturn, State.emit, modMe_modMe]
  rfl

theorem exec_tret (s : State) : exec .tret s = .next (s.orRaise s.trapTret State.userReturn) := rfl

theorem exec_rte (s : State) : exec .rte s = .next (s.orRaise s.trapRte State.systemReturn) := rfl

theorem trapTret_handler {s : State} (h : s.me.sys.uh = true) : s.trapTret = none := by
  rw [State.trapTret, h, Bool.not_true, failIf_false]

theorem trapTret_outside {s : State} (h : s.me.sys.uh = false) : s.trapTret = some s.illegal := by
  rw [State.trapTret, h, Bool.not_false, failIf_true]

theorem trapRte_handler {s : State} (hm : s.me.sys.mode = true) (hs : s.me.sys.sh = true) : s.trapRte = none := by
  rw [State.trapRte, (privCheck_eq_none s).2 hm, hm, hs]
  rfl

/-- Settles O18: a return is its check and then a redirection whose result restores the status. -/
theorem trapReturns : Obligations.TrapReturns := by
  intro s
  refine ⟨fun h => ?_, fun h => ?_, fun hm hs => ?_, fun p => rfl, fun p => rfl⟩
  · rw [exec_tret, trapTret_handler h, orRaise_none, userReturn_eq]
  · rw [exec_tret, trapTret_outside h, orRaise_some]
  · rw [exec_rte, trapRte_handler hm hs, orRaise_none, systemReturn_eq]

end Sys2Proof.Proofs
end

section
/-! PROOFS. Element-wise operations of the V slot (03 R46; 04 R66; 09 R184 to R188, R196): the elements of a register made of numbers, what
an integer operation leaves in each, O22; what each instruction on usable names delivers, O21, O23 and O24. -/

namespace Sys2Proof.Proofs

open Sys2Proof Sys2Proof.Machine Sys2Proof.Laws

/-! ### Elements of a register (03 R46) -/

/-- The digit at a place of the number that a list of digits makes. -/
theorem natOfElems_digit (w : Nat) (xs : List Nat) (i : Nat) : natOfElems w xs / 2 ^ (w * i) % 2 ^ w = xs.getD i 0 % 2 ^ w := by
  induction xs generalizing i with
  | nil => simp [natOfElems]
  | cons x xs ih =>
    cases i with
    | zero => simp [natOfElems]
    | succ i =>
      have hrest : (x % 2 ^ w + 2 ^ w * natOfElems w xs) / 2 ^ w = natOfElems w xs := by
        rw [Nat.add_mul_div_left _ _ (Nat.two_pow_pos w), Nat.div_eq_of_lt (Nat.mod_lt _ (Nat.two_pow_pos w)), Nat.zero_add]
      rw [natOfElems, Nat.mul_succ, Nat.add_comm (w * i), pow_add, ← Nat.div_div_eq_div_mul, hrest, ih, List.getD_cons_succ]

/-- An element of a register ends within its bits. -/
theorem elem_end_le {w i : Nat} (h : i < elemCount w) : w * i + w ≤ 4096 := by
  rw [← Nat.mul_succ, Nat.mul_comm]
  exact Nat.mul_le_of_le_div w (i + 1) 4096 h

/-- An element of a register made of numbers is that number, as far as its bits hold it. -/
theorem elem_vecOf {w i : Nat} (xs : List Nat) (h : i < elemCount w) : elem (vecOf w xs) w i = xs.getD i 0 % 2 ^ w := by
  rw [← natOfElems_digit]
  refine Nat.eq_of_testBit_eq fun j => ?_
  rw [testBit_elem, vecOf, BitVec.testBit_toNat, BitVec.getLsbD_ofNat, Nat.testBit_mod_two_pow, Nat.testBit_div_two_pow]
  by_cases hj : j < w
  · have hend := elem_end_le h
    rw [decide_eq_true (show j + w * i < 4096 by omega), Bool.true_and]
  · rw [decide_eq_false hj, Bool.false_and, Bool.false_and]

theorem elemsOfNat_getElem? (w : Nat) {n i : Nat} (x : Nat) (h : i < n) : (elemsOfNat w n x)[i]? = some (x / 2 ^ (w * i) % 2 ^ w) := by
  induction n generalizing x i with
  | zero => exact absurd h i.not_lt_zero
  | succ n ih =>
    cases i with
    | zero => simp [elemsOfNat]
    | succ i =>
      rw [elemsOfNat, List.getElem?_cons_succ, ih _ (Nat.lt_of_succ_lt_succ h), Nat.div_div_eq_div_mul, ← pow_add, Nat.mul_succ,
        Nat.add_comm w]

theorem elems_getElem? {w i : Nat} (v : VecReg) (h : i < elemCount w) : (elems v w)[i]? = some (elem v w i) :=
  elemsOfNat_getElem? w v.toNat h

theorem zip3_getElem? (f : Nat → Nat → Nat → Nat) {as bs cs : List Nat} {i a b c : Nat} (ha : as[i]? = some a) (hb : bs[i]? = some b)
    (hc : cs[i]? = some c) : (zip3 f as bs cs)[i]? = some (f a b c) := by
  induction as generalizing bs cs i with
  | nil => cases ha
  | cons x xs ih =>
    obtain _ | ⟨y, ys⟩ := bs
    · cases hb
    obtain _ | ⟨z, zs⟩ := cs
    · cases hc
    cases i with
    | zero =>
      cases ha; cases hb; cases hc
      rfl
    | succ i => exact ih ha hb hc

/-- An element of an operation on three registers is that of their elements (09 R184). -/
theorem elem_lanes {w i : Nat} (f : Nat → Nat → Nat → Nat) (a b d : VecReg) (h : i < elemCount w) :
    elem (lanes w f a b d) w i = f (elem a w i) (elem b w i) (elem d w i) % 2 ^ w := by
  rw [lanes, elem_vecOf _ h, List.getD_eq_getElem?_getD,
    zip3_getElem? f (elems_getElem? a h) (elems_getElem? b h) (elems_getElem? d h), Option.getD_some]

/-! ### Integer elements (04 R66, 09 R185) -/

theorem cast_patternOf (w : Nat) (x : Int) : (patternOf w x : Int) = x % 2 ^ w :=
  Int.toNat_of_nonneg (Int.emod_nonneg x (by positivity))

/-- On an integer type an operation is that of the exact integers, in the bits of the type. -/
theorem apply_of_isInt {ty : Ty} (op : LaneOp) (m : BitVec 12) (a b d : Nat) (h : ty.isInt = true) :
    op.apply m ty a b d = patternOf (tyBits ty) (op.int (tyInt ty a) (tyInt ty b) (tyInt ty d)) := by
  cases ty with
  | f32 | bf16 | f16 => cases h
  | i32 | n32 | i16 | i8 | n8 => rfl

theorem intElem_lanes {ty : Ty} {i : Nat} (op : LaneOp) (m : BitVec 12) (a b d : VecReg) (h : ty.isInt = true)
    (hi : i < elemCount (tyBits ty)) :
    (elem (lanes (tyBits ty) (op.apply m ty) a b d) (tyBits ty) i : Int) =
      op.int (tyInt ty (elem a (tyBits ty) i)) (tyInt ty (elem b (tyBits ty) i)) (tyInt ty (elem d (tyBits ty) i)) % 2 ^ tyBits ty := by
  rw [elem_lanes _ a b d hi, apply_of_isInt op m _ _ _ h, Int.natCast_mod, cast_patternOf, Nat.cast_pow, Nat.cast_ofNat, Int.emod_emod]

/-- Settles O22: an element of the result is the operation's integer form on the elements, modulo 2^w. -/
theorem vectorIntegerElements : Obligations.VectorIntegerElements := by
  intro m ty a b d i hty hi w x y z el
  have hel (op : LaneOp) : el op = op.int x y z % 2 ^ w := intElem_lanes op m a b d hty hi
  exact ⟨hel opAdd, hel opSub, hel opMul, hel opFma, hel opFms, hel opMin, hel opMax, hel opNeg,
    (hel opAbs).trans (congrArg (· % 2 ^ w) (Int.natCast_natAbs x))⟩

/-! ### What instructions on usable names deliver (09 R184 to R188, R196) -/

/-- Names that are among usable ones are usable. -/
theorem usable_of_subset {c : Core} {l k : List Nat} (h : c.usable l) (hk : k ⊆ l) : c.usable k := fun n hn => h n (hk hn)

/-- An instruction whose one check is that of its names has its effect where they are usable. -/
theorem next_orRaise_trapV {s : State} {names : List (BitVec 6)} (h : s.me.usable (names.map (·.toNat))) (f : State → State) :
    (.next (s.orRaise (s.trapV names) f) : Host.Outcome State Fault Refusal) = .next (f s) :=
  congrArg Host.Outcome.next (orRaise_trapV_of_usable h f)

/-- Settles O21: an element-wise instruction is the check of its names and then its lanes. -/
theorem vectorArithmeticDelivers : Obligations.VectorArithmeticDelivers := by
  intro s d a b ty t h out
  have hone : s.me.usable [d.toNat, a.toNat, a.toNat] := usable_of_subset h (by simp)
  exact ⟨next_orRaise_trapV h _, next_orRaise_trapV h _, next_orRaise_trapV h _, next_orRaise_trapV h _, next_orRaise_trapV h _,
    next_orRaise_trapV h _, next_orRaise_trapV h _, next_orRaise_trapV hone _, next_orRaise_trapV hone _⟩

/-- An instruction on the patterns of elements delivers its function of them (09 R186, R187). -/
theorem next_patterns {s : State} {d a b : BitVec 6} (h : s.me.usable [d.toNat, a.toNat, b.toNat]) (f : Nat → Nat → Nat → Nat) (w : Nat)
    (t : Bool) : (.next (s.patterns f d a b w t) : Host.Outcome State Fault Refusal) =
      .next (s.vectored 4 d (lanes w f (s.vr a) (s.vr b) (s.vr d)) t) :=
  next_orRaise_trapV h _

/-- Settles O23: each instruction is the check of its names and then its function of the registers or of their elements. -/
theorem vectorBitsAndComparesDeliver : Obligations.VectorBitsAndComparesDeliver := by
  intro s d a b ty t h w m out mask
  exact ⟨next_orRaise_trapV h _, next_orRaise_trapV h _, next_orRaise_trapV h _, next_patterns h _ w t, next_patterns h _ w t,
    next_patterns h _ w t, next_patterns h _ w t, next_patterns h _ w t, next_patterns h _ w t, next_patterns h _ w t⟩

/-- Settles O24: each instruction is the check of its names, d alone for VMOVS and VIOTA, and then its elements. -/
theorem vectorScalarFormsAndMovesDeliver : Obligations.VectorScalarFormsAndMovesDeliver := by
  intro s d a b ty t h w x i out
  have hd : s.me.usable [d.toNat] := usable_of_subset h (by simp)
  exact ⟨next_orRaise_trapV h _, next_orRaise_trapV h _, next_orRaise_trapV h _, next_orRaise_trapV h _, next_orRaise_trapV h _,
    next_orRaise_trapV h _, next_orRaise_trapV hd _, next_orRaise_trapV hd _, next_orRaise_trapV h _⟩

end Sys2Proof.Proofs
end

section
/-! PROOFS. Conversions, local moves and names of the V slot (03 R47, R59; 04 R71, R76 to R78; 09 R189 to R192, R197 to R202; 19 R348;
log 22): which counter meets CONVTHR and what conversions deliver, O26; the bytes that loads and stores move, O27; chained operations,
windows, and the first of the names that cannot be used, O28. -/

namespace Sys2Proof.Proofs

open Sys2Proof Sys2Proof.Machine Sys2Proof.Laws

/-! ### Estimates and counted conversions (09 R189 to R192) -/

/-- Where no counter would pass, a counted conversion on usable names has its effect. -/
theorem next_orRaise_convTrap {s : State} {names : List Nat} {n : Nat × Nat × Nat} (h : s.me.usable names) (hc : s.convTrap n = none)
    (f : State → State) :
    (.next (s.orRaise (pickRaise [s.vwinCheck names, s.convTrap n]) f) : Host.Outcome State Fault Refusal) = .next (f s) := by
  rw [vwinCheck_of_usable h, hc]
  rfl

theorem estimatesAndConversionsDeliver : EstimatesAndConversionsDeliver := by
  intro s d a src dst g t m est
  exact ⟨fun h => ⟨next_orRaise_trapV h _, next_orRaise_trapV h _, next_orRaise_trapV h _, next_orRaise_trapV h _,
    fun hc => next_orRaise_convTrap h hc _⟩, fun h hc => next_orRaise_convTrap h hc _⟩

/-! ### The precise CONVTHR (04 R77, 19 R348) -/

theorem passes_iff (thr v n : Nat) : passes thr v n = true ↔ 0 < n ∧ thr < min 0xFFFFFFFF (v + n) := by
  rw [passes, Bool.and_eq_true, decide_eq_true_iff, decide_eq_true_iff, satAdd]

/-- No counter passes where none of the three does. -/
theorem firstPass_eq_none {thr : Nat} {value add : Nat → Nat} (h : ∀ k, k < 3 → ¬passes thr (value k) (add k) = true) :
    firstPass thr value add = none :=
  List.find?_eq_none.2 fun k hk => h k (List.mem_range.1 hk)

/-- The counter named passes, and none below it does. -/
theorem firstPass_eq_some {thr k : Nat} {value add : Nat → Nat} (hk : k < 3) (h : passes thr (value k) (add k) = true)
    (hlow : ∀ j, j < k → ¬passes thr (value j) (add j) = true) : firstPass thr value add = some k := by
  have hrange : firstPass thr value add = (List.range 3).find? fun j => passes thr (value j) (add j) := rfl
  rw [hrange, List.find?_range_eq_some]
  exact ⟨h, List.mem_range.2 hk, fun j hj => by simpa using hlow j hj⟩

theorem conversionThresholdIsPrecise : ConversionThresholdIsPrecise := by
  intro s n after pass
  have hpass (k : Nat) : passes s.me.ctl.cvthr.toNat (s.me.running k) (pick3 n k) = true ↔ pass k := passes_iff _ _ _
  refine ⟨fun h => ?_, fun k hk h hlow => ?_⟩
  · rw [State.convTrap, firstPass_eq_none fun k hk => (hpass k).not.2 (h k hk), Option.map_none]
  · rw [State.convTrap, firstPass_eq_some hk ((hpass k).2 h) fun j hj => (hpass j).not.2 (hlow j hj), Option.map_some]

/-- Settles O26: a conversion is its two checks and then its elements, counts and LFSR step, and the second check looks for the lowest
counter that passes. -/
theorem conversionsDeliverAndCount : Obligations.ConversionsDeliverAndCount :=
  ⟨estimatesAndConversionsDeliver, conversionThresholdIsPrecise⟩

/-! ### Loads and stores of registers (09 R199 to R201) -/

/-- No bytes meet no violation. -/
theorem localCheck_zero (c : Core) (a : Nat) (write : Bool) : c.localCheck a 0 write = none := if_pos rfl

/-- A local move of a usable register that meets no violation raises nothing. -/
theorem pickRaise_move_none {s : State} {d : BitVec 6} {a n : Nat} {write : Bool} (h : s.me.usable [d.toNat])
    (hc : s.me.localCheck a n write = none) : pickRaise [s.trapV [d], s.localAccess a n write] = none := by
  have hnames : s.trapV [d] = none := vwinCheck_of_usable h
  rw [hnames, localAccess_of_none hc]
  rfl

theorem vload_of_usable {s : State} {d : BitVec 6} {a n : Nat} (h : s.me.usable [d.toNat]) (hn : n ≠ 0)
    (hc : s.me.localCheck a n false = none) : s.vload d a n = s.loading s.me.vldReady a n (.vec (s.me.phys d.toNat)) := by
  rw [State.vload, pickRaise_move_none h hc, orRaise_none, if_neg hn, emitLoad_eq_loading]

theorem vload_zero {s : State} {d : BitVec 6} (a : Nat) (h : s.me.usable [d.toNat]) :
    s.vload d a 0 = s.delivering s.me.vldReady [.vec (s.me.phys d.toNat) 0 false] := by
  rw [State.vload, pickRaise_move_none h (localCheck_zero _ _ _), orRaise_none, if_pos rfl, emit_eq_delivering]

theorem vstore_of_usable {s : State} {d : BitVec 6} {a n : Nat} (half : Bool) (h : s.me.usable [d.toNat]) (hn : n ≠ 0)
    (hc : s.me.localCheck a n true = none) : s.vstore d a n half = s.storing a ((vecBytes (s.vr d)).take n) half := by
  rw [State.vstore, pickRaise_move_none h hc, orRaise_none, if_neg hn, emitStore_eq_storing]
  rfl

theorem vstore_zero {s : State} {d : BitVec 6} (a : Nat) (half : Bool) (h : s.me.usable [d.toNat]) : s.vstore d a 0 half = s := by
  rw [State.vstore, pickRaise_move_none h (localCheck_zero _ _ _), orRaise_none, if_pos rfl]

/-- An odd number of elements of 4 bits leaves half a byte (09 R200). -/
theorem vcHalf_eq (count : Word) : vcHalf count = decide (vcWidth count = 4 ∧ vcElems count % 2 = 1) := by
  rw [Bool.eq_iff_iff, vcHalf, Bool.and_eq_true, beq_iff_eq, beq_iff_eq, decide_eq_true_iff]

theorem exec_vldh_configured {s : State} {h : BitVec 4} {x : Handle} (d : BitVec 6) (k : BitVec 10) (hx : s.me.handles[h.toNat] = some x) :
    exec (.vldh d h k) s = .next (s.vload d (x.rowAddr x.cons k.toNat) 512) := by
  show execVldh d h k s = _
  rw [execVldh, hx]

theorem exec_vsth_configured {s : State} {h : BitVec 4} {x : Handle} (d : BitVec 6) (k : BitVec 10) (hx : s.me.handles[h.toNat] = some x)
    (hh : h ≠ 15) : exec (.vsth d h k) s = .next (s.vstore d (x.rowAddr x.prod k.toNat) 512 false) := by
  show execVsth d h k s = _
  simp only [execVsth, hx, if_neg hh]

/-- The checks of a move through a handle that refuses it: its name, and HANDLE (09 R201). -/
def trapRefused (s : State) (d : BitVec 6) (h : BitVec 4) : Option Raise := pickRaise [s.trapV [d], some (handleTrap h)]

theorem exec_vldh_unset {s : State} {h : BitVec 4} (d : BitVec 6) (k : BitVec 10) (hx : s.me.handles[h.toNat] = none) :
    exec (.vldh d h k) s = .next (s.orRaise (trapRefused s d h) id) := by
  show execVldh d h k s = _
  rw [execVldh, hx]
  rfl

theorem exec_vsth_refused {s : State} {h : BitVec 4} (d : BitVec 6) (k : BitVec 10) (hr : s.me.handles[h.toNat] = none ∨ h = 15) :
    exec (.vsth d h k) s = .next (s.orRaise (trapRefused s d h) id) := by
  show execVsth d h k s = _
  unfold execVsth
  cases hx : s.me.handles[h.toNat] with
  | none => rfl
  | some x =>
    obtain hn | hh := hr
    · cases hx.symm.trans hn
    · simp only [if_pos hh]
      rfl

theorem trapRefused_of_usable {s : State} {d : BitVec 6} (h : BitVec 4) (hd : s.me.usable [d.toNat]) :
    trapRefused s d h = some (handleTrap h) := by
  have hnames : s.trapV [d] = none := vwinCheck_of_usable hd
  rw [trapRefused, hnames]
  rfl

/-- Settles O27: a move is its two checks and then its load or store, and a refused handle leaves HANDLE alone to raise. -/
theorem vectorLocalMovesDeliver : Obligations.VectorLocalMovesDeliver := by
  intro s d a c imm imm6 h k x hd ready at_ atC w count n row phys
  have hbytes : vcBytes (s.me.rs c) = n := rfl
  have h512 : 512 ≠ 0 := by decide
  refine ⟨fun hc => ?_, fun hc => ?_, fun hn hc => ?_, fun hn => ?_, fun hn hc => ?_, fun hn => ?_, fun hx hc => ?_,
    fun hx hh hc => ?_, fun hx => ?_, fun hx => ?_⟩
  · exact congrArg Host.Outcome.next (vload_of_usable hd h512 hc)
  · exact congrArg Host.Outcome.next (vstore_of_usable false hd h512 hc)
  · exact congrArg Host.Outcome.next (vload_of_usable hd hn hc)
  · show Host.Outcome.next (s.vload d atC (vcBytes (s.me.rs c))) = _
    rw [hbytes, hn, vload_zero _ hd]
    rfl
  · show Host.Outcome.next (s.vstore d atC (vcBytes (s.me.rs c)) (vcHalf (s.me.rs c))) = _
    rw [hbytes, vcHalf_eq, vstore_of_usable _ hd hn hc]
    rfl
  · show Host.Outcome.next (s.vstore d atC (vcBytes (s.me.rs c)) (vcHalf (s.me.rs c))) = _
    rw [hbytes, hn, vstore_zero _ _ hd]
  · rw [exec_vldh_configured d k hx]
    exact congrArg Host.Outcome.next (vload_of_usable hd h512 hc)
  · rw [exec_vsth_configured d k hx hh]
    exact congrArg Host.Outcome.next (vstore_of_usable false hd h512 hc)
  · rw [exec_vldh_unset d k hx, trapRefused_of_usable h hd, orRaise_some]
    rfl
  · rw [exec_vsth_refused d k hx, trapRefused_of_usable h hd, orRaise_some]
    rfl

/-! ### VCH and VWIN (03 R47, R59; 09 R197, R198, R202) -/

theorem exec_vch_of_legal {s : State} {d a b : BitVec 6} {e : BitVec 3} {ty : Ty} (t : Bool) (hl : chLegal s.me.ch[e.toNat] = true)
    (hty : chTy s.me.ch[e.toNat] = some ty) (h : s.me.usable [d.toNat, a.toNat, b.toNat]) :
    exec (.vch d a b e t) s = .next (s.vectored 8 d
      (lanes (tyBits ty) (chElem s.me.ctl.fmode ty s.me.ch[e.toNat]) (s.vr a) (s.vr b) (s.vr d)) t) := by
  show execVch d a b e t s = _
  have hnames : s.trapV [d, a, b] = none := vwinCheck_of_usable h
  have hnone : s.trapVch d a b e = none := by
    rw [State.trapVch, hl, hnames]
    rfl
  simp only [execVch, hnone, orRaise_none, hty]
  rfl

theorem exec_vch_of_illegal {s : State} {e : BitVec 3} (d a b : BitVec 6) (t : Bool) (hl : chLegal s.me.ch[e.toNat] = false) :
    exec (.vch d a b e t) s = .next (s.raise s.illegal) := by
  show execVch d a b e t s = _
  have hraise : s.trapVch d a b e = some s.illegal := by
    rw [State.trapVch, hl, Bool.not_false, failIf_true]
    exact pickRaise_first _ _ rfl
  rw [execVch, hraise, orRaise_some]

theorem ctlLegal_vwb (v : Word) : ctlLegal 0x019 v = decide (v.toNat % 32 = 0 ∧ v.toNat ≤ 1504) := by
  have hgrid : ctlLegal 0x019 v = (v.toNat % 32 == 0 && decide (v.toNat ≤ 1504)) := rfl
  rw [Bool.eq_iff_iff, hgrid, Bool.and_eq_true, beq_iff_eq, decide_eq_true_iff, decide_eq_true_iff]

theorem exec_vwin (s : State) (r : BitVec 5) (imm : BitVec 11) : exec (.vwin r imm) s =
    .next (s.orRaise (s.trapVwin r imm) fun s => s.delivering 1 [.vwb ((s.me.winBase r imm).setWidth 11)]) := rfl

theorem trapVwin_grid {s : State} {r : BitVec 5} {imm : BitVec 11} (h : (s.me.winBase r imm).toNat % 32 = 0)
    (hle : (s.me.winBase r imm).toNat ≤ 1504) : s.trapVwin r imm = none := by
  rw [State.trapVwin, ctlLegal_vwb, decide_eq_true ⟨h, hle⟩, Bool.not_true, failIf_false]

theorem trapVwin_off {s : State} {r : BitVec 5} {imm : BitVec 11}
    (h : (s.me.winBase r imm).toNat % 32 ≠ 0 ∨ 1504 < (s.me.winBase r imm).toNat) :
    s.trapVwin r imm = some (.trap 0x03 (s.me.winBase r imm) 0) := by
  rw [State.trapVwin, ctlLegal_vwb, decide_eq_false (by omega), Bool.not_false, failIf_true]

theorem chainedOperationAndWindow : ChainedOperationAndWindow := by
  intro s d a b e t r imm entry base
  refine ⟨fun ty hl hty h => exec_vch_of_legal t hl hty h, exec_vch_of_illegal d a b t, fun h hle => ?_, fun h => ?_⟩
  · rw [exec_vwin, trapVwin_grid h hle, orRaise_none]
    rfl
  · rw [exec_vwin, trapVwin_off h, orRaise_some]
    rfl

/-! ### Names that cannot be used (03 R47, log 22) -/

/-- The rotating region is empty or leaves the file. -/
def NoRegion (c : Core) : Prop := c.ctl.rsize = 0 ∨ 1536 < c.ctl.rbase.toNat + c.ctl.rsize.toNat

/-- Without a region the rotating names, and no others, are refused. -/
theorem badName_of_noRegion {c : Core} (h : NoRegion c) (n : Nat) : c.badName n = decide (32 ≤ n) := by
  have hbad : (c.ctl.rsize == 0 || decide (1536 < c.ctl.rbase.toNat + c.ctl.rsize.toNat)) = true := by
    rw [Bool.or_eq_true, beq_iff_eq, decide_eq_true_iff]
    exact h
  rw [Core.badName, hbad, Bool.and_true]

/-- The first rotating name of a list. -/
def firstRotating (l : List Nat) : Option Nat := l.find? fun n => decide (32 ≤ n)

/-- VWIN with a register name (19 R343). -/
def vwinTrap (n : Nat) : Raise := .trap 0x03 (BitVec.ofNat 64 n) 0

/-- Names of an instruction that an earlier check may refuse are judged where it does not. -/
theorem firstRotating_of_ite {p : Prop} [Decidable p] {l : List Nat} {n : Nat} (h : firstRotating (if p then l else []) = some n) :
    p ∧ firstRotating l = some n := by
  by_cases hp : p
  · exact ⟨hp, by rwa [if_pos hp] at h⟩
  · rw [if_neg hp] at h
    cases h

theorem firstRotating_of_ite_nil {p : Prop} [Decidable p] {l : List Nat} {n : Nat} (h : firstRotating (if p then [] else l) = some n) :
    ¬p ∧ firstRotating l = some n :=
  firstRotating_of_ite (by rwa [ite_not])

/-- The first rotating name of a list is that of every list it begins. -/
theorem firstRotating_append {l : List Nat} {n : Nat} (k : List Nat) (h : firstRotating l = some n) : firstRotating (l ++ k) = some n := by
  have hl : l.find? (fun n => decide (32 ≤ n)) = some n := h
  rw [firstRotating, List.find?_append, hl, Option.some_or]

theorem convTrap_rank (s : State) (k : Nat × Nat × Nat) : ∀ x ∈ s.convTrap k, x.rank = 3 := by
  intro x hx
  obtain ⟨c, -, rfl⟩ := Option.map_eq_some_iff.1 hx
  rfl

/-- What XEXP looks at besides its names is judged after them (11 R242). -/
theorem trapXexp_names_first (s : State) (d k : BitVec 6) (n1 : BitVec 3) :
    ∃ rest : Option Raise, (∀ x ∈ rest, x.rank = 3) ∧ s.trapXexp d k n1 = pickRaise [s.vwinCheck (xexpNames d n1), rest] := by
  refine ⟨_, ?_, rfl⟩
  cases s.me.handles[15] with
  | none => exact fun x hx => by cases hx; rfl
  | some h =>
    dsimp only
    split
    · exact fun x hx => by cases hx; rfl
    · exact localAccess_rank _ _ _ _

section
variable {s : State} {n : Nat} (hr : NoRegion s.me)
include hr

theorem vwinCheck_of_rotating {names : List Nat} (hn : firstRotating names = some n) : s.vwinCheck names = some (vwinTrap n) := by
  rw [State.vwinCheck, funext (badName_of_noRegion hr)]
  exact congrArg (Option.map vwinTrap) hn

/-- VWIN comes before the checks that rank after it (07 R125). -/
theorem pickRaise_of_rotating {names : List Nat} {o : Option Raise} (hn : firstRotating names = some n) (ho : ∀ x ∈ o, x.rank = 3) :
    pickRaise [s.vwinCheck names, o] = some (vwinTrap n) := by
  rw [vwinCheck_of_rotating hr hn]
  refine pickRaise_cons_some fun o' ho' x hx => ?_
  obtain rfl := List.mem_singleton.1 ho'
  rw [ho x hx]
  exact Nat.le_succ 2

/-- An instruction whose one check is that of its names raises VWIN. -/
theorem next_of_rotating {names : List Nat} (f : State → State) (hn : firstRotating names = some n) :
    (.next (s.orRaise (s.vwinCheck names) f) : Host.Outcome State Fault Refusal) = .next (s.raise (vwinTrap n)) := by
  rw [vwinCheck_of_rotating hr hn, orRaise_some]

/-- An instruction that checks its names and then what ranks after them raises VWIN. -/
theorem next_pickRaise_of_rotating {names : List Nat} {o : Option Raise} (f : State → State) (hn : firstRotating names = some n)
    (ho : ∀ x ∈ o, x.rank = 3) :
    (.next (s.orRaise (pickRaise [s.vwinCheck names, o]) f) : Host.Outcome State Fault Refusal) = .next (s.raise (vwinTrap n)) := by
  rw [pickRaise_of_rotating hr hn ho, orRaise_some]

theorem next_patterns_of_rotating {d a b : BitVec 6} (f : Nat → Nat → Nat → Nat) (w : Nat) (t : Bool)
    (hn : firstRotating [d.toNat, a.toNat, b.toNat] = some n) :
    (.next (s.patterns f d a b w t) : Host.Outcome State Fault Refusal) = .next (s.raise (vwinTrap n)) :=
  next_of_rotating hr _ hn

theorem next_vload_of_rotating {d : BitVec 6} (a m : Nat) (hn : firstRotating [d.toNat] = some n) :
    (.next (s.vload d a m) : Host.Outcome State Fault Refusal) = .next (s.raise (vwinTrap n)) :=
  next_pickRaise_of_rotating hr _ hn (localAccess_rank _ _ _ _)

theorem next_vstore_of_rotating {d : BitVec 6} (a m : Nat) (half : Bool) (hn : firstRotating [d.toNat] = some n) :
    (.next (s.vstore d a m half) : Host.Outcome State Fault Refusal) = .next (s.raise (vwinTrap n)) :=
  next_pickRaise_of_rotating hr _ hn (localAccess_rank _ _ _ _)

theorem next_trapRefused_of_rotating {d : BitVec 6} (h : BitVec 4) (hn : firstRotating [d.toNat] = some n) :
    (.next (s.orRaise (trapRefused s d h) id) : Host.Outcome State Fault Refusal) = .next (s.raise (vwinTrap n)) :=
  next_pickRaise_of_rotating hr _ hn fun x hx => by cases hx; rfl

theorem exec_vldh_of_rotating {d : BitVec 6} (h : BitVec 4) (k : BitVec 10) (hn : firstRotating [d.toNat] = some n) :
    exec (.vldh d h k) s = .next (s.raise (vwinTrap n)) := by
  cases hx : s.me.handles[h.toNat] with
  | none => rw [exec_vldh_unset d k hx, next_trapRefused_of_rotating hr h hn]
  | some x => rw [exec_vldh_configured d k hx, next_vload_of_rotating hr _ _ hn]

theorem exec_vsth_of_rotating {d : BitVec 6} (h : BitVec 4) (k : BitVec 10) (hn : firstRotating [d.toNat] = some n) :
    exec (.vsth d h k) s = .next (s.raise (vwinTrap n)) := by
  by_cases hh : h = 15
  · rw [exec_vsth_refused d k (.inr hh), next_trapRefused_of_rotating hr h hn]
  cases hx : s.me.handles[h.toNat] with
  | none => rw [exec_vsth_refused d k (.inl hx), next_trapRefused_of_rotating hr h hn]
  | some x => rw [exec_vsth_configured d k hx hh, next_vstore_of_rotating hr _ _ _ hn]

theorem exec_vch_of_rotating {d a b : BitVec 6} {e : BitVec 3} (t : Bool) (hl : chLegal s.me.ch[e.toNat] = true)
    (hn : firstRotating [d.toNat, a.toNat, b.toNat] = some n) : exec (.vch d a b e t) s = .next (s.raise (vwinTrap n)) := by
  show execVch d a b e t s = _
  have hnames : s.trapV [d, a, b] = some (vwinTrap n) := vwinCheck_of_rotating hr hn
  have hraise : s.trapVch d a b e = some (vwinTrap n) := by
    rw [State.trapVch, hl, hnames]
    rfl
  rw [execVch, hraise, orRaise_some]

theorem exec_xcvt_of_rotating {d a : BitVec 6} {fin fout : Fmt} {src dst : Elt} (r : XRound) (hsrc : fmtElt fin = some src)
    (hdst : fmtElt fout = some dst) (hn : firstRotating [d.toNat, a.toNat] = some n) :
    exec (.xcvt d a fin fout r) s = .next (s.raise (vwinTrap n)) := by
  show execXcvt d a fin fout r s = _
  simp only [execXcvt, hsrc, hdst]
  exact next_pickRaise_of_rotating hr _ hn (convTrap_rank _ _)

theorem exec_xpack_of_rotating {d a b : BitVec 6} (bty : BitVec 2) {bf : Bool} (hb : b ≠ d)
    (hn : firstRotating (d.toNat :: b.toNat :: groupNames a (packGroup bf)) = some n) :
    exec (.xpack d a b bty bf) s = .next (s.raise (vwinTrap n)) := by
  show execXpack d a b bty bf s = _
  have hraise : s.trapXpack d a b bty.toNat bf = some (vwinTrap n) := by
    rw [State.trapXpack, beq_false_of_ne hb, failIf_false]
    exact pickRaise_of_rotating hr hn (convTrap_rank _ _)
  rw [execXpack, hraise, orRaise_some]

theorem exec_xtbl_of_rotating {d a : BitVec 6} {fn : BitVec 4} {f : TableFn} (t : Bool) (hf : s.me.xs.active[fn.toNat] = some f)
    (hn : firstRotating [d.toNat, a.toNat] = some n) : exec (.xtbl d a fn t) s = .next (s.raise (vwinTrap n)) := by
  show execXtbl d a fn t s = _
  simp only [execXtbl, hf]
  exact next_of_rotating hr _ hn

theorem exec_xexp_of_rotating {d : BitVec 6} (k : BitVec 6) {n1 : BitVec 3} (adv : Bool) (hn : firstRotating (xexpNames d n1) = some n) :
    exec (.xexp d k n1 adv) s = .next (s.raise (vwinTrap n)) := by
  show execXexp d k n1 adv s = _
  obtain ⟨rest, hrank, htrap⟩ := trapXexp_names_first s d k n1
  rw [execXexp, htrap, pickRaise_of_rotating hr hn hrank, orRaise_some]

end

theorem unusableNamesRaiseVwin : UnusableNamesRaiseVwin := by
  intro s i n hr hn
  cases i with
  | vadd | vsub | vmul | vfma | vfms | vmin | vmax | vand | vor | vxor | vadds | vmuls | vfmas | vmaxs | vwmul | vwadd
  | vrsqe | vrcpe | vexp2e | vlog2e | vred | vscan | vdot | vperm | vshuf | vbcast | vmov | vmovs | viota | vcnt
  | mfv | mtv | xpose | xzip | xunzip | xexpand | xcompr | xunpk | xtld => exact next_of_rotating hr _ hn
  | vabs d a | vneg d a => exact next_of_rotating hr _ (firstRotating_append [a.toNat] hn)
  | vshl | vshr | vsra | vsel | vcmpeq | vcmplt | vcmple => exact next_patterns_of_rotating hr _ _ _ hn
  | vcvt | vnarrow => exact next_pickRaise_of_rotating hr _ hn (convTrap_rank _ _)
  | vld | vldc => exact next_vload_of_rotating hr _ _ hn
  | vst | vstc => exact next_vstore_of_rotating hr _ _ _ hn
  | vldh => exact exec_vldh_of_rotating hr _ _ hn
  | vsth => exact exec_vsth_of_rotating hr _ _ hn
  | xexp => exact exec_xexp_of_rotating hr _ _ hn
  | vch d a b e t =>
    obtain ⟨hl, hn⟩ := firstRotating_of_ite hn
    exact exec_vch_of_rotating hr t hl hn
  | xpack d a b bty bf =>
    obtain ⟨hb, hn⟩ := firstRotating_of_ite_nil hn
    exact exec_xpack_of_rotating hr bty hb hn
  | xcvt d a fin fout r =>
    obtain ⟨hfmt, hn⟩ := firstRotating_of_ite hn
    obtain ⟨⟨src, hsrc⟩, dst, hdst⟩ : (∃ src, fmtElt fin = some src) ∧ ∃ dst, fmtElt fout = some dst := by
      simpa [Option.isSome_iff_exists] using hfmt
    exact exec_xcvt_of_rotating hr r hsrc hdst hn
  | xtbl d a fn t =>
    obtain ⟨hf, hn⟩ := firstRotating_of_ite hn
    obtain ⟨f, hf⟩ := Option.isSome_iff_exists.1 hf
    exact exec_xtbl_of_rotating hr t hf hn
  | _ => cases hn

/-- Settles O28: VCH and VWIN are their checks and then their results, and without a region the check of an instruction's names finds the
first rotating one before any check that ranks after it. -/
theorem chainsAndWindowsOfNames : Obligations.ChainsAndWindowsOfNames := ⟨chainedOperationAndWindow, unusableNamesRaiseVwin⟩

end Sys2Proof.Proofs
end

section
/-! PROOFS. The C slots at issue (05 R99; 10 R203, R204, R206, R210 to R217, R224; 11 R238, R241; 19 R353): what enters a queue as a
member of the open batch, with and without a failure found at issue, and O35. -/

namespace Sys2Proof.Proofs

open Sys2Proof Sys2Proof.Machine Sys2Proof.Laws

/-! ### Members of the open batch (10 R203, R204, R206) -/

theorem copyQueue_ne_m (s : State) : s.copyQueue ≠ .m := by
  unfold State.copyQueue
  split <;> decide

/-- The state in which a command of the current core, by its number, is to be reported as failed when its queue starts it (10 R206). -/
def failingCmd (t : State) (id : Nat) (f : Nat × Nat × Nat) : State := t.withMe (t.me.modCmd id fun k => { k with fail := some f })

/-- A failure found at issue is noted at the command that has just entered its queue. -/
theorem member_failing (s : State) {q : QueueId} (k : CmdKind) (h : q ≠ .m) (f : Nat × Nat × Nat) (hint : Option Hint := none) :
    s.member q k (some f) hint = failingCmd (s.queued q k (hint.map (·.code.toNat))) s.me.q.nextId f := by
  rw [← member_eq_queued s q k h hint]
  rfl

theorem member_copyQueue (s : State) (k : CmdKind) (hint : Option Hint := none) :
    s.member s.myQueue k none hint = s.queued s.copyQueue k (hint.map (·.code.toNat)) :=
  member_eq_queued s _ k (copyQueue_ne_m s) hint

theorem member_dec (s : State) (k : CmdKind) : s.member .dec k = s.queued .dec k := member_eq_queued s .dec k (by decide)

/-- What passes its check goes on. -/
theorem next_orRaise_of_none {s t : State} {o : Option Raise} {f : State → State} (ho : o = none) (hf : f s = t) :
    (.next (s.orRaise o f) : Host.Outcome State Fault Refusal) = .next t := by
  rw [ho, orRaise_none, hf]

/-! ### Copies (10 R210, R213; 19 R353) -/

theorem issueCopy_eq (s : State) (d src : BitVec 6) (toMedia fromMedia : Bool) (hint : Option Hint) :
    s.issueCopy d src toMedia fromMedia hint =
      (s.queued s.copyQueue (.copy (s.me.opnd d) (s.me.opnd src) toMedia fromMedia) (hint.map (·.code.toNat))).stepLfsr
        (copySamples s.me.ctl.fmode s.me.td[d.toNat] s.me.td[src.toNat]) := by
  rw [State.issueCopy, member_copyQueue s _ hint]

theorem exec_copy_unrefused {s : State} {d src : BitVec 6} (hint : Hint) (h : s.trapCopy d src copyDests copySources = none) :
    exec (.copy d src hint) s = .next (s.issueCopy d src false false (some hint)) := next_orRaise_of_none h rfl

/-- The check of a raw copy to or from the media passes in privileged mode where its parts pass (19 R353). -/
theorem pickRaise_priv_of_none {s : State} {a b : Option Raise} (hm : s.me.sys.mode = true) (ha : a = none) (hb : b = none) :
    pickRaise [s.privCheck, a, b] = none := by
  rw [(privCheck_eq_none s).2 hm, ha, hb]
  rfl

theorem exec_persist_unrefused {s : State} {d src : BitVec 6} (hm : s.me.sys.mode = true) (hc : s.trapCopy d src [8] copySources = none)
    (hs : s.trapScm d src = none) : exec (.persist d src) s = .next (s.issueCopy d src true false none) :=
  next_orRaise_of_none (pickRaise_priv_of_none hm hc hs) rfl

theorem exec_scmrd_unrefused {s : State} {d src : BitVec 6} (hm : s.me.sys.mode = true) (hc : s.trapCopy d src copyDests [8] = none)
    (hs : s.trapScm d src = none) : exec (.scmrd d src) s = .next (s.issueCopy d src false true none) :=
  next_orRaise_of_none (pickRaise_priv_of_none hm hc hs) rfl

/-- COPYH takes the slot after those of the incomplete COPYHs on its handle. -/
theorem exec_copyh_unrefused {s : State} {h : BitVec 4} {src : BitVec 6} {x : Handle} (hint : Hint) (ht : s.tdCheck src copySources = none)
    (hh : s.trapCopyh h src = none) (hx : s.me.handles[h.toNat] = some x) : exec (.copyh h src hint) s =
      .next (s.queued s.copyQueue (.copyh h ((x.prod + s.me.copyhs h) % (2 * x.slotCount)) (s.me.opnd src)) (some hint.code.toNat)) := by
  refine next_orRaise_of_none (by rw [ht, hh]; rfl) ?_
  simp only [hx]
  exact member_copyQueue s _ (some hint)

/-! ### Rows by indices (10 R215) -/

section
variable {s : State} {idx : BitVec 6} (d src : BitVec 6) (kind : Opnd → Opnd → List Int → CmdKind) (hint : Hint)

theorem issueRows_of_read {l : List Int} (h : s.indicesAtIssue idx = .ok l) : s.issueRows d src idx kind hint =
    (s.queued s.copyQueue (kind (s.me.opnd d) (s.me.opnd src) l) (some hint.code.toNat)).stepLfsr
      (copySamples s.me.ctl.fmode s.me.td[d.toNat] s.me.td[src.toNat]) := by
  simp only [State.issueRows, h, member_copyQueue, Option.map_some]

theorem issueRows_of_unread {cls addr : Nat} (h : s.indicesAtIssue idx = .error (cls, addr)) : s.issueRows d src idx kind hint =
    (failingCmd (s.queued s.copyQueue (kind (s.me.opnd d) (s.me.opnd src) []) (some hint.code.toNat)) s.me.q.nextId (1, cls, addr)).stepLfsr
      (copySamples s.me.ctl.fmode s.me.td[d.toNat] s.me.td[src.toNat]) := by
  simp only [State.issueRows, h]
  exact congrArg (State.stepLfsr · _) (member_failing s _ (copyQueue_ne_m s) _ (some hint))

end

theorem exec_gather_unrefused {s : State} {d src idx : BitVec 6} (hint : Hint)
    (h : s.trapRows d src idx src d copyDests tableSpaces = none) :
    exec (.gather d src idx hint) s = .next (s.issueRows d src idx .gather hint) := next_orRaise_of_none h rfl

theorem exec_scatter_unrefused {s : State} {d src idx : BitVec 6} (hint : Hint)
    (h : s.trapRows d src idx d src tableSpaces copySources = none) :
    exec (.scatter d src idx hint) s = .next (s.issueRows d src idx .scatter hint) := next_orRaise_of_none h rfl

/-! ### Atomics (10 R216, R217) -/

theorem trapAmo_assigned (s : State) {op : BitVec 4} {w : Width} (h : op.toNat ≤ 9) (h9 : ¬(op.toNat = 9 ∧ w = .w8)) :
    s.trapAmo op w = none := by
  have : (decide (9 < op.toNat) || (op.toNat == 9 && w == .w8)) = false := by simpa [h] using h9
  rw [State.trapAmo, this, failIf_false]

theorem trapAmo_reserved (s : State) {op : BitVec 4} {w : Width} (h : 9 < op.toNat ∨ (op.toNat = 9 ∧ w = .w8)) :
    s.trapAmo op w = some s.illegal := by
  have : (decide (9 < op.toNat) || (op.toNat == 9 && w == .w8)) = true := by simpa using h
  rw [State.trapAmo, this, failIf_true]

/-- An atomic takes the low bytes of its operand that its width names. -/
theorem amoOperand_eq (v : Word) (w : Width) : BitVec.ofNat 64 (v.toNat % 2 ^ (8 * amoBytes w)) =
    match w with | .w4 => (v.setWidth 32).setWidth 64 | .w8 => v := by
  apply BitVec.eq_of_toNat_eq
  cases w <;> simp [amoBytes]
  omega

theorem exec_amo_assigned {s : State} {op : BitVec 4} {w : Width} (va v r : BitVec 5) (o : Order) (h : op.toNat ≤ 9)
    (h9 : ¬(op.toNat = 9 ∧ w = .w8)) : exec (.amo op va v r o w) s = .next (s.queued s.copyQueue (.amo op (s.me.rs va)
      (BitVec.ofNat 64 ((s.me.rs v).toNat % 2 ^ (8 * amoBytes w))) (if r = 0 then none else some (s.me.rs r)) o w)) :=
  next_orRaise_of_none (trapAmo_assigned s h h9) (member_copyQueue s _)

theorem exec_amo_reserved {s : State} {op : BitVec 4} {w : Width} (va v r : BitVec 5) (o : Order)
    (h : 9 < op.toNat ∨ (op.toNat = 9 ∧ w = .w8)) : exec (.amo op va v r o w) s = .next (s.raise s.illegal) := by
  show Host.Outcome.next (s.orRaise (s.trapAmo op w) _) = _
  rw [trapAmo_reserved s h, orRaise_some]

/-! ### The decoder's commands (11 R238, R241) -/

section
variable {s : State} {td ti : BitVec 6} {x : Handle} (ratio : BitVec 4) (ht : s.trapDecomp td ti = none) (hx : s.me.handles[15] = some x)
include ht hx

theorem exec_decomp_global (h0 : tdSpace s.me.td[ti.toNat] ≠ 0) (h4 : tdSpace s.me.td[ti.toNat] ≠ 4) : exec (.decomp td ti ratio) s =
    .next (s.queued .dec (.decomp s.me.td[td.toNat] s.me.td[ti.toNat] none (ratio.toNat + 1) x)) := by
  refine next_orRaise_of_none ht ?_
  simp only [hx, beq_false_of_ne h0, beq_false_of_ne h4]
  exact member_dec s _

theorem exec_decomp_read {l : List Int} (h : tdSpace s.me.td[ti.toNat] = 0 ∨ tdSpace s.me.td[ti.toNat] = 4)
    (hl : s.indicesAtIssue ti = .ok l) : exec (.decomp td ti ratio) s = .next (s.queued .dec
      (.decomp s.me.td[td.toNat] s.me.td[ti.toNat] (some (l.map Int.toNat)) (ratio.toNat + 1) x)) := by
  have hs : (tdSpace s.me.td[ti.toNat] == 0 || tdSpace s.me.td[ti.toNat] == 4) = true := by simpa using h
  refine next_orRaise_of_none ht ?_
  simp only [hx, hs, hl, if_true]
  exact member_dec s _

theorem exec_decomp_unread {cls addr : Nat} (h : tdSpace s.me.td[ti.toNat] = 0 ∨ tdSpace s.me.td[ti.toNat] = 4)
    (hl : s.indicesAtIssue ti = .error (cls, addr)) : exec (.decomp td ti ratio) s = .next (failingCmd (s.queued .dec
      (.decomp s.me.td[td.toNat] s.me.td[ti.toNat] none (ratio.toNat + 1) x)) s.me.q.nextId (1, cls, addr)) := by
  have hs : (tdSpace s.me.td[ti.toNat] == 0 || tdSpace s.me.td[ti.toNat] == 4) = true := by simpa using h
  refine next_orRaise_of_none ht ?_
  simp only [hx, hs, hl, if_true]
  exact member_failing s _ (by decide) _

end

theorem exec_ddict_unrefused {s : State} {td : BitVec 6} (h : s.trapDdict td = none) :
    exec (.ddict td) s = .next (s.queued .dec (.ddict (s.me.opnd td))) := next_orRaise_of_none h (member_dec s _)

/-- Settles O35: past its check each command is a member of its slot's open batch, with a failure noted where its indices cannot be read. -/
theorem memoryCommandsQueue : Obligations.MemoryCommandsQueue := by
  intro s d src idx h hint op va v e r o w x l cls addr
  refine ⟨fun ht => ?copy, exec_copyh_unrefused hint, fun ht => ⟨fun hl => ?gatherRead, fun hl => ?gatherUnread⟩,
    fun ht => ⟨fun hl => ?scatterRead, fun hl => ?scatterUnread⟩, fun hm hc hs => ?persist, fun hm hc hs => ?scmrd,
    fun h h9 => ?amo, exec_amo_reserved va v r o, ?amocas, ?colstep, exec_decomp_global op,
    fun ht hx hi => ⟨exec_decomp_read op ht hx hi, exec_decomp_unread op ht hx hi⟩, exec_ddict_unrefused⟩
  case copy => rw [exec_copy_unrefused hint ht, issueCopy_eq]; rfl
  case gatherRead => rw [exec_gather_unrefused hint ht, issueRows_of_read _ _ _ _ hl]
  case gatherUnread => rw [exec_gather_unrefused hint ht, issueRows_of_unread _ _ _ _ hl]; rfl
  case scatterRead => rw [exec_scatter_unrefused hint ht, issueRows_of_read _ _ _ _ hl]
  case scatterUnread => rw [exec_scatter_unrefused hint ht, issueRows_of_unread _ _ _ _ hl]; rfl
  case persist => rw [exec_persist_unrefused hm hc hs, issueCopy_eq]; rfl
  case scmrd => rw [exec_scmrd_unrefused hm hc hs, issueCopy_eq]; rfl
  case amo =>
    rw [exec_amo_assigned va v r o h h9]
    exact congrArg (fun v => Host.Outcome.next (s.queued s.copyQueue (.amo op (s.me.rs va) v _ o w))) (amoOperand_eq (s.me.rs v) w)
  case amocas => exact congrArg Host.Outcome.next (member_copyQueue s _)
  case colstep => exact congrArg Host.Outcome.next (member_copyQueue s _)

end Sys2Proof.Proofs
end

section
/-! PROOFS. Batches, fences, PREF, the bank queue and the stash controls at issue (05 R88, R90, R99; 10 R203 to R205, R218 to R223; log 26,
log 27, log 56): what they leave of the queues, of the module and of the stash, and O36. -/

namespace Sys2Proof.Proofs

open Sys2Proof Sys2Proof.Machine Sys2Proof.Laws

/-! ### The five queues (10 R203) -/

@[simp] theorem queues_get_put_same (q : Queues) (i : QueueId) (l : List Cmd) : (q.put i l).get i = l := by cases i <;> rfl

theorem queues_get_put_ne (q : Queues) {i k : QueueId} (l : List Cmd) (h : k ≠ i) : (q.put i l).get k = q.get k := by
  revert h
  cases i <;> cases k <;> simp [Queues.put, Queues.get]

@[simp] theorem queues_put_batches (q : Queues) (i : QueueId) (l : List Cmd) : (q.put i l).batches = q.batches := by cases i <;> rfl

@[simp] theorem queues_put_openNum (q : Queues) (i : QueueId) (l : List Cmd) (cb : Bool) : (q.put i l).openNum cb = q.openNum cb := by
  cases i <;> rfl

theorem queues_get_withOpen (q : Queues) (cb : Bool) (k : QueueId) : (q.withOpen cb).get k = q.get k := by
  unfold Queues.withOpen
  split
  · rfl
  · cases k <;> rfl

theorem queues_openNum_withOpen (q : Queues) (cb b : Bool) : (q.withOpen cb).openNum b = q.openNum b := by
  unfold Queues.withOpen
  split <;> rfl

/-! ### CBATCH (10 R204, R205) -/

/-- The queues once CBATCH has closed the open batch of a copy queue and opened the next. -/
def batchClosed (q : Queues) (cb : Bool) : Queues :=
  let q := q.withOpen cb
  let num := q.openNum cb
  let closed := q.modBatch cb num fun x => { x with closed := true }
  if cb then { closed with nextBatchB := num + 1 } else { closed with nextBatchA := num + 1 }

theorem batchClosed_nextId (q : Queues) (cb : Bool) : (batchClosed q cb).nextId = q.nextId := by
  cases cb <;> exact withOpen_nextId q _

theorem batchClosed_get (q : Queues) (cb : Bool) (k : QueueId) : (batchClosed q cb).get k = q.get k := by
  rw [← queues_get_withOpen q cb k]
  cases cb <;> cases k <;> rfl

theorem batchClosed_openNum (q : Queues) (cb : Bool) : (batchClosed q cb).openNum cb = (q.withOpen cb).openNum cb + 1 := by
  cases cb <;> rfl

theorem batchClosed_openNum_other (q : Queues) (cb : Bool) : (batchClosed q cb).openNum (!cb) = q.openNum (!cb) := by
  rw [← queues_openNum_withOpen q cb]
  cases cb <;> rfl

/-- A command that joins no batch stands at the end of its copy queue, and nothing else has changed. -/
theorem enqueue_copyQueue (s t : State) (k : CmdKind) : s.enqueue t.copyQueue k = s.withMe { s.me with
    q := { s.me.q.put t.copyQueue (s.me.q.get t.copyQueue ++ [s.commandOf k none]) with nextId := s.me.q.nextId + 1 } } := by
  have h : (t.copyQueue == .m) = false := beq_false_of_ne (copyQueue_ne_m t)
  simp only [State.enqueue, modMe_eq_withMe, Core.enqueue, h]
  rfl

/-- The state in which the open batch of the issuing slot is closed and the next is open. -/
def atNextBatch (s : State) : State := s.withMe { s.me with q := batchClosed s.me.q (s.curSlot == .cb) }

theorem exec_cbatch (s : State) (va v : BitVec 5) (counters : Bool) : exec (.cbatch va v counters) s =
    .next ((atNextBatch s).enqueue s.copyQueue (.cbatch ((s.me.q.withOpen (s.curSlot == .cb)).openNum (s.curSlot == .cb))
      (if va = 0 then none else some (s.me.rs va)) ((s.me.rs v).setWidth 32) counters)) := by
  have hnum : (atNextBatch s).me.q.openNum (s.curSlot == .cb) - 1 = (s.me.q.withOpen (s.curSlot == .cb)).openNum (s.curSlot == .cb) := by
    rw [atNextBatch, me_withMe, batchClosed_openNum, Nat.add_sub_cancel]
  rw [← hnum]
  rfl

/-- What closes a batch takes no command's number. -/
theorem commandOf_atNextBatch (s : State) (k : CmdKind) : (atNextBatch s).commandOf k none = s.commandOf k none := by
  simp only [State.commandOf, atNextBatch, me_withMe, batchClosed_nextId]

/-- The core after CBATCH. -/
theorem exec_cbatch_eq (s : State) (va v : BitVec 5) (counters : Bool) :
    let cb := s.curSlot == .cb
    let q := batchClosed s.me.q cb
    exec (.cbatch va v counters) s = .next (s.withMe { s.me with
      q := { q.put s.copyQueue (s.me.q.get s.copyQueue ++ [s.commandOf (.cbatch ((s.me.q.withOpen cb).openNum cb)
        (if va = 0 then none else some (s.me.rs va)) ((s.me.rs v).setWidth 32) counters) none]) with nextId := s.me.q.nextId + 1 } }) := by
  dsimp only
  rw [exec_cbatch, enqueue_copyQueue, commandOf_atNextBatch, atNextBatch, me_withMe, withMe_withMe, batchClosed_get, batchClosed_nextId]

/-! ### QFENCE (06 R109; 10 R218) -/

/-- What commands that enter queues may change: the queues of the current core, and the count of its array commands. -/
def OnlyQueued (s t : State) : Prop :=
  t = s.withMe t.me ∧ t.me = { s.me with q := t.me.q, mx := { s.me.mx with numM := t.me.mx.numM } }

theorem OnlyQueued.refl (s : State) : OnlyQueued s s := ⟨(withMe_me s).symm, rfl⟩

theorem OnlyQueued.trans {s t u : State} (h : OnlyQueued s t) (h' : OnlyQueued t u) : OnlyQueued s u := by
  obtain ⟨hst, hme⟩ := h
  obtain ⟨htu, hme'⟩ := h'
  constructor
  · rw [htu, hst, withMe_withMe, me_withMe]
  · rw [hme', hme]

theorem onlyQueued_enqueue (s : State) (q : QueueId) (k : CmdKind) : OnlyQueued s (s.enqueue q k) := by
  rw [State.enqueue, modMe_eq_withMe, OnlyQueued, me_withMe]
  refine ⟨rfl, ?_⟩
  cases q <;> rfl

theorem kinds_enqueue (s : State) (q i : QueueId) (k : CmdKind) :
    ((s.enqueue q k).me.q.get i).map (·.kind) = (s.me.q.get i).map (·.kind) ++ if i = q then [k] else [] := by
  have hput : (s.enqueue q k).me.q.get i = (s.me.q.put q (s.me.q.get q ++ [s.commandOf k none])).get i := by
    rw [State.enqueue, modMe_eq_withMe, me_withMe]
    cases q <;> rfl
  rw [hput]
  split
  · subst i
    rw [queues_get_put_same, List.map_append]
    rfl
  · rw [queues_get_put_ne _ _ ‹_›, List.append_nil]

/-- The state in which each of these queues has got an entry of a fence. -/
def fenced (s : State) (id : Nat) (l : List QueueId) : State := l.foldl (fun s q => s.enqueue q (.qfence id)) s

theorem onlyQueued_fenced (s : State) (id : Nat) (l : List QueueId) : OnlyQueued s (fenced s id l) :=
  List.foldlRecOn l _ (motive := OnlyQueued s) (.refl s) fun t ht q _ => ht.trans (onlyQueued_enqueue t q _)

theorem kinds_fenced (id : Nat) (i : QueueId) {l : List QueueId} (hl : l.Nodup) (s : State) :
    ((fenced s id l).me.q.get i).map (·.kind) = (s.me.q.get i).map (·.kind) ++ if i ∈ l then [.qfence id] else [] := by
  induction l generalizing s with
  | nil => exact (List.append_nil _).symm
  | cons q l ih =>
    obtain ⟨hq, hl⟩ := List.nodup_cons.1 hl
    rw [fenced, List.foldl_cons, ← fenced, ih hl, kinds_enqueue, List.append_assoc]
    congr 1
    by_cases hi : i = q
    · subst i
      simp [hq]
    · simp [hi]

theorem maskList_nodup (m : QMask) : (maskList m).Nodup := by
  obtain ⟨ca, cb, m, bank, dec⟩ := m
  revert ca cb m bank dec
  decide

theorem exec_qfence (s : State) (m : QMask) :
    exec (.qfence m) s = .next (fenced { s with nextFence := s.nextFence + 1 } s.nextFence (maskList m)) := rfl

/-! ### PREF (05 R99; 10 R221; log 56) -/

/-- What bringing lines into L2 may change: what the translation units and L2 hold, what regions are charged, and the choices made. -/
def Prefetched (s t : State) : Prop :=
  ∃ tlb l2 charges choices, t = { s with trans := { s.trans with tlb := tlb }, l2 := l2, charges := charges, choices := choices }

theorem Prefetched.refl (s : State) : Prefetched s s := ⟨_, _, _, _, rfl⟩

theorem Prefetched.trans {s t u : State} (h : Prefetched s t) (h' : Prefetched t u) : Prefetched s u := by
  obtain ⟨_, _, _, _, rfl⟩ := h
  obtain ⟨_, _, _, _, rfl⟩ := h'
  exact ⟨_, _, _, _, rfl⟩

theorem prefetched_l2Touch (s : State) (who : Requester) (p : Page) (ia n hint : Nat) (write : Bool) :
    Prefetched s (s.l2Touch who p ia n hint write) :=
  List.foldlRecOn _ _ (motive := Prefetched s) (.refl s) fun _ ht _ _ => ht.trans ⟨_, _, _, _, rfl⟩

theorem prefetched_reach (s : State) (who : Requester) (p : Page) (ia n hint : Nat) (write : Bool) :
    Prefetched s (s.reach who p ia n hint write) := by
  obtain ⟨tlb, hcache⟩ := cachePage_tlb s (iaLocal ia)
  have hcached : Prefetched s (s.cachePage (iaLocal ia)) := ⟨tlb, _, _, _, hcache⟩
  exact (hcached.trans (prefetched_l2Touch _ who p ia n hint write)).trans ⟨_, _, _, _, rfl⟩

theorem prefetched_prefetchPiece (s : State) (who : Requester) (hint : Nat) (t : Target) (n : Nat) :
    Prefetched s (s.prefetchPiece who hint t n) := by
  unfold State.prefetchPiece
  split
  · split
    · exact .refl s
    · split
      · exact prefetched_reach s who _ _ n hint false
      · exact .refl s
  · exact .refl s

theorem prefetch_of_fails {s : State} {who : Requester} {l : List (Target × Nat)} {p : Nat × Nat} (hint : Nat)
    (h : (l.findSome? fun x => s.prefPiece who x.1) = some p) :
    s.prefetch who hint l = ({ s with choices := s.choices + 1 }, some p) := by
  simp only [State.prefetch, h]

theorem prefetch_of_passes {s : State} {who : Requester} {l : List (Target × Nat)} (hint : Nat)
    (h : (l.findSome? fun x => s.prefPiece who x.1) = none) : ∃ t, s.prefetch who hint l = (t, none) ∧ Prefetched s t := by
  simp only [State.prefetch, h]
  exact ⟨_, rfl, List.foldlRecOn l _ (motive := Prefetched s) ⟨_, _, _, _, rfl⟩ fun _ ht _ _ =>
    ht.trans (prefetched_prefetchPiece _ _ _ _ _)⟩

/-- The lines that PREF names, with their bytes. -/
def prefLines (s : State) (td : BitVec 6) : List (Target × Nat) :=
  (s.pieces s.cur s.me.sys.wins { r := true } (s.me.opnd td)).map fun (t, _, n) => (t, n)

/-- What becomes of a prefetch: a violation is logged. -/
def prefOutcome : State × Option (Nat × Nat) → State
  | (t, some (cls, addr)) => t.logViolation t.cur cls addr
  | (t, none) => t

theorem findSome?_prefLines (s : State) (td : BitVec 6) : ((prefLines s td).findSome? fun x => s.prefPiece (.core s.cur) x.1) =
    (s.pieces s.cur s.me.sys.wins { r := true } (s.me.opnd td)).findSome? fun x => s.prefPiece (.core s.cur) x.1 := List.findSome?_map

section
variable {s : State} {td : BitVec 6} (hint : Hint) (ht : s.tdCheck td [3, 7] = none)
include ht

theorem exec_pref_unrefused :
    exec (.pref td hint) s = .next (prefOutcome (s.prefetch (.core s.cur) hint.code.toNat (prefLines s td))) := next_orRaise_of_none ht rfl

theorem exec_pref_of_passes
    (h : ∀ x ∈ s.pieces s.cur s.me.sys.wins { r := true } (s.me.opnd td), s.prefPiece (.core s.cur) x.1 = none) :
    ∃ t, exec (.pref td hint) s = .next t ∧ Prefetched s t := by
  obtain ⟨t, hpref, hframe⟩ := prefetch_of_passes hint.code.toNat ((findSome?_prefLines s td).trans (List.findSome?_eq_none_iff.2 h))
  exact ⟨t, by rw [exec_pref_unrefused hint ht, hpref, prefOutcome], hframe⟩

theorem exec_pref_of_fails {p : Nat × Nat}
    (h : (s.pieces s.cur s.me.sys.wins { r := true } (s.me.opnd td)).findSome? (fun x => s.prefPiece (.core s.cur) x.1) = some p) :
    exec (.pref td hint) s = .next ({ s with choices := s.choices + 1 }.logViolation s.cur p.1 p.2) := by
  rw [exec_pref_unrefused hint ht, prefetch_of_fails hint.code.toNat ((findSome?_prefLines s td).trans h), prefOutcome]

end

/-! ### The bank queue (10 R222, R223) -/

section
variable {s : State} {b : BitVec 5} {p : Nat × Nat} (hset : engineSet (s.me.rs b) = some p)
include hset

theorem exec_bkcmd_eq (a v : BitVec 5) : exec (.bkcmd a b v) s =
    .next (s.orRaise (failIf ((s.me.rs a).toNat % 4 != 0) (.trap 0x17 (s.me.rs b) (s.me.rs a))) fun s =>
      s.queuedBank (.bkcmd (s.me.rs a) p.1 p.2 (s.me.rs v))) := by
  show execBkcmd a b v s = _
  simp only [execBkcmd, hset, enqueue_bank]
  rfl

theorem exec_bkcmd_good {a : BitVec 5} (v : BitVec 5) (ha : (s.me.rs a).toNat % 4 = 0) :
    exec (.bkcmd a b v) s = .next (s.queuedBank (.bkcmd (s.me.rs a) p.1 p.2 (s.me.rs v))) := by
  rw [exec_bkcmd_eq hset, ha]
  rfl

theorem exec_bkcmd_misaligned {a : BitVec 5} (v : BitVec 5) (ha : (s.me.rs a).toNat % 4 ≠ 0) :
    exec (.bkcmd a b v) s = .next (s.raise (.trap 0x17 (s.me.rs b) (s.me.rs a))) := by
  rw [exec_bkcmd_eq hset, bne_iff_ne.2 ha]
  rfl

theorem exec_bkvec_unrefused {td : BitVec 6} (ht : s.trapBkvec td b = none) :
    exec (.bkvec td b) s = .next (s.queuedBank (.bkvec (s.me.opnd td) p.1 p.2)) := by
  refine next_orRaise_of_none ht ?_
  simp only [hset, enqueue_bank]

end

theorem exec_bkcmd_badSet {s : State} {b : BitVec 5} (a v : BitVec 5) (hset : engineSet (s.me.rs b) = none) :
    exec (.bkcmd a b v) s = .next (s.raise (.trap 0x17 (s.me.rs b) (s.me.rs a))) := by
  show execBkcmd a b v s = _
  simp only [execBkcmd, hset]
  rfl

/-- A good engine set names some engines, all of the module's 512. -/
theorem engineSet_bounds {w : Word} {p : Nat × Nat} (h : engineSet w = some p) : 0 < p.2 ∧ p.1 + p.2 ≤ 512 := by
  simp only [engineSet, Option.ite_none_left_eq_some, Option.some.injEq, Bool.or_eq_true, beq_iff_eq, decide_eq_true_eq] at h
  obtain ⟨hgood, rfl⟩ := h
  dsimp only
  omega

theorem batchFenceAndBankCommandsQueue : BatchFenceAndBankCommandsQueue := by
  intro s va v a b counters m td hint p
  refine ⟨⟨_, exec_cbatch_eq s va v counters, ?batch⟩, ⟨_, exec_qfence s m, ?fence⟩,
    fun ht => ⟨fun h => ?pref, exec_pref_of_fails hint ht⟩, fun hset ha => exec_bkcmd_good hset v ha, fun hbad => ?bank,
    fun ht hset => exec_bkvec_unrefused hset ht, engineSet_bounds⟩
  case batch =>
    rw [me_withMe]
    refine ⟨rfl, rfl, queues_put_batches _ _ _, ?_, ?_, queues_get_put_same _ _ _, fun k hk => ?_⟩
    · exact (queues_put_openNum _ _ _ _).trans (batchClosed_openNum _ _)
    · exact (queues_put_openNum _ _ _ _).trans (batchClosed_openNum_other _ _)
    · exact (queues_get_put_ne _ _ hk).trans (batchClosed_get _ _ _)
  case fence =>
    obtain ⟨hs, hme⟩ := onlyQueued_fenced { s with nextFence := s.nextFence + 1 } s.nextFence (maskList m)
    exact ⟨hs, fun k => kinds_fenced _ k (maskList_nodup m) _, hme⟩
  case pref =>
    obtain ⟨t, hexec, _, _, _, _, rfl⟩ := exec_pref_of_passes hint ht h
    exact ⟨_, hexec, rfl⟩
  case bank =>
    cases hset : engineSet (s.me.rs b) with
    | none => exact exec_bkcmd_badSet a v hset
    | some p => exact exec_bkcmd_misaligned hset v (hbad.resolve_left (by simp [hset]))

/-! ### STMAP (10 R219; log 26) -/

/-- The state in which the entry that STMAP replaces has been written back, if there is one. -/
def entryRetired (s : State) (j : BitVec 3) : State :=
  match s.me.loc.map[j.toNat] with
  | some old => s.retireEntry s.cur old
  | none => s

/-- The entry that STMAP makes, if its record does not end one. -/
def stmapEntry (s : State) (rec : BitVec 5) : Option StashEntry :=
  let r := s.stmapRecord rec
  match s.me.stashWindow r with
  | .ok (ia, w) => if r.len = 0 then none else some { lbase := r.lbase, va := r.va, ia := ia, len := r.len, write := r.write && w }
  | .error _ => none

theorem stmapEntry_of_empty {s : State} {rec : BitVec 5} (h : (s.stmapRecord rec).len = 0) : stmapEntry s rec = none := by
  simp only [stmapEntry, h, if_true]
  split <;> rfl

theorem stmapEntry_of_window {s : State} {rec : BitVec 5} {ia : Nat} {w : Bool} (h : (s.stmapRecord rec).len ≠ 0)
    (hw : s.me.stashWindow (s.stmapRecord rec) = .ok (ia, w)) :
    stmapEntry s rec = some { lbase := (s.stmapRecord rec).lbase, va := (s.stmapRecord rec).va, ia := ia, len := (s.stmapRecord rec).len
                              write := (s.stmapRecord rec).write && w } := by
  simp only [stmapEntry, hw, if_neg h]

theorem exec_stmap (s : State) (j : BitVec 3) (rec : BitVec 5) : exec (.stmap j rec) s = .next (s.orRaise (s.meetsStmap j rec) fun s =>
    (entryRetired s j).delivering 1 [.stash j (stmapEntry s rec)]) := rfl

/-- An STMAP that replaces no entry meets nothing but its own checks. -/
theorem meetsStmap_of_free {s : State} {j : BitVec 3} (rec : BitVec 5) (h : s.me.loc.map[j.toNat] = none) :
    s.meetsStmap j rec = s.trapStmap j rec := by
  rw [State.meetsStmap, h]
  cases s.trapStmap j rec <;> rfl

/-! ### STFLUSH (10 R220; log 27) -/

theorem mem_granulesOf {c : Core} {e : StashEntry} {g : Granule} :
    g ∈ c.granulesOf e ↔ g ∈ c.loc.granules ∧ e.lbase ≤ g.base ∧ g.base < e.lbase + e.len := by
  simp [Core.granulesOf]

theorem mem_dirtyCells {c : Core} {g : Granule} {n i : Nat} {b : Byte} :
    (i, b) ∈ c.dirtyCells g 0 n ↔ i < n ∧ g.dirty.getLsbD i = true ∧ b = c.loc.lmem.get (g.base + i) := by
  simp only [Core.dirtyCells, List.mem_map, List.mem_filter, List.mem_range, Nat.zero_add, Nat.add_zero, Prod.mk.injEq]
  constructor
  · rintro ⟨_, ⟨hi, hd⟩, rfl, rfl⟩
    exact ⟨hi, hd, rfl⟩
  · rintro ⟨hi, hd, rfl⟩
    exact ⟨i, ⟨hi, hd⟩, rfl, rfl⟩

/-- The dirty bytes of a granule with their intermediate addresses, where it maps to some. -/
def granuleCells (c : Core) (g : Granule) : List (Nat × Byte) :=
  match c.granuleIa g with
  | some ia => (c.dirtyCells g 0 4096).map fun (o, b) => (ia + o, b)
  | none => []

theorem mem_granuleCells {c : Core} {g : Granule} {a : Nat} {b : Byte} : (a, b) ∈ granuleCells c g ↔ ∃ base i,
    c.granuleIa g = some base ∧ i < 4096 ∧ g.dirty.getLsbD i = true ∧ a = base + i ∧ b = c.loc.lmem.get (g.base + i) := by
  unfold granuleCells
  cases c.granuleIa g with
  | none => simp
  | some base =>
    simp only [List.mem_map, Prod.exists, mem_dirtyCells, Prod.mk.injEq, Option.some.injEq]
    constructor
    · rintro ⟨i, _, ⟨hi, hd, rfl⟩, rfl, rfl⟩
      exact ⟨base, i, rfl, hi, hd, rfl, rfl⟩
    · rintro ⟨_, i, rfl, hi, hd, rfl, rfl⟩
      exact ⟨i, _, ⟨hi, hd, rfl⟩, rfl, rfl⟩

/-- What STFLUSH captures. -/
def capturedCells (c : Core) (mask : BitVec 8) : List (Nat × Byte) :=
  ((c.maskedEntries mask).flatMap c.granulesOf).flatMap (granuleCells c)

theorem mem_capturedCells {c : Core} {mask : BitVec 8} {a : Nat} {b : Byte} : (a, b) ∈ capturedCells c mask ↔
    ∃ e ∈ c.maskedEntries mask, ∃ g ∈ c.loc.granules, e.lbase ≤ g.base ∧ g.base < e.lbase + e.len ∧ (a, b) ∈ granuleCells c g := by
  simp only [capturedCells, List.mem_flatMap, mem_granulesOf]
  constructor
  · rintro ⟨g, ⟨e, he, hg, hlo, hhi⟩, hab⟩
    exact ⟨e, he, g, hg, hlo, hhi, hab⟩
  · rintro ⟨e, he, g, hg, hlo, hhi, hab⟩
    exact ⟨g, ⟨e, he, hg, hlo, hhi⟩, hab⟩

theorem exec_stflush (s : State) (mask : BitVec 8) : exec (.stflush mask) s =
    let f := s.flushStores s.cur
    .next (f.queued f.copyQueue (.stflush (capturedCells f.me mask))) :=
  congrArg Host.Outcome.next (member_copyQueue (s.flushStores s.cur) _)

/-! ### STINV (10 R220) -/

/-- Granules that are dropped one after another leave those that stand elsewhere. -/
theorem foldl_dropGranule (l : List Granule) (c : Core) : l.foldl (fun c g => c.dropGranule g.base) c =
    { c with loc := { c.loc with granules := c.loc.granules.filter fun g => l.all fun x => g.base != x.base } } := by
  induction l generalizing c with
  | nil => simp
  | cons x l ih =>
    rw [List.foldl_cons, ih]
    simp only [Core.dropGranule, List.filter_filter, List.all_cons, Bool.and_comm]

/-- The core without the stores of earlier bundles into some entries, the loads that are in flight having read. -/
def storesDropped (c : Core) (es : List StashEntry) : Core :=
  { c.fixLoads with
    loc := { c.fixLoads.loc with stores := c.loc.stores.filter fun st => !(decide (st.issue < c.issue) && es.any st.inEntry) } }

/-- The core after STINV. -/
def stashDropped (c : Core) (es : List StashEntry) : Core :=
  (es.flatMap (storesDropped c es).granulesOf).foldl (fun c g => c.dropGranule g.base) (storesDropped c es)

theorem exec_stinv (s : State) (mask : BitVec 8) :
    exec (.stinv mask) s = .next (s.withMe (stashDropped s.me (s.me.maskedEntries mask))) := rfl

theorem stashDropped_eq (c : Core) (es : List StashEntry) : stashDropped c es =
    { storesDropped c es with loc := { (storesDropped c es).loc with
        granules := c.loc.granules.filter fun g => (es.flatMap (storesDropped c es).granulesOf).all fun x => g.base != x.base } } :=
  foldl_dropGranule _ _

/-- No granule that is left lies in an entry that STINV names. -/
theorem stashDropped_granules {c : Core} {es : List StashEntry} {e : StashEntry} (he : e ∈ es) :
    ∀ g ∈ (stashDropped c es).loc.granules, g.base < e.lbase ∨ e.lbase + e.len ≤ g.base := by
  intro g hg
  rw [stashDropped_eq] at hg
  obtain ⟨hg, hkept⟩ := List.mem_filter.1 hg
  by_contra hin
  have hmem : g ∈ es.flatMap (storesDropped c es).granulesOf :=
    List.mem_flatMap.2 ⟨e, he, mem_granulesOf.2 ⟨hg, by omega, by omega⟩⟩
  exact bne_iff_ne.1 (List.all_eq_true.1 hkept g hmem) rfl

/-- No store of an earlier bundle that is left goes into an entry that STINV names. -/
theorem stashDropped_stores {c : Core} {es : List StashEntry} {e : StashEntry} (he : e ∈ es) :
    ∀ x ∈ (stashDropped c es).loc.stores, x.issue < c.issue → x.inEntry e = false := by
  intro x hx hissue
  rw [stashDropped_eq] at hx
  obtain ⟨-, hkept⟩ := List.mem_filter.1 hx
  have hnone : es.any x.inEntry = false := by simpa [hissue] using hkept
  simpa using List.any_eq_false.1 hnone e he

theorem stashControlsAct : StashControlsAct := by
  intro s j rec mask ia w
  refine ⟨fun x hx => ?raised, fun hm => ⟨fun hr => ?ended, fun hr hw => ?made⟩, meetsStmap_of_free rec,
    ⟨_, exec_stflush s mask, fun a b => ?flush⟩, ⟨_, exec_stinv s mask, ?inv⟩⟩
  case raised => rw [exec_stmap, hx, orRaise_some]
  case ended => rw [exec_stmap, hm, orRaise_none, stmapEntry_of_empty hr]; rfl
  case made => rw [exec_stmap, hm, orRaise_none, stmapEntry_of_window hr hw]; rfl
  case flush => simp only [mem_capturedCells, mem_granuleCells]
  case inv =>
    rw [me_withMe]
    refine ⟨rfl, fun e he => ⟨stashDropped_granules he, stashDropped_stores he⟩, ?_⟩
    rw [stashDropped_eq]
    exact ⟨rfl, rfl, rfl⟩

/-- Settles O36: the queues after CBATCH, QFENCE and the bank commands, the frame of PREF, and the stash after its controls. -/
theorem batchStashAndBankCommandsAct : Obligations.BatchStashAndBankCommandsAct := ⟨batchFenceAndBankCommandsQueue, stashControlsAct⟩

end Sys2Proof.Proofs
end

section
/-! PROOFS. The X slot (03 R55; 11 R226 to R234, R242; log 22): what the transforms and the conversions put in flight on usable names, O29;
the table banks, and the rows of the decoder FIFO, O30. -/

namespace Sys2Proof.Proofs

open Sys2Proof Sys2Proof.Machine Sys2Proof.Laws

/-! ### Registers put in flight on usable names (03 R47, 08 R147) -/

/-- An instruction whose one check is that of a list of names has its effect where they are usable. -/
theorem next_orRaise_vwinCheck {s : State} {names : List Nat} (h : s.me.usable names) (f : State → State) :
    (.next (s.orRaise (s.vwinCheck names) f) : Host.Outcome State Fault Refusal) = .next (f s) := by
  rw [vwinCheck_of_usable h, orRaise_none]

/-- Registers put in flight one after the other have their places by the names of the state before them. -/
theorem foldl_emitV_vec (s : State) (lat : Nat) (name : Nat → Nat) (value : Nat → VecReg) (rs : List Nat) :
    rs.foldl (fun t r => t.emitV lat (.vec (t.me.phys (name r)) (value r) false)) s =
      s.delivering (lat * s.me.vecScale) (rs.map fun r => .vec (s.me.phys (name r)) (value r) false) :=
  foldl_emitV s lat (fun t r => .vec (t.me.phys (name r)) (value r) false) (fun n l r => by rw [phys_delivering]) rs

theorem emitV_vec_emitV_vec {s t : State} {lat m n : Nat} {v w : VecReg} (ht : t = s.emitV lat (.vec (s.me.phys m) v false)) :
    t.emitV lat (.vec (t.me.phys n) w false) =
      s.delivering (lat * s.me.vecScale) [.vec (s.me.phys m) v false, .vec (s.me.phys n) w false] := by
  subst ht
  exact foldl_emitV_vec s lat (fun r => if r = 0 then m else n) (fun r => if r = 0 then v else w) [0, 1]

theorem emitRuns_pair (s : State) (lat : Nat) (d : BitVec 6) (w : Nat) (xs ys : List Nat) :
    s.emitRuns lat d w [xs, ys] = s.delivering (lat * s.me.vecScale)
      [.vec (s.me.phys d.toNat) (vecOf w xs) false, .vec (s.me.phys (d.toNat + 1)) (vecOf w ys) false] :=
  emitV_vec_emitV_vec rfl

/-! ### XPOSE, XZIP, XUNZIP, XEXPAND and XCOMPR (11 R226 to R228) -/

theorem groupNames_pair (d : BitVec 6) : groupNames d .pair = [d.toNat, d.toNat + 1] := rfl

theorem rearrangementsDeliver : RearrangementsDeliver := by
  intro s d a b c w t n out z u
  refine ⟨fun h => next_orRaise_trapV h _, fun h => ?zip, fun h => ?unzip, fun h => ⟨next_orRaise_trapV h _, next_orRaise_trapV h _⟩⟩
  case zip =>
    have hnames : s.me.usable (groupNames d .pair ++ [a.toNat, b.toNat]) := h
    exact (next_orRaise_vwinCheck hnames _).trans (congrArg Host.Outcome.next (emitRuns_pair s 4 d n _ _))
  case unzip =>
    have hnames : s.me.usable (groupNames a .pair ++ groupNames d .pair) := usable_of_subset h (by simp [groupNames_pair])
    exact (next_orRaise_vwinCheck hnames _).trans (congrArg Host.Outcome.next (emitRuns_pair s 4 d n _ _))

/-! ### XCVT and XPACK (11 R229, R230) -/

theorem exec_xcvt_of_usable {s : State} {d a : BitVec 6} {fin fout : Fmt} {src dst : Elt} (r : XRound) (hsrc : fmtElt fin = some src)
    (hdst : fmtElt fout = some dst) (h : s.me.usable [d.toNat, a.toNat])
    (hc : s.convTrap (convCounts (s.xcvtConv a src dst r)) = none) :
    exec (.xcvt d a fin fout r) s =
      .next (s.emitConv 4 d dst.width (s.xcvtConv a src dst r) false (xcvtSamples s.me.ctl.fmode r)) := by
  show execXcvt d a fin fout r s = _
  simp only [execXcvt, hsrc, hdst]
  exact next_orRaise_convTrap h hc _

theorem emitVec_emitVec (s : State) (lat : Nat) (d b : BitVec 6) (v w : VecReg) :
    (s.emitVec lat d v false).emitVec lat b w false =
      s.delivering (lat * s.me.vecScale) [.vec (s.me.phys d.toNat) v false, .vec (s.me.phys b.toNat) w false] :=
  emitV_vec_emitV_vec rfl

/-! ### XUNPK (11 R231) -/

theorem length_elemsOfNat (w n x : Nat) : (elemsOfNat w n x).length = n := by
  induction n generalizing x with
  | zero => rfl
  | succ n ih => rw [elemsOfNat, List.length_cons, ih]

theorem length_elems (v : VecReg) (w : Nat) : (elems v w).length = elemCount w := length_elemsOfNat _ _ _

/-- The elements that XUNPK makes of the codes in one register and the scale bytes in another. -/
def unpackedElems (f : FFmt) (flush : Bool) (codes scales : VecReg) : List Nat :=
  (List.range 512).zipWith
    (fun i c => f.res .rne false (b4Value ((elems scales 8).toArray.getD (i / 32) 0) c flush (.ofNat 1))) ((elems codes 4).take 512)

theorem length_unpackedElems (f : FFmt) (flush : Bool) (codes scales : VecReg) : (unpackedElems f flush codes scales).length = 512 := by
  have hcount : elemCount 4 = 1024 := rfl
  rw [unpackedElems, List.length_zipWith, List.length_range, List.length_take, length_elems, hcount]
  rfl

/-- Each code is decoded with the scale byte of its block of 32. -/
theorem unpackedElems_getElem? (f : FFmt) (flush : Bool) (codes scales : VecReg) {i : Nat} (hi : i < 512) :
    (unpackedElems f flush codes scales)[i]? =
      some (f.res .rne false (b4Value (elem scales 8 (i / 32)) (elem codes 4 i) flush (.ofNat 1))) := by
  have hcode : ((elems codes 4).take 512)[i]? = some (elem codes 4 i) := by
    have hin : i < elemCount 4 := hi.trans (by decide)
    rw [List.getElem?_take_of_lt hi, elems_getElem? codes hin]
  have hscale : (elems scales 8).toArray.getD (i / 32) 0 = elem scales 8 (i / 32) := by
    have hin : i / 32 < elemCount 8 := (Nat.div_le_self i 32).trans_lt hi
    rw [Array.getD_eq_getD_getElem?, List.getElem?_toArray, elems_getElem? scales hin, Option.getD_some]
  rw [unpackedElems, List.getElem?_zipWith, List.getElem?_range hi, hcode]
  simp only [hscale]

theorem exec_xunpk_of_usable {s : State} {d a b : BitVec 6} {bf : Bool}
    (h : s.me.usable (groupNames d (packGroup bf) ++ [a.toNat, b.toNat])) :
    exec (.xunpk d a b bf) s = .next (s.delivering (6 * s.me.vecScale) ((List.range (packGroup bf).count).map fun r =>
      .vec (s.me.phys (d.toNat + r)) (vecOf (packElt bf).width (everyKth (packGroup bf).count r
        (unpackedElems (packElt bf) (s.me.ctl.fmode.getLsbD 10) (s.vr a) (s.vr b)))) false)) :=
  (next_orRaise_vwinCheck h _).trans (congrArg Host.Outcome.next (foldl_emitV_vec s 6 (d.toNat + ·) _ _))

theorem formatConversionsDeliver : FormatConversionsDeliver := by
  intro s d a b fin fout src dst r bty bf m k
  refine ⟨fun hsrc hdst h hc => exec_xcvt_of_usable r hsrc hdst h hc, fun h => ?pack, fun h => ?unpack⟩
  case pack =>
    show execXpack d a b bty bf s = _
    rw [execXpack, h, orRaise_none]
    simp only [emitVec_emitVec]
    rfl
  case unpack =>
    exact ⟨_, length_unpackedElems _ _ _ _, fun i hi => unpackedElems_getElem? _ _ _ _ hi, exec_xunpk_of_usable h⟩

/-- Settles O29: a transform is the check of its names, and of its counters, and then its registers put in flight together. -/
theorem transformsDeliver : Obligations.TransformsDeliver := ⟨rearrangementsDeliver, formatConversionsDeliver⟩

/-! ### The table banks (11 R232 to R234) -/

theorem exec_xtld_of_usable {s : State} {d a : BitVec 6} (fn : BitVec 4) (h : s.me.usable (d.toNat :: groupNames a .quad)) :
    exec (.xtld d a fn) s = .next (s.delivering 1 [.shadow fn (tableOf (s.vr d) ((groupNames a .quad).map s.me.rv))]) :=
  next_orRaise_vwinCheck h _

theorem exec_xtbl_of_active {s : State} {d a : BitVec 6} {fn : BitVec 4} {f : TableFn} (t : Bool) (hf : s.me.xs.active[fn.toNat] = some f)
    (h : s.me.usable [d.toNat, a.toNat]) :
    exec (.xtbl d a fn t) s = .next (s.vectored 6 d (vecOf (packElt f.bf16).width
      ((elems (s.vr a) (packElt f.bf16).width).map (tableElem s.me.ctl.fmode f (packElt f.bf16)))) t) := by
  show execXtbl d a fn t s = _
  simp only [execXtbl, hf]
  exact next_orRaise_trapV h _

theorem exec_xtbl_of_invalid {s : State} (d a : BitVec 6) {fn : BitVec 4} (t : Bool) (hf : s.me.xs.active[fn.toNat] = none) :
    exec (.xtbl d a fn t) s = .next (s.raise s.illegal) := by
  show execXtbl d a fn t s = _
  simp only [execXtbl, hf]

/-! ### XEXP (03 R53, R55; 11 R242) -/

/-- The oldest slot of h15 holds no such rows, or there is none. -/
def NoRows (c : Core) (k : BitVec 6) (n1 : BitVec 3) : Prop :=
  c.handles[15] = none ∨ ∃ h, c.handles[15] = some h ∧ (h.filled = 0 ∨ h.slotBytes / 512 < k.toNat + n1.toNat + 1)

theorem trapXexp_of_noRows {s : State} {d k : BitVec 6} {n1 : BitVec 3} (h : s.me.usable (xexpNames d n1)) (hbad : NoRows s.me k n1) :
    s.trapXexp d k n1 = some (handleTrap 15) := by
  rw [State.trapXexp, vwinCheck_of_usable h]
  obtain hnone | ⟨x, hx, hfew⟩ := hbad
  · simp only [hnone]
    rfl
  · have hcheck : (x.filled == 0 || decide (x.slotBytes / 512 < k.toNat + n1.toNat + 1)) = true := by
      rw [Bool.or_eq_true, beq_iff_eq, decide_eq_true_iff]
      exact hfew
    simp only [hx, if_pos hcheck]
    rfl

theorem exec_xexp_of_noRows {s : State} {d k : BitVec 6} {n1 : BitVec 3} (t : Bool) (h : s.me.usable (xexpNames d n1))
    (hbad : NoRows s.me k n1) : exec (.xexp d k n1 t) s = .next (s.raise (handleTrap 15)) := by
  show execXexp d k n1 t s = _
  rw [execXexp, trapXexp_of_noRows h hbad, orRaise_some]

theorem me_loading (s : State) (ready a n : Nat) (dest : LoadDest) :
    ∃ loc, (s.loading ready a n dest).me = { s.me with loc := loc } := ⟨_, me_withMe s _⟩

theorem phys_loading (s : State) (ready a n : Nat) (dest : LoadDest) : (s.loading ready a n dest).me.phys = s.me.phys := by
  obtain ⟨loc, hme⟩ := me_loading s ready a n dest
  rw [hme]
  rfl

theorem vecScale_loading (s : State) (ready a n : Nat) (dest : LoadDest) : (s.loading ready a n dest).me.vecScale = s.me.vecScale := by
  obtain ⟨loc, hme⟩ := me_loading s ready a n dest
  rw [hme]
  rfl

/-- Rows loaded one after the other have their places and their time by the state before them. -/
theorem foldl_emitLoad_vec (s : State) (lat : Nat) (addr name : Nat → Nat) (js : List Nat) :
    js.foldl (fun t j => t.emitLoad (lat * t.me.vecScale) (addr j) 512 (.vec (t.me.phys (name j)))) s =
      js.foldl (fun t j => t.loading (lat * s.me.vecScale) (addr j) 512 (.vec (s.me.phys (name j)))) s := by
  suffices hfrom : ∀ t : State, t.me.phys = s.me.phys → t.me.vecScale = s.me.vecScale →
      js.foldl (fun t j => t.emitLoad (lat * t.me.vecScale) (addr j) 512 (.vec (t.me.phys (name j)))) t =
        js.foldl (fun t j => t.loading (lat * s.me.vecScale) (addr j) 512 (.vec (s.me.phys (name j)))) t from hfrom s rfl rfl
  induction js with
  | nil => exact fun t _ _ => rfl
  | cons j js ih =>
    intro t hphys hscale
    rw [List.foldl_cons, List.foldl_cons, emitLoad_eq_loading, hphys, hscale]
    exact ih _ ((phys_loading t _ _ _ _).trans hphys) ((vecScale_loading t _ _ _ _).trans hscale)

theorem exec_xexp_of_rows {s : State} {d k : BitVec 6} {n1 : BitVec 3} {h : Handle} (t : Bool) (hnone : s.trapXexp d k n1 = none)
    (hh : s.me.handles[15] = some h) :
    let rows := (List.range (n1.toNat + 1)).foldl (fun (u : State) j => u.loading (6 * s.me.vecScale)
      (h.slotAddr h.cons + 512 * k.toNat + 512 * j) 512 (.vec (s.me.phys (d.toNat + j)))) s
    exec (.xexp d k n1 t) s = .next (if t then rows.delivering 1 [.advance 15 false 1] else rows) := by
  show execXexp d k n1 t s = _
  simp only [execXexp, hnone, orRaise_none, hh]
  rw [foldl_emitLoad_vec s 6 _ (d.toNat + ·)]
  rfl

/-- Settles O30: a table instruction is its check and then its result in flight, and XEXP is its check of the names, its check of h15,
and then its loads. -/
theorem tablesAndExpansionDeliver : Obligations.TablesAndExpansionDeliver := by
  intro s d a k fn n1 t f h
  exact ⟨exec_xtld_of_usable fn, rfl, exec_xtbl_of_active t, exec_xtbl_of_invalid d a t, exec_xexp_of_noRows t, exec_xexp_of_rows t⟩

end Sys2Proof.Proofs
end

section
/-! PROOFS. The slots of operand memory (12 R244 to R246): what zeroing a range leaves of a cluster's elements and side-area, what a claim
finds, and O31. -/

namespace Sys2Proof.Proofs

open Sys2Proof Sys2Proof.Machine Sys2Proof.Laws

/-! ### Zeroed slots -/

/-- Dropping cells by their address keeps what reads elsewhere and leaves nothing there. -/
theorem mem_get_filter (keep : Nat → Bool) (x : Nat) (m : Mem) :
    Mem.get (m.filter fun c => keep c.1) x = if keep x then m.get x else 0 := by
  induction m with
  | nil => simp
  | cons c m ih =>
    obtain ⟨y, b⟩ := c
    by_cases hy : y = x
    · subst hy
      cases hk : keep y <;> simp [hk, Mem.get, ih]
    · cases hk : keep y <;> simp [hk, Mem.get, hy, ih]

theorem mem_get_clear (m : Mem) (a n x : Nat) : (m.clear a n).get x = if a ≤ x ∧ x < a + n then 0 else m.get x := by
  rw [Mem.clear, mem_get_filter fun y => !(decide (a ≤ y) && decide (y < a + n))]
  by_cases h : a ≤ x ∧ x < a + n <;> simp [h]

/-- An address lies in the slot of its quotient by the slots' size, and in no other. -/
theorem mem_get_clear_slot (m : Mem) {size : Nat} (hsize : 0 < size) (slot x : Nat) :
    (m.clear (slot * size) size).get x = if slot = x / size then 0 else m.get x := by
  have hslot : (slot * size ≤ x ∧ x < slot * size + size) ↔ slot = x / size := by
    rw [eq_comm, Nat.div_eq_iff hsize]
    omega
  simp only [mem_get_clear, hslot]

theorem omem_get_foldl_zeroSlot (l : List Nat) (cl : Cluster) (x : Nat) :
    (l.foldl Cluster.zeroSlot cl).omem.get x = if x / 32768 ∈ l then 0 else cl.omem.get x := by
  induction l generalizing cl with
  | nil => simp
  | cons i l ih =>
    rw [List.foldl_cons, ih, Cluster.zeroSlot, mem_get_clear_slot _ (by decide)]
    by_cases hi : i = x / 32768 <;> simp [hi, eq_comm]

theorem side_get_foldl_zeroSlot (l : List Nat) (cl : Cluster) (x : Nat) :
    (l.foldl Cluster.zeroSlot cl).side.get x = if x / 2048 ∈ l then 0 else cl.side.get x := by
  induction l generalizing cl with
  | nil => simp
  | cons i l ih =>
    rw [List.foldl_cons, ih, Cluster.zeroSlot, mem_get_clear_slot _ (by decide)]
    by_cases hi : i = x / 2048 <;> simp [hi, eq_comm]

/-! ### The range and its check -/

theorem mem_slotRange {first n : BitVec 6} {i : Nat} : i ∈ slotRange first n ↔ first.toNat ≤ i ∧ i < first.toNat + n.toNat := by
  simp only [slotRange, List.mem_map, List.mem_range]
  constructor
  · rintro ⟨k, hk, rfl⟩
    omega
  · exact fun h => ⟨i - first.toNat, by omega, by omega⟩

theorem trapRange_within {first n : BitVec 6} (hn : 0 < n.toNat) (h : first.toNat + n.toNat ≤ 64) : trapRange first n = none := by
  have hok : (n == 0 || decide (64 < first.toNat + n.toNat)) = false := by
    rw [Bool.or_eq_false_iff, beq_eq_false_iff_ne, decide_eq_false_iff_not]
    refine ⟨?_, by omega⟩
    rintro rfl
    exact absurd hn (by decide)
  rw [trapRange, hok, failIf_false]

theorem trapRange_outside {first n : BitVec 6} (h : n.toNat = 0 ∨ 64 < first.toNat + n.toNat) :
    trapRange first n = some (omslotTrap first.toNat) := by
  have hbad : (n == 0 || decide (64 < first.toNat + n.toNat)) = true := by
    rw [Bool.or_eq_true, beq_iff_eq, decide_eq_true_iff]
    exact h.imp_left fun hz => BitVec.eq_of_toNat_eq hz
  rw [trapRange, hbad, failIf_true]

/-! ### The claim -/

theorem mayClaim_iff (s : State) (i : Nat) : s.mayClaim i = true ↔
    s.slotOwner (clusterOf s.cur) i = none ∨ (s.slotOwner (clusterOf s.cur) i = some s.cur ∧ s.me.claims i = true) := by
  unfold State.mayClaim
  cases s.slotOwner (clusterOf s.cur) i <;> simp

theorem all_mayClaim_iff (s : State) (first n : BitVec 6) : (slotRange first n).all s.mayClaim = true ↔
    ∀ i, (first.toNat ≤ i ∧ i < first.toNat + n.toNat) →
      s.slotOwner (clusterOf s.cur) i = none ∨ (s.slotOwner (clusterOf s.cur) i = some s.cur ∧ s.me.claims i = true) := by
  simp only [List.all_eq_true, mem_slotRange, mayClaim_iff]

/-- Slots of a list that no core holds. -/
def freshSlots (s : State) (l : List Nat) : List Nat := l.filter fun i => (s.slotOwner (clusterOf s.cur) i).isNone

/-- The current core's cluster once the core has claimed these slots (12 R245). -/
def claimedCluster (s : State) (l : List Nat) : Cluster :=
  { (freshSlots s l).foldl Cluster.zeroSlot (s.cluster (clusterOf s.cur)) with
    owner := Vector.ofFn fun i : Fin 64 => if l.contains i.val then some s.cur else (s.cluster (clusterOf s.cur)).owner[i] }

/-- The state in which that cluster is as claimed and the current core has these results in flight besides. -/
def claimed (s : State) (l : List Nat) (results : List Pending) : State :=
  State.withMe { s with clusters := s.clusters.set (clusterOf s.cur).val (claimedCluster s l) } { s.me with pend := s.me.pend ++ results }

/-- Two results put in flight one after the other. -/
theorem delivering_delivering (s : State) (a b : Nat) (x y : Result) :
    (s.delivering a [x]).delivering b [y] = s.withMe { s.me with pend := s.me.pend ++ [s.flight a x, s.flight b y] } := by
  rw [State.delivering, flight_delivering, me_delivering, List.append_assoc]
  exact withMe_withMe s _ _

theorem exec_omclm_open {s : State} {first n : BitVec 6} (pd : BitVec 4) (hr : trapRange first n = none)
    (h : (slotRange first n).all s.mayClaim = true) : exec (.omclm first n pd) s =
      .next (claimed s (slotRange first n) [s.flight 1 (.names first.toNat n.toNat true), s.flight 2 (.p pd true)]) := by
  show execOmclm first n pd s = _
  simp only [execOmclm, hr, orRaise_none, h, emit_eq_delivering, delivering_delivering, Bool.not_true, Bool.false_eq_true, if_false]
  rfl

theorem exec_omclm_held {s : State} {first n : BitVec 6} (pd : BitVec 4) (hr : trapRange first n = none)
    (h : (slotRange first n).all s.mayClaim = false) : exec (.omclm first n pd) s = .next (s.delivering 2 [.p pd false]) := by
  show execOmclm first n pd s = _
  simp only [execOmclm, hr, orRaise_none, h, emit_eq_delivering, Bool.not_false, if_true]

theorem exec_omrel_within {s : State} {first n : BitVec 6} (hr : trapRange first n = none) :
    exec (.omrel first n) s = .next (s.delivering 1 [.names first.toNat n.toNat false]) := by
  show execOmrel first n s = _
  rw [execOmrel, hr, orRaise_none, emit_eq_delivering]

theorem exec_slots_outside {s : State} {first n : BitVec 6} (pd : BitVec 4) (hr : trapRange first n = some (omslotTrap first.toNat)) :
    exec (.omclm first n pd) s = .next (s.raise (omslotTrap first.toNat)) ∧
    exec (.omrel first n) s = .next (s.raise (omslotTrap first.toNat)) := by
  show execOmclm first n pd s = _ ∧ execOmrel first n s = _
  rw [execOmclm, execOmrel, hr, orRaise_some, orRaise_some]
  exact ⟨rfl, rfl⟩

/-! ### The state after a claim -/

section
variable (s : State) (l : List Nat) (results : List Pending)

theorem me_claimed : (claimed s l results).me = { s.me with pend := s.me.pend ++ results } := me_withMe _ _

theorem cluster_claimed : (claimed s l results).cluster (clusterOf s.cur) = claimedCluster s l :=
  cluster_modCluster_same s (clusterOf s.cur) fun _ => claimedCluster s l

theorem cluster_claimed_ne {d : ClusterId} (h : d ≠ clusterOf s.cur) : (claimed s l results).cluster d = s.cluster d :=
  Vector.getElem_set_ne (clusterOf s.cur).isLt _ fun e => h (Fin.ext e.symm)

theorem core_claimed_ne {c : CoreId} (h : c ≠ s.cur) : (claimed s l results).core c = s.core c := core_withMe_ne _ _ h

end

theorem mem_freshSlots {s : State} {l : List Nat} {i : Nat} : i ∈ freshSlots s l ↔ i ∈ l ∧ s.slotOwner (clusterOf s.cur) i = none := by
  rw [freshSlots, List.mem_filter, Option.isNone_iff_eq_none]

/-- A slot that is not claimed, or that its core held before, is none of the fresh ones. -/
theorem not_mem_freshSlots {s : State} {l : List Nat} {i : Nat} (h : i ∉ l ∨ s.slotOwner (clusterOf s.cur) i = some s.cur) :
    i ∉ freshSlots s l := by
  rw [mem_freshSlots]
  rintro ⟨hl, hn⟩
  exact h.elim (· hl) (by simp [hn])

theorem omem_claimedCluster (s : State) (l : List Nat) :
    (claimedCluster s l).omem = ((freshSlots s l).foldl Cluster.zeroSlot (s.cluster (clusterOf s.cur))).omem := by rw [claimedCluster]

theorem side_claimedCluster (s : State) (l : List Nat) :
    (claimedCluster s l).side = ((freshSlots s l).foldl Cluster.zeroSlot (s.cluster (clusterOf s.cur))).side := by rw [claimedCluster]

/-- After a claim the elements of a slot are those it had, or zero where it is a fresh one. -/
theorem omem_claimed (s : State) (l : List Nat) {i x : Nat} (hx : 32768 * i ≤ x) (hx' : x < 32768 * (i + 1)) :
    (claimedCluster s l).omem.get x = if i ∈ freshSlots s l then 0 else (s.cluster (clusterOf s.cur)).omem.get x := by
  have hi : x / 32768 = i := by omega
  rw [omem_claimedCluster, omem_get_foldl_zeroSlot, hi]

/-- After a claim the side-area of a slot is what it was, or zero where it is a fresh one. -/
theorem side_claimed (s : State) (l : List Nat) {i x : Nat} (hx : 2048 * i ≤ x) (hx' : x < 2048 * (i + 1)) :
    (claimedCluster s l).side.get x = if i ∈ freshSlots s l then 0 else (s.cluster (clusterOf s.cur)).side.get x := by
  have hi : x / 2048 = i := by omega
  rw [side_claimedCluster, side_get_foldl_zeroSlot, hi]

theorem owner_claimed (s : State) (first n : BitVec 6) (i : Fin 64) : (claimedCluster s (slotRange first n)).owner[i] =
    if first.toNat ≤ i ∧ i < first.toNat + n.toNat then some s.cur else (s.cluster (clusterOf s.cur)).owner[i] := by
  simp only [claimedCluster, Fin.getElem_fin, Vector.getElem_ofFn, List.contains_iff_mem, mem_slotRange]

/-- Settles O31: the range is within the slots or raises OMSLOT; within it a claim finds every slot open, and leaves the claimed cluster,
or finds one that is not, and answers 0. -/
theorem slotsAreClaimedAndReleased : Obligations.SlotsAreClaimedAndReleased := by
  intro s first n pd cl mine open_
  refine ⟨fun hn hr hopen _ _ => ?claims, fun hn hr hopen => ?held, fun hn hr => exec_omrel_within (trapRange_within hn hr),
    fun h => exec_slots_outside pd (trapRange_outside h)⟩
  case held =>
    exact exec_omclm_held pd (trapRange_within hn hr) (Bool.eq_false_iff.2 fun h => hopen ((all_mayClaim_iff s first n).1 h))
  case claims =>
    have hfresh (i : Nat) (hi : mine i) (ho : s.slotOwner cl i = none) : i ∈ freshSlots s (slotRange first n) :=
      mem_freshSlots.2 ⟨mem_slotRange.2 hi, ho⟩
    have hkept (i : Nat) (hi : ¬mine i ∨ s.slotOwner cl i = some s.cur) : i ∉ freshSlots s (slotRange first n) :=
      not_mem_freshSlots (hi.imp_left (mem_slotRange.not.2 ·))
    refine ⟨_, exec_omclm_open pd (trapRange_within hn hr) ((all_mayClaim_iff s first n).2 hopen), ?_⟩
    rw [me_claimed, cluster_claimed]
    exact ⟨rfl, owner_claimed s first n, fun i x hi ho hx hx' => (omem_claimed s _ hx hx').trans (if_pos (hfresh i hi ho)),
      fun i x hi ho hx hx' => (side_claimed s _ hx hx').trans (if_pos (hfresh i hi ho)),
      fun i x hi hx hx' => (omem_claimed s _ hx hx').trans (if_neg (hkept i hi)),
      fun i x hi hx hx' => (side_claimed s _ hx hx').trans (if_neg (hkept i hi)), fun d => cluster_claimed_ne s _ _, rfl, rfl,
      fun d => core_claimed_ne s _ _⟩

end Sys2Proof.Proofs
end

section
/-! PROOFS. The array's commands at issue (12 R247 to R266): the cores of a cluster, how a core joins the arbiter, what its lease lets it
queue, and O32. -/

namespace Sys2Proof.Proofs

open Sys2Proof Sys2Proof.Machine Sys2Proof.Laws

/-! ### Joining the arbiter (12 R250) -/

/-- The four cores of a cluster are those that lie in it (01 R14). -/
theorem mem_clusterCores {e : CoreId} {cl : ClusterId} : e ∈ clusterCores cl ↔ clusterOf e = cl := by
  simp only [clusterCores, List.mem_cons, List.not_mem_nil, or_false, clusterOf, coreAt, coreDie, coreRow, coreCol, Fin.ext_iff,
    Fin.val_ofNat]
  omega

theorem mem_rivals (s : State) (c e : CoreId) :
    e ∈ s.rivals c ↔ clusterOf e = clusterOf c ∧ e ≠ c ∧ (s.core e).contends = true ∧ s.readyPass e = true := by
  simp only [State.rivals, List.mem_filter, mem_clusterCores, Bool.and_eq_true, bne_iff_ne, and_assoc]

theorem joinArbiter_alone {s : State} {c : CoreId} (h : s.rivals c = []) : s.joinArbiter c = s := by
  rw [State.joinArbiter, h]
  rfl

theorem joinArbiter_of_min {s : State} {c : CoreId} {p : Nat} (h : ((s.rivals c).map fun d => (s.core d).mx.passVal).min? = some p) :
    s.joinArbiter c = s.modCore c fun x => { x with mx := { x.mx with passVal := max x.mx.passVal p } } := by
  unfold State.joinArbiter
  cases hl : (s.rivals c).map fun d => (s.core d).mx.passVal with
  | nil => simp [hl] at h
  | cons q qs =>
    rw [hl, List.min?_cons'] at h
    simp only [Option.some.inj h]

/-- The least P of the other ready contenders is one of theirs and below none. -/
theorem min?_passVals {s : State} {c : CoreId} {p : Nat} (hp : ∃ e ∈ s.rivals c, (s.core e).mx.passVal = p)
    (hle : ∀ e ∈ s.rivals c, p ≤ (s.core e).mx.passVal) : ((s.rivals c).map fun d => (s.core d).mx.passVal).min? = some p := by
  rw [List.min?_eq_some_iff]
  exact ⟨List.mem_map.2 hp, by simpa using hle⟩

/-! ### The lease (12 R247, R248) -/

/-- The matrix tickets of the current core's region. -/
def ticketsOf (s : State) : Nat := ((s.regionOf s.cur).map (·.mtickets)).getD 0

theorem exec_mlease (s : State) : exec .mlease s = .next (s.orRaise (failIf (ticketsOf s == 0) (.trap 0x09 0 0)) fun s =>
    if s.me.mx.contender.isSome then s else (s.joinArbiter s.cur).delivering 1 [.contender (some (ticketsOf s))]) := rfl

theorem exec_mlease_denied {s : State} (h : ticketsOf s = 0) : exec .mlease s = .next (s.raise (.trap 0x09 0 0)) := by
  rw [exec_mlease, beq_iff_eq.2 h, failIf_true, orRaise_some]

theorem exec_mlease_joins {s : State} (ht : ticketsOf s ≠ 0) (hc : s.me.mx.contender = none) :
    exec .mlease s = .next ((s.joinArbiter s.cur).delivering 1 [.contender (some (ticketsOf s))]) := by
  rw [exec_mlease, beq_false_of_ne ht, failIf_false, orRaise_none, if_neg (by simp [hc])]

theorem exec_mlease_again {s : State} (ht : ticketsOf s ≠ 0) (hc : s.me.mx.contender.isSome = true) : exec .mlease s = .next s := by
  rw [exec_mlease, beq_false_of_ne ht, failIf_false, orRaise_none, if_pos hc]

theorem exec_mrel_head {s : State} (h : s.me.suspendedMmar = none) :
    exec .mrel s = .next ((s.delivering 1 [.contender none]).queuedM .mrel) := by
  show execMrel s = _
  simp only [execMrel, h, emit_eq_delivering, enqueue_m]

/-- The state in which the suspended MMAR at the head of the current core's queue is abandoned: nothing of it enters the plane, and the
planes are no longer known to agree (12 R265). -/
def abandoned (s : State) (k : Cmd) : State :=
  s.withMe (Core.modCmd { s.me with mx := { s.me.mx with chk := false } } k.id fun x => { x with phase := .performed })

theorem exec_mrel_suspended {s : State} {k : Cmd} (h : s.me.suspendedMmar = some k) : exec .mrel s =
    .next ((((abandoned s k).refreshArray (clusterOf s.cur)).delivering 1 [.contender none]).queuedM .mrel) := by
  have ha : (s.modMe fun c => { c with mx := { c.mx with chk := false } }).setPerformed s.cur k.id = abandoned s k := by
    rw [State.setPerformed, State.modCmd, State.modMe, modCore_modCore]
    rfl
  show execMrel s = _
  simp only [execMrel, h, ha, emit_eq_delivering, enqueue_m]

theorem exec_mresume_head {s : State} (h : s.me.suspendedMmar = none) : exec .mresume s = .next s := by
  show execMresume s = _
  simp only [execMresume, h]

theorem exec_mresume_suspended {s : State} {k : Cmd} (h : s.me.suspendedMmar = some k) :
    exec .mresume s = .next (s.withMe (s.me.modCmd k.id fun x => { x with phase := .queued, got := [] })) := by
  show execMresume s = _
  simp only [execMresume, h]
  rfl

/-- What MMA and MMAR meet ends with the check of the lease. -/
theorem contender_of_trapMma_none {s : State} {a b : BitVec 6} {tb ta : Bool} {spaces : List Nat} (h : s.trapMma a b tb ta spaces = none) :
    s.me.mx.contender.isSome = true := by
  have hlease : s.leaseCheck = none := by
    unfold State.trapMma at h
    extract_lets da db alone at h
    split at h
    case isTrue halone => simp [h] at halone
    case isFalse =>
      split at h
      case h_2 => cases h
      case h_1 =>
        split at h
        case h_1 => cases h
        case h_2 =>
          extract_lets shapeA shapeB at h
          split at h
          case isTrue => cases h
          case isFalse =>
            split at h
            case isTrue => cases h
            case isFalse =>
              split at h
              case h_1 => cases h
              case h_2 => exact h
  cases hc : s.me.mx.contender with
  | none => simp [State.leaseCheck, hc] at hlease
  | some t => rfl

/-- Settles O32: each command is its check and then its place in the m queue; MLEASE and MREL are their cases of the lease and of the
suspended MMAR. -/
theorem arrayCommandsQueue : Obligations.ArrayCommandsQueue := by
  intro s a b td z rd tb ta d cl double tickets
  refine ⟨fun h => next_orRaise_of_none h ?_, fun h => next_orRaise_of_none h ?_, fun sp => contender_of_trapMma_none, ?_,
    fun h => next_orRaise_of_none h (enqueue_m s _), fun h => next_orRaise_of_none h (enqueue_m s _), exec_mlease_joins,
    fun p hp hle => joinArbiter_of_min (min?_passVals hp hle), joinArbiter_alone, mem_rivals s s.cur, exec_mlease_again,
    exec_mlease_denied, exec_mrel_head, fun k => exec_mrel_suspended, exec_mresume_head, fun k => exec_mresume_suspended, rfl⟩
  · rw [enqueue_m]
    rfl
  · rw [enqueue_m]
    rfl
  · exact congrArg Host.Outcome.next (enqueue_m s .mzero)

end Sys2Proof.Proofs
end

section
/-! PROOFS. The array's grant, its passes and the fetches of an MMAR (12 R249 to R267; 13 R283), the first half of O41; and a broadcast that
ends with a fault (10 R223; 14 R300; 25 R413), which refutes the other. -/

namespace Sys2Proof.Proofs

open Sys2Proof Sys2Proof.Machine Sys2Proof.Laws

/-! ### The grant (12 R249, R250) -/

theorem exec_arrayGrant (s : State) : exec .arrayGrant s = execArrayGrant s := rfl

/-- A free array goes to the next contender, whose step in progress counts toward the grant (13 R280). -/
theorem exec_arrayGrant_free {s : State} {c : CoreId} (hg : (s.cluster (clusterOf s.cur)).grant = none)
    (hc : s.nextHolder (clusterOf s.cur) = some c) : exec .arrayGrant s =
      .next ((s.modCluster (clusterOf s.cur) fun x =>
        { x with grant := some { holder := c, cmdsLeft := if (s.core c).carries then 15 else 16, cycles := 0 } }).stepStarts c) := by
  simp only [exec_arrayGrant, execArrayGrant, hg, hc]

theorem exec_arrayGrant_idle {s : State}
    (h : (s.cluster (clusterOf s.cur)).grant.isSome = true ∨ s.nextHolder (clusterOf s.cur) = none) : exec .arrayGrant s = .next s := by
  rw [exec_arrayGrant, execArrayGrant]
  cases hg : (s.cluster (clusterOf s.cur)).grant with
  | some g => rfl
  | none =>
    have hc : s.nextHolder (clusterOf s.cur) = none := h.resolve_left (by simp [hg])
    rw [hc]

/-! ### A pass (12 R249; 13 R283) -/

theorem exec_arrayPassComplete (s : State) : exec .arrayPassComplete s = execArrayPassComplete s := rfl

/-- The holder's gradient whose writes have all performed has performed itself. -/
def writesEnded (s : State) (c : CoreId) (k : Cmd) : State :=
  match s.cmdBy c k.id with
  | some y => if y.phase == Phase.writing && !s.outstanding (cmdOwner c .m k.id) then s.setPerformed c k.id else s
  | none => s

/-- The next pass begins where the holder keeps its grant, and the arbiter looks again. -/
def passEnded (s : State) (c : CoreId) (cl : ClusterId) : State := (if s.granted c then s.stepStarts c else s).refreshArray cl

section
variable {s : State} {g : Grant} (hg : (s.cluster (clusterOf s.cur)).grant = some g)
include hg

theorem exec_arrayPassComplete_ready {k : Cmd} (hk : (s.core g.holder).mHead = some k) (hp : k.phase = .reading)
    (hr : s.readyPass g.holder = true) : exec .arrayPassComplete s = .next (passEnded
      (writesEnded ((s.runPass g.holder k).afterPass (clusterOf s.cur) g.holder k) g.holder k) g.holder (clusterOf s.cur)) := by
  have hgo : (k.phase != .reading || !s.readyPass g.holder) = false := by simp [hp, hr]
  simp only [exec_arrayPassComplete, execArrayPassComplete, hg, hk, hgo, Bool.false_eq_true, if_false, passEnded]
  generalize (s.runPass g.holder k).afterPass (clusterOf s.cur) g.holder k = u
  cases hy : u.cmdBy g.holder k.id with
  | none => simp only [writesEnded, hy]
  | some y => simp only [writesEnded, hy]

theorem exec_arrayPassComplete_waits {k : Cmd} (hk : (s.core g.holder).mHead = some k)
    (h : k.phase ≠ .reading ∨ s.readyPass g.holder = false) : exec .arrayPassComplete s = .next s := by
  have hstop : (k.phase != .reading || !s.readyPass g.holder) = true := by simpa using h
  simp only [exec_arrayPassComplete, execArrayPassComplete, hg, hk, hstop, if_true]

end

theorem exec_arrayPassComplete_free {s : State} (hg : (s.cluster (clusterOf s.cur)).grant = none) :
    exec .arrayPassComplete s = .next s := by
  simp only [exec_arrayPassComplete, execArrayPassComplete, hg]

/-! ### The fetch of an MMAR (12 R263, R264) -/

theorem exec_mmarFetchReturn (s : State) (ans : PeerAnswer) : exec (.mmarFetchReturn ans) s = execMmarFetchReturn ans s := rfl

theorem exec_mmarFetchTimeout (s : State) : exec .mmarFetchTimeout s = execMmarFetchTimeout s := rfl

section
variable {s : State} {k : Cmd} {i : Nat} {a : Access} (hm : s.mmarPending s.cur = some (k, i)) (ha : s.accesses[i]? = some a)
include hm ha

theorem exec_mmarFetchReturn_pending (ans : PeerAnswer) :
    exec (.mmarFetchReturn ans) s = .next ((s.performPending i 0 a.op.size ans).refreshArray (clusterOf s.cur)) := by
  simp only [exec_mmarFetchReturn, execMmarFetchReturn, hm, ha, Option.map_some, Option.getD_some]

theorem exec_mmarFetchTimeout_pending : exec .mmarFetchTimeout s =
    .next (if k.sub + 100 * usTicks ≤ s.now then (s.suspendMmar s.cur k 0 a).refreshArray (clusterOf s.cur) else s) := by
  simp only [exec_mmarFetchTimeout, execMmarFetchTimeout, hm, ha]

end

/-- Without a fetch on its way neither event has anything to do. -/
theorem exec_mmarFetch_idle {s : State} (ans : PeerAnswer) (hm : s.mmarPending s.cur = none) :
    exec (.mmarFetchReturn ans) s = .next s ∧ exec .mmarFetchTimeout s = .next s := by
  simp only [exec_mmarFetchReturn, execMmarFetchReturn, exec_mmarFetchTimeout, execMmarFetchTimeout, hm, and_self]

theorem arrayEventsAct : ArrayEventsAct := by
  intro s c k g i ans a cl
  refine ⟨exec_arrayGrant_free, exec_arrayGrant_idle, ?pass, fun hg => exec_arrayPassComplete_waits hg, exec_arrayPassComplete_free,
    fun hm ha => ⟨exec_mmarFetchReturn_pending hm ha ans, exec_mmarFetchTimeout_pending hm ha⟩, exec_mmarFetch_idle ans⟩
  case pass =>
    intro u v hg hk hp hr
    have hv : v = writesEnded u g.holder k := rfl
    rw [exec_arrayPassComplete_ready hg hk hp hr, hv, passEnded]

/-! ### A bank job that completes without a record (14 R300) -/

/-- Where a job that is done has no record, a fault of one of its engines is a trap, whether the job is a program or a broadcast. -/
theorem exec_bankProgramComplete_fault {s : State} {j : BankJob} {e code : Nat} (hj : s.job s.subj = some j) (hd : s.jobDone j = true)
    (hc : j.cva = 0) (hf : j.fault = some (e, code)) : exec .bankProgramComplete s =
      .next ((s.trapJob j j.prog (BitVec.ofNat 64 (e * 256 + code))).endJob j) := by
  show execBankProgramComplete s = _
  simp only [execBankProgramComplete, hj, hd, hc, hf, Bool.not_true, Bool.false_eq_true, if_true, if_false]

/-- A broadcast of core 0 to engine 0, which has ended with BPAGE, as the engine of an excluded pseudo-channel does
(`State.engineNext`, 25 R413). -/
def faultedBroadcast : BankJob :=
  { id := 0, core := some 0, task := 0, region := 0, prog := 0, first := 0, count := 1, args := 0, wins := State.reset.me.sys.wins
    vec := some {}, started := true, ended := [(0, bpage)] }

/-- The state after reset with that broadcast as the one job of the sequencer. -/
def broadcastEnded : State := { State.reset with jobs := [faultedBroadcast] }

theorem fault_faultedBroadcast : faultedBroadcast.fault = some (0, bpage) := by decide

/-- The broadcast that ends alone leaves core 0 no trap to take. -/
theorem asyncs_endJob_broadcast : ((broadcastEnded.endJob faultedBroadcast).core 0).sys.asyncs.length = 0 := by decide +kernel

/-- The broadcast that ends with the trap of its fault leaves core 0 one. -/
theorem asyncs_trapJob_broadcast :
    (((broadcastEnded.trapJob faultedBroadcast 0 (BitVec.ofNat 64 bpage)).endJob faultedBroadcast).core 0).sys.asyncs.length = 1 := by
  decide +kernel

theorem exec_broadcastEnded : exec .bankProgramComplete broadcastEnded =
    .next ((broadcastEnded.trapJob faultedBroadcast 0 (BitVec.ofNat 64 bpage)).endJob faultedBroadcast) :=
  exec_bankProgramComplete_fault (by decide +kernel) (by decide +kernel) rfl fault_faultedBroadcast

/-- Refutes O41 in its part about the bank sequencer: it has every broadcast that is done leave the sequencer without more, and one
whose engine has ended with a fault, as that of an excluded pseudo-channel does, raises BANK on its core. What the statement says of the
array and of MMAR's fetches holds (`arrayEventsAct`). -/
theorem not_arrayAndBankEventsAct : ¬ Obligations.ArrayAndBankEventsAct := by
  rintro ⟨-, bank⟩
  obtain ⟨-, -, -, -, -, -, complete, -⟩ :=
    bank broadcastEnded broadcastEnded (broadcastEnded.commandOf .mzero none) faultedBroadcast faultedBroadcast
  obtain ⟨leaves, -⟩ := complete (by decide +kernel) (by decide +kernel)
  have h := exec_broadcastEnded.symm.trans (leaves (.inl rfl))
  have hlen := congrArg (fun t : State => (t.core 0).sys.asyncs.length) (Host.Outcome.next.inj h)
  simp only [asyncs_trapJob_broadcast, asyncs_endJob_broadcast] at hlen
  cases hlen

end Sys2Proof.Proofs
end

section
/-! PROOFS. System registers and the other privileged instructions in privileged mode (19 R341, R350 to R352): what the checks let pass, and
O20. -/

namespace Sys2Proof.Proofs

open Sys2Proof Sys2Proof.Machine Sys2Proof.Laws

/-! ### MTSR and MFSR (19 R350, R351) -/

section
variable {s : State} {index : BitVec 17}

theorem trapSysReg_privileged (h : s.me.sys.mode = true) (hs : sharedIndex index = true → s.superTask = true) :
    s.trapSysReg index = failIf (s.sysRead index).isNone s.illegal := by
  refine if_neg ?_
  cases hi : sharedIndex index with
  | false => simp [h]
  | true => simp [h, hs hi]

theorem sysRead_local (hi : sharedIndex index = false) : s.sysRead index = s.sysLocalRead s.cur index.toNat := if_neg (by simp [hi])

theorem sysRead_shared (hi : sharedIndex index = true) : s.sysRead index = s.sharedRead index.toNat := if_pos hi

/-- A register that can be read passes the check, and its value is on its way. -/
theorem exec_mfsr_readable {v : Word} (d : BitVec 5) (h : s.me.sys.mode = true) (hs : sharedIndex index = true → s.superTask = true)
    (hv : s.sysRead index = some v) : exec (.mfsr d index) s = .next ({ s with choices := s.choices + 1 }.delivering 1 [.s d v]) := by
  show execMfsr d index s = _
  rw [execMfsr, trapSysReg_privileged h hs, hv, Option.isNone_some, failIf_false, orRaise_none, hv]
  rfl

theorem exec_mtsr_readable {v : Word} (a : BitVec 5) (h : s.me.sys.mode = true) (hs : sharedIndex index = true → s.superTask = true)
    (hv : s.sysRead index = some v) : exec (.mtsr a index) s = .next (if sharedIndex index then s.sharedWrite index.toNat (s.me.rs a) true
      else s.delivering 1 [.sys index.toNat (s.me.rs a)]) := by
  show execMtsr a index s = _
  rw [execMtsr, trapSysReg_privileged h hs, hv]
  rfl

theorem exec_sysReg_unnamed (a d : BitVec 5) (h : s.me.sys.mode = true) (hs : sharedIndex index = true → s.superTask = true)
    (hv : s.sysRead index = none) :
    exec (.mtsr a index) s = .next (s.raise s.illegal) ∧ exec (.mfsr d index) s = .next (s.raise s.illegal) := by
  show execMtsr a index s = _ ∧ execMfsr d index s = _
  rw [execMtsr, execMfsr, trapSysReg_privileged h hs, hv]
  exact ⟨rfl, rfl⟩

end

theorem systemRegisterMoves : SystemRegisterMoves := by
  intro s a d index hm
  refine ⟨fun v hi hv => ?_, fun v hi ht hv => ?_, fun hs hv => exec_sysReg_unnamed a d hm hs hv⟩
  · have unshared : sharedIndex index = true → s.superTask = true := fun h => by simp [hi] at h
    have read := (sysRead_local hi).trans hv
    exact ⟨(exec_mtsr_readable a hm unshared read).trans (congrArg _ (if_neg (by simp [hi]))), exec_mfsr_readable d hm unshared read⟩
  · have read := (sysRead_shared hi).trans hv
    exact ⟨(exec_mtsr_readable a hm (fun _ => ht) read).trans (congrArg _ (if_pos hi)), exec_mfsr_readable d hm (fun _ => ht) read⟩

/-! ### ERRACK, CKMARK, HALT and PFACK (19 R351, R352) -/

/-- In privileged mode nothing stands in the way of what needs that mode alone. -/
theorem orRaise_privCheck {s : State} (f : State → State) (h : s.me.sys.mode = true) : s.orRaise s.privCheck f = f s := by
  rw [(privCheck_eq_none s).2 h]
  rfl

theorem trapPfack_handler {s : State} (h : s.me.sys.mode = true) (hw : s.me.sys.inPfw = true) : s.trapPfack = none := by
  simp [State.trapPfack, (privCheck_eq_none s).2 h, h, hw, failIf, pickRaise]

theorem exec_halt_privileged {s : State} (h : s.me.sys.mode = true) : exec .halt s = .next (if s.me.sys.inPfw then s.stopCore
    else { s.modMe fun c => { c with status := .halted } with supEvents := s.supEvents ++ [.halt s.cur.val] }) :=
  congrArg _ (orRaise_privCheck _ h)

theorem systemCallsAct : SystemCallsAct := by
  intro s a t hm
  refine ⟨⟨_, congrArg _ (orRaise_privCheck _ hm), ?_⟩, fun ht => ?_, fun ht => ?_, fun hw => ?_, fun hw => ⟨?_, ?_⟩⟩
  · have bound := s.elog.head.isLt
    rw [BitVec.toNat_ofNat]
    omega
  · show execCkmark a s = _
    rw [execCkmark, orRaise_privCheck _ hm, ht]
    simp [State.modTask]
  · show execCkmark a s = _
    rw [execCkmark, orRaise_privCheck _ hm, ht]
    rfl
  · rw [exec_halt_privileged hm, hw]
    rfl
  · rw [exec_halt_privileged hm, hw]
    rfl
  · show execPfack s = _
    rw [execPfack, trapPfack_handler hm hw]
    rfl

/-- Settles O20: past the check of the mode, the moves read and write their register, and each system call does its one thing. -/
theorem systemInstructionsAct : Obligations.SystemInstructionsAct := ⟨systemRegisterMoves, systemCallsAct⟩

end Sys2Proof.Proofs
end

section
/-! PROOFS. The lease instructions at issue (15 R311 to R313, R320): which check refuses each of them, and O42. -/

namespace Sys2Proof.Proofs

open Sys2Proof Sys2Proof.Machine Sys2Proof.Laws

/-- The offsets name a module of this row or of this column, and not this module (15 R312). -/
def DirectOffset (drow dcol : BitVec 4) : Prop := (drow = 0 ∧ dcol ≠ 0) ∨ (drow ≠ 0 ∧ dcol = 0)

section
variable {s : State} {drow dcol : BitVec 4} {n : BitVec 6} {dur : BitVec 3} {status : BitVec 5}

theorem denyOffset_direct (h : DirectOffset drow dcol) : denyOffset drow dcol = none := by
  obtain ⟨hr, hc⟩ | ⟨hr, hc⟩ := h <;> simpa [denyOffset, failIf, hr, hc] using ‹_ ≠ _›

theorem denyOffset_indirect (h : ¬ DirectOffset drow dcol) : denyOffset drow dcol = some (.trap 0x09 1 0) := by
  have same : (drow == 0) = (dcol == 0) := by
    by_cases hr : drow = 0 <;> by_cases hc : dcol = 0 <;> simp_all [DirectOffset]
  rw [denyOffset, same, beq_self_eq_true]
  rfl

theorem denyBudget_funded (h : ∃ r, s.regionOf s.cur = some r ∧ r.strands ≠ 0) : s.denyBudget = none := by
  obtain ⟨r, hr, hs⟩ := h
  simp [State.denyBudget, failIf, hr, hs]

theorem denyBudget_bare (h : ∀ r, s.regionOf s.cur = some r → r.strands = 0) : s.denyBudget = some (.trap 0x09 2 0) := by
  cases hr : s.regionOf s.cur with
  | none => simp [State.denyBudget, failIf, hr]
  | some r => simp [State.denyBudget, failIf, hr, h r hr]

/-- What a status field can meet has the last rank (07 R125). -/
theorem statusFails_rank : ∀ x ∈ s.statusFails status, x.rank = 3 := by
  intro x hx
  unfold State.statusFails at hx
  split at hx
  case h_1 => cases hx; rfl
  case h_2 ia _ =>
    unfold State.pageFails at hx
    split at hx
    case isTrue => rw [Option.mem_def, failIf_eq_some] at hx; rw [hx.2]; rfl
    case isFalse => split at hx <;> cases hx; rfl
  case h_3 => cases hx

theorem pickRaise_cons_none (l : List (Option Raise)) : pickRaise (none :: l) = pickRaise l := rfl

/-! ### LEASE (15 R312) -/

theorem leaseField_legal (hn : n ≠ 0) (hd : dur ≠ 7) : failIf (n == 0 || dur == 7) s.illegal = none := by
  rw [beq_false_of_ne hn, beq_false_of_ne hd]
  rfl

theorem denyBudget_rank : ∀ x ∈ s.denyBudget, x.rank = 3 := by
  intro x hx
  rw [State.denyBudget, Option.mem_def, failIf_eq_some] at hx
  rw [hx.2]
  rfl

theorem exec_lease (s : State) : exec (.lease drow dcol n dur status) s =
    .next (s.orRaise (s.trapLease drow dcol n dur status) fun s => s.askLease 0 drow dcol n.toNat (durationTicks dur) status) := rfl

theorem exec_lrel (s : State) : exec (.lrel drow dcol n status) s =
    .next (s.orRaise (pickRaise [denyOffset drow dcol, s.statusFails status]) fun s => s.askLease 1 drow dcol n.toNat 0 status) := rfl

theorem exec_lrenew (s : State) : exec (.lrenew drow dcol dur status) s =
    .next (s.orRaise (pickRaise [failIf (dur == 7) s.illegal, denyOffset drow dcol, s.statusFails status]) fun s =>
      s.askLease 2 drow dcol 0 (durationTicks dur) status) := rfl

theorem exec_lqry (s : State) (d : BitVec 5) : exec (.lqry drow dcol d) s = .next (s.orRaise (denyOffset drow dcol) fun s =>
    s.delivering 16 [.s d (BitVec.ofNat 64 (s.queryLease s.me.ctl.taskid drow dcol))]) := rfl

theorem trapLease_passes (h : DirectOffset drow dcol) (hs : s.statusFails status = none) (hn : n ≠ 0) (hd : dur ≠ 7)
    (hb : ∃ r, s.regionOf s.cur = some r ∧ r.strands ≠ 0) : s.trapLease drow dcol n dur status = none := by
  rw [State.trapLease, leaseField_legal hn hd, denyOffset_direct h, denyBudget_funded hb, hs]
  rfl

theorem trapLease_indirect (h : ¬ DirectOffset drow dcol) (hn : n ≠ 0) (hd : dur ≠ 7) :
    s.trapLease drow dcol n dur status = some (.trap 0x09 1 0) := by
  rw [State.trapLease, leaseField_legal hn hd, denyOffset_indirect h, pickRaise_cons_none]
  refine pickRaise_cons_some fun o ho => ?_
  obtain rfl | rfl : o = s.denyBudget ∨ o = s.statusFails status := by simpa using ho
  · exact fun x hx => (denyBudget_rank x hx).ge
  · exact fun x hx => (statusFails_rank x hx).ge

theorem trapLease_bare (h : DirectOffset drow dcol) (hn : n ≠ 0) (hd : dur ≠ 7)
    (hb : ∀ r, s.regionOf s.cur = some r → r.strands = 0) : s.trapLease drow dcol n dur status = some (.trap 0x09 2 0) := by
  rw [State.trapLease, leaseField_legal hn hd, denyOffset_direct h, denyBudget_bare hb, pickRaise_cons_none, pickRaise_cons_none]
  refine pickRaise_cons_some fun o ho => ?_
  rw [List.mem_singleton.1 ho]
  exact fun x hx => (statusFails_rank x hx).ge

theorem trapLease_illegal (h : n = 0 ∨ dur = 7) : s.trapLease drow dcol n dur status = some s.illegal := by
  have fails : failIf (n == 0 || dur == 7) s.illegal = some s.illegal := by
    obtain h | h := h <;> simp [failIf, h]
  rw [State.trapLease, fails]
  exact pickRaise_first _ _ rfl

end

/-- Settles O42: each instruction's checks in their order, and past them one request or one delivery. -/
theorem leaseInstructionsAsk : Obligations.LeaseInstructionsAsk := by
  intro s drow dcol n dur status d direct asked
  refine ⟨fun h hs hn hd hb => ?_, fun h hs => ?_, fun h hs hd => ?_, fun h => ?_, fun h hs hn hd => ⟨?_, ?_, ?_, ?_⟩, fun h hn hd hb => ?_,
    fun h => ?_, fun hd => ?_⟩
  · rw [exec_lease, trapLease_passes h hs hn hd hb]
    rfl
  · rw [exec_lrel, denyOffset_direct h, hs]
    rfl
  · rw [exec_lrenew, denyOffset_direct h, hs, beq_false_of_ne hd]
    rfl
  · rw [exec_lqry, denyOffset_direct h]
    rfl
  · rw [exec_lease, trapLease_indirect h hn hd]
    rfl
  · rw [exec_lrel, denyOffset_indirect h, hs]
    rfl
  · rw [exec_lrenew, denyOffset_indirect h, hs, beq_false_of_ne hd]
    rfl
  · rw [exec_lqry, denyOffset_indirect h]
    rfl
  · rw [exec_lease, trapLease_bare h hn hd hb]
    rfl
  · rw [exec_lease, trapLease_illegal h]
    rfl
  · rw [exec_lrenew, hd]
    exact congrArg (fun o => Host.Outcome.next (s.orRaise o _)) (pickRaise_first _ _ rfl)

end Sys2Proof.Proofs
end

section
/-! PROOFS. The migration of a page (21 R378 to R380; log 83): its registers, each of its events in its state, and O45. -/

namespace Sys2Proof.Proofs

open Sys2Proof Sys2Proof.Machine Sys2Proof.Laws

/-! ### MIG_CTL (21 R378) -/

section
variable {s : State} {v : Word}

theorem exec_migCtl (s : State) (v : Word) : exec (.migCtl v) s = .next (s.supervise fun s => s.startMigration v) := rfl

theorem startMigration_idle (s : State) (h : v.getLsbD 0 = false) : s.startMigration v = s := if_pos (by rw [h]; rfl)

theorem startMigration_leaving (hv : v.getLsbD 0 = true) (hc : s.migCheck = 0) (hl : s.hib.state.leaving = true) :
    s.startMigration v = { s with trans := { s.trans with migResult := 4 } } :=
  (if_neg (by simp [hv])).trans (if_pos (by simp [hc, hl]))

theorem startMigration_holds {place e : Nat} {big : Bool} (hv : v.getLsbD 0 = true) (hc : s.migCheck = 0)
    (hl : s.hib.state.leaving = false) (hw : s.walk s.trans.migIa.toNat = some (place, e, big)) : s.startMigration v = { s with
      hbm := s.hbm.putNat place 8 (withTransit e)
      trans := { s.trans with migState := .hold, migAt := s.trans.migIa, migOld := BitVec.ofNat 64 e, migTo := s.trans.migNew
                              migPlace := place, migBig := big } } := by
  rw [State.startMigration, if_neg (by simp [hv]), if_neg (by simp [hl]), hc, hw]
  rfl

theorem startMigration_refused (hv : v.getLsbD 0 = true) (hc : s.migCheck ≠ 0) :
    s.startMigration v = { s with trans := { s.trans with migResult := BitVec.ofNat 8 s.migCheck } } := by
  rw [State.startMigration, if_neg (by simp [hv]), if_neg (by simp [hc])]
  split
  case h_1 h _ => exact absurd h hc
  case h_2 => rfl

end

/-! ### Cached translations of the page (21 R376) -/

theorem migSize_pos (s : State) : 0 < s.migSize := by
  unfold State.migSize
  split <;> positivity

/-- The cached translations that stay are those of other 2 MiB ranges. -/
def tlbApart (s : State) (lo n : Nat) : List (Nat × BitVec 64) :=
  s.trans.tlb.filter fun p => decide ((cachedRange p.1 + 1) * 2 ^ 21 ≤ lo) || decide (lo + n ≤ cachedRange p.1 * 2 ^ 21)

theorem dropCached_of_pos (s : State) (lo : Nat) {n : Nat} (h : 0 < n) :
    s.dropCached lo n = { s with trans := { s.trans with tlb := tlbApart s lo n } } := by
  simp only [State.dropCached, Nat.pos_iff_ne_zero.1 h, if_false]
  rfl

theorem mem_tlbApart {s : State} {lo n : Nat} {p : Nat × BitVec 64} : p ∈ tlbApart s lo n ↔ p ∈ s.trans.tlb ∧
    ((cachedRange p.1 + 1) * 2 ^ 21 ≤ lo ∨ lo + n ≤ cachedRange p.1 * 2 ^ 21) := by
  simp [tlbApart]

/-! ### The end of a migration, and what the flush makes of one (21 R379, R380) -/

theorem completeMigration_eq (s : State) : s.completeMigration = { s with
    hbm := s.hbm.putNat s.trans.migPlace 8 s.trans.migTo.toNat
    trans := { s.trans with tlb := tlbApart s s.trans.migAt.toNat s.migSize, migState := .idle, migResult := 0 }
    supEvents := s.supEvents ++ [.migrationDone] } := by
  rw [State.completeMigration, dropCached_of_pos s _ (migSize_pos s)]

theorem settleMigration_hold {s : State} (h : s.trans.migState = .hold) : s.settleMigration = { s with
    hbm := s.hbm.putNat s.trans.migPlace 8 s.trans.migOld.toNat, trans := { s.trans with migState := .idle, migResult := 4 } } := by
  simp only [State.settleMigration, State.abandonMigration, h]

theorem settleMigration_further {s : State} (h : s.trans.migState = .switch ∨ s.trans.migState = .forward) :
    s.settleMigration = s.completeMigration := by
  obtain h | h := h <;> simp only [State.settleMigration, h]

/-! ### The events (21 R379) -/

section
variable {s : State}

theorem exec_migrationHoldDone_idle (h : s.trans.migState ≠ .hold) : exec .migrationHoldDone s = .next s := if_pos (by simp [h])

theorem exec_migrationCopyDone_idle (h : s.trans.migState ≠ .switch) : exec .migrationCopyDone s = .next s := if_pos (by simp [h])

theorem exec_migrationEnd_idle (h : s.trans.migState ≠ .forward) : exec .migrationEnd s = .next s := if_pos (by simp [h])

theorem exec_migrationHoldDone_written (h : s.trans.migState = .hold) (hb : s.channelBusy s.trans.migOld.toNat = false)
    (he : s.migHolds s.trans.migOld.toNat = false) : exec .migrationHoldDone s = .fault .migrationEntryWritten :=
  (if_neg (by simp [h, hb])).trans (if_pos (by simp [he]))

theorem exec_migrationCopyDone_written (h : s.trans.migState = .switch) (he : s.migHolds s.trans.migOld.toNat = false) :
    exec .migrationCopyDone s = .fault .migrationEntryWritten := (if_neg (by simp [h])).trans (if_pos (by simp [he]))

theorem exec_migrationEnd_written (h : s.trans.migState = .forward) (ha : s.accesses.any s.toMigrating = false)
    (he : s.migHolds s.trans.migTo.toNat = false) : exec .migrationEnd s = .fault .migrationEntryWritten :=
  (if_neg (by simp [h, ha])).trans (if_pos (by simp [he]))

theorem exec_migrationHoldDone_copies {old new : Page} (h : s.trans.migState = .hold) (hb : s.channelBusy s.trans.migOld.toNat = false)
    (he : s.migHolds s.trans.migOld.toNat = true) (ho : pageOfEntry s.trans.migOld.toNat s.trans.migBig = some old)
    (hn : pageOfEntry s.trans.migTo.toNat s.trans.migBig = some new) : exec .migrationHoldDone s = .next
      ((fun (u : State) => { u with trans := { u.trans with migState := .switch } })
        (((s.recallPage old s.trans.migAt.toNat old.size).l2Drop old.key old.size).copyFrame old.key new.key old.size)) := by
  show execMigrationHoldDone s = _
  simp only [execMigrationHoldDone, h, hb, he, ho, hn]
  rfl

theorem exec_migrationCopyDone_switches (h : s.trans.migState = .switch) (he : s.migHolds s.trans.migOld.toNat = true) :
    exec .migrationCopyDone s = .next { s with
      hbm := s.hbm.putNat s.trans.migPlace 8 (withTransit s.trans.migTo.toNat)
      trans := { s.trans with tlb := tlbApart s s.trans.migAt.toNat s.migSize, migState := .forward } } := by
  show execMigrationCopyDone s = _
  rw [execMigrationCopyDone, if_neg (by simp [h]), if_neg (by simp [he]), dropCached_of_pos s _ (migSize_pos s)]

theorem exec_migrationEnd_completes (h : s.trans.migState = .forward) (ha : s.accesses.any s.toMigrating = false)
    (he : s.migHolds s.trans.migTo.toNat = true) : exec .migrationEnd s = .next s.completeMigration :=
  (if_neg (by simp [h, ha])).trans (if_neg (by simp [he]))

/-- MIGRATION_FORWARD performs the subject's access where the page forwards and the access goes to it. -/
theorem exec_migrationForward_some {a : Access} (ha : s.accesses[s.subj]? = some a) : exec .migrationForward s = .next
    (if s.trans.migState == .forward && s.toMigrating a then
      (ownerCluster a.owner).elim (s.performPending s.subj 0 a.op.size (.ok [])) (s.performPending s.subj 0 a.op.size (.ok [])).refreshArray
    else s) := by
  show execMigrationForward s = _
  rw [execMigrationForward, ha]
  dsimp only
  cases ownerCluster a.owner with
  | none => rw [Option.elim_none]
  | some cl => rw [Option.elim_some]

theorem exec_migrationForward_idle (h : s.trans.migState ≠ .forward) : exec .migrationForward s = .next s := by
  cases ha : s.accesses[s.subj]? with
  | none =>
    show execMigrationForward s = _
    rw [execMigrationForward, ha]
  | some a =>
    rw [exec_migrationForward_some ha]
    exact congrArg _ (if_neg (by simp [h]))

end

/-- Settles O45: MIG_CTL and each event, in the state in which it acts and outside it. -/
theorem migrationSteps : Obligations.MigrationSteps := by
  intro s v place e big old new a t
  refine ⟨fun hr hv hc hl hw => ?_, fun hr hv hc hl => ?_, settleMigration_hold, fun h => ⟨settleMigration_further h, ?_, ?_, ?_⟩,
    fun hr hv hc => ?_, fun h => ?_,
    fun h hb he ho hn => ?_, ?_, rfl, fun h he => ⟨_, exec_migrationCopyDone_switches h he, fun p hp => ?_⟩,
    fun ha h hm => ?_, fun ha hm => ?_, exec_migrationForward_idle, fun h ha he => ⟨tlbApart s s.trans.migAt.toNat s.migSize, ?_⟩,
    exec_migrationHoldDone_written,
    exec_migrationCopyDone_written, exec_migrationEnd_written, exec_migrationHoldDone_idle, exec_migrationCopyDone_idle, exec_migrationEnd_idle⟩
  · rw [exec_migCtl, supervise_running _ hr, startMigration_holds hv hc hl hw]
  · rw [exec_migCtl, supervise_running _ hr, startMigration_leaving hv hc hl]
  · rw [completeMigration_eq]
  · rw [completeMigration_eq]
  · rw [completeMigration_eq]
  · rw [exec_migCtl, supervise_running _ hr, startMigration_refused hv hc]
  · rw [exec_migCtl]
    obtain hv | hs := h
    · rw [supervise_of_fixed (startMigration_idle s hv)]
    · rw [supervise_stopped _ hs]
  · rw [exec_migrationHoldDone_copies h hb he ho hn]
  · simp [State.migHolds, State.migEntry, t]
  · exact mem_tlbApart.1 hp
  · rw [exec_migrationForward_some ha]
    exact congrArg _ (if_pos (by simp [show s.trans.migState = .forward from h, hm]))
  · rw [exec_migrationForward_some ha]
    exact congrArg _ (if_neg (by simp [hm]))
  · rw [exec_migrationEnd_completes h ha he, completeMigration_eq]

end Sys2Proof.Proofs
end

section
/-! PROOFS. Weight chains at issue (13 R274 to R276, R281, R282, R284): what closing a chain leaves of its commands, which command each
instruction queues, and O34. -/

namespace Sys2Proof.Proofs

open Sys2Proof Sys2Proof.Machine Sys2Proof.Laws

/-- The state in which the chain of the current core, and nothing else, has changed. -/
def chained (s : State) (h : Chain) : State := s.withMe { s.me with mx := { s.me.mx with chain := h } }

theorem modMe_modChain (s : State) (f : Chain → Chain) :
    (s.modMe fun c => c.modChain f) = chained s (f s.me.mx.chain) := rfl

theorem chain_queuedM (s : State) (k : CmdKind) : (s.queuedM k).me.mx.chain = s.me.mx.chain := by
  rw [State.queuedM, me_withMe]

/-! ### Closing a chain (13 R282) -/

theorem abortChain_closed {c : Core} (running : Bool) (h : c.mx.chain.isOpen = false) : c.abortChain running = c := if_pos (by simp [h])

/-- A step command in progress is marked, or ends where it stands; any other command is as it was. -/
def stopped (running : Bool) (k : Cmd) : Cmd :=
  if !k.kind.isStep then k else if running then { k with abort := true } else { k with phase := .performed }

theorem abortChain_open {c : Core} (running : Bool) (h : c.mx.chain.isOpen = true) : c.abortChain running =
    { c with
      mx := { c.mx with chain := { c.mx.chain with isOpen := false } }
      q := { c.q with m := (c.q.m.filter fun k => !(k.kind.isStep && k.phase == .queued)).map (stopped running) } } :=
  if_neg (by simp [h])

theorem id_stopped (running : Bool) (k : Cmd) : (stopped running k).id = k.id := by
  cases h : k.kind.isStep <;> cases running <;> simp [stopped, h]

theorem kind_stopped (running : Bool) (k : Cmd) : (stopped running k).kind = k.kind := by
  cases h : k.kind.isStep <;> cases running <;> simp [stopped, h]

theorem stopped_step (running : Bool) {k : Cmd} (h : k.kind.isStep = true) :
    if running then (stopped running k).abort = true else (stopped running k).phase = .performed := by
  cases running <;> simp [stopped, h]

theorem abortChain_eq (s : State) :
    s.abortChain = (s.withMe (s.me.abortChain (s.passRunning s.cur))).refreshArray (clusterOf s.cur) := rfl

/-! ### Opening a chain (13 R274, R275) -/

theorem exec_chbeg_passes {s : State} {r : BitVec 5} {i o : BitVec 6} {p : Pricking} (ht : s.trapChbeg r i o = none)
    (hp : s.readPricking (s.me.rs r).toNat = .ok p) : exec (.chbeg r i o) s =
      .next (if s.me.mx.chain.keeps p then chained s { s.me.mx.chain with pk := p, tdIn := s.me.opnd i, tdOut := s.me.opnd o }
        else chained s.abortChain
          { isOpen := true, gen := s.abortChain.me.mx.chain.gen + 1, pk := p, tdIn := s.me.opnd i, tdOut := s.me.opnd o }) := by
  show execChbeg r i o s = _
  rw [execChbeg, ht, orRaise_none, hp]
  simp only [modMe_modChain]

theorem exec_chbeg_refused {s : State} {r : BitVec 5} {i o : BitVec 6} {m : Raise} (ht : s.trapChbeg r i o = some m) :
    exec (.chbeg r i o) s = .next (s.raise m) := by
  show execChbeg r i o s = _
  rw [execChbeg, ht, orRaise_some]

/-! ### Steps and the end (13 R276, R277, R281) -/

/-- The steps of the open chain that a command covers, with the link and the bonds of each, as of its issue. -/
def chainLinks (s : State) (l : List StepEntry) : List (TdWord × Nat × Nat) :=
  l.map fun e => (s.me.td[(BitVec.ofNat 6 e.td).toNat], s.me.bond e.bdIn, s.me.bond e.bdOut)

theorem issueChain_eq (s : State) (n : Nat) :
    let h := s.me.mx.chain
    let l := h.covered n
    s.issueChain n = (chained (s.queuedM (.chain h.gen h.pk h.tdIn h.issued (chainLinks s l)))
      { h with issued := h.issued + l.length, rPrev := (l.getLast?.map fun e => s.me.bond e.bdOut).getD h.rPrev }).refreshArray
        (clusterOf s.cur) := by
  intro h l
  simp only [State.issueChain, enqueue_m, modMe_modChain, chain_queuedM]
  rfl

theorem exec_chstep_passes {s : State} {n : BitVec 4} (h0 : 0 < n.toNat) (h8 : n.toNat ≤ 8) (ht : s.trapChain n.toNat = none) :
    exec (.chstep n) s = .next (s.issueChain n.toNat) := by
  show execChstep n s = _
  rw [execChstep, if_neg (by omega), ht, orRaise_none]

theorem exec_chrun_passes {s : State} (ht : s.trapChain 8 = none) : exec .chrun s = .next (s.issueChain 8) := by
  show execChrun s = _
  rw [execChrun, ht, orRaise_none]

theorem trapChain_closed {s : State} (n : Nat) (h : s.me.mx.chain.isOpen = false) : s.trapChain n = some s.illegal := if_pos (by simp [h])

theorem trapChend_closed {s : State} (h : s.me.mx.chain.isOpen = false) : s.trapChend = some s.illegal := if_pos (by simp [h])

theorem trapChend_open {s : State} (h : s.me.mx.chain.isOpen = true) : s.trapChend =
    failIf (decide (s.me.mx.chain.issued < s.me.mx.chain.pk.steps.length)) (chainTrap s.me.mx.chain.issued) := if_neg (by simp [h])

theorem exec_chstep_illegal {s : State} {n : BitVec 4} (h : n.toNat = 0 ∨ 8 < n.toNat ∨ s.me.mx.chain.isOpen = false) :
    exec (.chstep n) s = .next (s.raise s.illegal) := by
  have illegal : (if n.toNat = 0 ∨ 8 < n.toNat then some s.illegal else s.trapChain n.toNat) = some s.illegal := by
    split
    case isTrue => rfl
    case isFalse hn => exact trapChain_closed _ (by tauto)
  show execChstep n s = _
  rw [execChstep, illegal, orRaise_some]

theorem exec_chend_complete {s : State} (ho : s.me.mx.chain.isOpen = true) (hl : s.me.mx.chain.pk.steps.length ≤ s.me.mx.chain.issued) :
    exec .chend s = .next (chained (s.queuedM (.chend s.me.mx.chain.pk s.me.mx.chain.tdOut))
      { s.me.mx.chain with isOpen := false }) := by
  show execChend s = _
  rw [execChend, trapChend_open ho, decide_eq_false (by omega)]
  show Host.Outcome.next ((s.enqueue .m (.chend s.me.mx.chain.pk s.me.mx.chain.tdOut)).modMe _) = _
  rw [enqueue_m, modMe_modChain, chain_queuedM]

theorem exec_chend_early {s : State} (ho : s.me.mx.chain.isOpen = true) (hl : s.me.mx.chain.issued < s.me.mx.chain.pk.steps.length) :
    exec .chend s = .next (s.raise (.trap 0x07 (BitVec.ofNat 64 s.me.mx.chain.issued) 0)) := by
  show execChend s = _
  rw [execChend, trapChend_open ho, decide_eq_true hl]
  rfl

theorem exec_chgrad_passes {s : State} {l r g : BitVec 6} (ht : s.trapChgrad l r g = none) : exec (.chgrad l r g) s =
    .next ((s.queuedM (.chgrad (s.me.opnd l) (s.me.opnd r) (s.me.opnd g) (s.me.bond (tdBdIn s.me.td[g.toNat]))
      (s.me.bond (tdBdOut s.me.td[g.toNat])))).refreshArray (clusterOf s.cur)) := by
  show execChgrad l r g s = _
  rw [execChgrad, ht, orRaise_none]
  simp only [enqueue_m]

/-- Settles O34: each instruction past its checks is one command in the m queue, one change of the chain, or both. -/
theorem chainCommandsQueue : Obligations.ChainCommandsQueue := by
  intro s r i o l g n p h cl withChain steps links after aborted issued
  refine ⟨fun ht hp hk => ?_, fun ht hp hk => ?_, fun m => exec_chbeg_refused, fun ho _ => abortChain_closed _ ho, fun ho running => ?_,
    fun h0 h8 ht => ?_, fun ht => ?_, exec_chend_complete, exec_chend_early, ?_, exec_chgrad_passes, exec_chstep_illegal,
    fun ho => ⟨?_, ?_⟩⟩
  · rw [exec_chbeg_passes ht hp, if_pos hk]
    rfl
  · rw [exec_chbeg_passes ht hp, if_neg (by simpa using hk), abortChain_eq]
    simp only [chained, withChain, aborted, cl]
  · intro c
    have hc : c = _ := abortChain_open running ho
    refine ⟨by rw [hc], by rw [hc], fun k hk hs => ?_, ?_⟩
    · rw [hc] at hk
      obtain ⟨k', -, rfl⟩ := List.mem_map.1 hk
      exact stopped_step running (kind_stopped running k' ▸ hs)
    · rw [hc]
      simp [id_stopped, Function.comp_def]
  · rw [exec_chstep_passes h0 h8 ht, issueChain_eq]
    rfl
  · rw [exec_chrun_passes ht, issueChain_eq]
    rfl
  · show Host.Outcome.next s.abortChain = _
    rw [abortChain_eq]
  · show execChrun s = _
    rw [execChrun, trapChain_closed _ ho, orRaise_some]
  · show execChend s = _
    rw [execChend, trapChend_closed ho, orRaise_some]

end Sys2Proof.Proofs
end

section
/-! PROOFS. The Crisum commands on an engine's own state (14 R292 to R299; log 34): each is one change of the current engine, and O37; the
tree of a reduction ends in one lane of 32 bits. -/

namespace Sys2Proof.Proofs

open Sys2Proof Sys2Proof.Machine Sys2Proof.Laws

/-! ### The tree of a reduction (04 R81) -/

theorem length_pairLevel {α : Type} (op : α → α → α) : ∀ xs : List α, (pairTree.pairLevel op xs).length = (xs.length + 1) / 2
  | [] => by simp [pairTree.pairLevel]
  | [_] => by simp [pairTree.pairLevel]
  | a :: b :: rest => by
    rw [pairTree.pairLevel, List.length_cons, length_pairLevel op rest, List.length_cons, List.length_cons]
    omega

/-- A tree over as many values as it has leaves ends in one value, a result of the operation. -/
theorem pairTree_of_length {α : Type} {op : α → α → α} {p : α → Prop} (hop : ∀ a b, p (op a b)) (k : Nat) : ∀ {xs : List α},
    xs.length = 2 ^ (k + 1) → ∃ v, p v ∧ pairTree op (k + 1) xs = [v] := by
  induction k with
  | zero =>
    intro xs h
    obtain ⟨a, b, rfl⟩ := List.length_eq_two.1 h
    exact ⟨op a b, hop a b, rfl⟩
  | succ k ih =>
    intro xs h
    exact ih (xs := pairTree.pairLevel op xs) (by rw [length_pairLevel, h, pow_succ]; omega)

/-! ### Codes of f32 (04 R63, R73) -/

theorem pack_f32_lt (neg : Bool) {mag : Nat} (h : mag ≤ FFmt.f32.maxCode + 1) : FFmt.f32.pack neg mag < 2 ^ 32 := by
  have sign : FFmt.f32.signBit = 2 ^ 31 := rfl
  have top : FFmt.f32.maxCode = 0x7F7FFFFF := rfl
  cases neg <;> simp only [FFmt.pack, b2n, sign] <;> simp <;> omega

theorem b2n_le_one (b : Bool) : b2n b ≤ 1 := by cases b <;> decide

/-- What a finite value rounds to under a mode: a code within the format's, or what overflow leaves (04 R65, R74). -/
theorem res_fin (f : FFmt) (rm : RM) (flush neg : Bool) (num den : Nat) : ∃ mag, mag ≤ f.maxCode + 1 ∧
    f.res rm flush (.fin neg num den) = f.pack neg mag := by
  rw [FFmt.res, FFmt.round]
  dsimp only
  generalize (if roundsUp _ _ _ _ _ then _ else _) = code
  by_cases h : f.maxCode < code
  · exact ⟨f.overflow (.mode rm) neg, Nat.add_le_add_left (b2n_le_one _) _, by rw [if_pos (decide_eq_true h)]⟩
  · refine ⟨_, ?_, by rw [if_neg (by simpa using h)]⟩
    split <;> omega

/-- What an f32 rounds to is a code of 32 bits. -/
theorem res_f32_lt (rm : RM) (flush : Bool) (x : Machine.Num) : FFmt.f32.res rm flush x < 2 ^ 32 := by
  cases x with
  | nan => exact (by decide : FFmt.f32.nanCode < 2 ^ 32)
  | inf neg => exact pack_f32_lt neg le_rfl
  | fin neg num den =>
    obtain ⟨mag, hmag, eq⟩ := res_fin .f32 rm flush neg num den
    exact eq ▸ pack_f32_lt neg hmag

/-! ### One change of the current engine (14 R291) -/

theorem modEng_eq_withEng (s : State) (f : Engine → Engine) : s.modEng f = s.withEng (f s.eng) := rfl

theorem engStep_eq_withEng (s : State) (n : Nat) (f : Engine → Engine) (h : (f s.eng).ptr = s.eng.ptr) :
    s.engStep n f = s.withEng ((f s.eng).then_ n) := by
  rw [State.engStep, modEng_eq_withEng, Engine.then_, h]

theorem exec_bseg_within {s : State} {a : BitVec 2} {g gl : BitVec 4} (hb : (s.eng.reg g).toNat % 128 = 0)
    (hl : (s.eng.reg gl).toNat % 128 = 0) (h : (s.eng.reg g).toNat + (s.eng.reg gl).toNat ≤ s.inputLen) : exec (.bseg a g gl) s =
      .next (s.withEng ((s.eng.setSeg a { base := (s.eng.reg g).toNat, len := (s.eng.reg gl).toNat, pos := 0 }).then_ 1)) :=
  congrArg _ (if_neg (by omega))

theorem exec_bseg_outside {s : State} {a : BitVec 2} {g gl : BitVec 4} (h : (s.eng.reg g).toNat % 128 ≠ 0 ∨
    (s.eng.reg gl).toNat % 128 ≠ 0 ∨ s.inputLen < (s.eng.reg g).toNat + (s.eng.reg gl).toNat) :
    exec (.bseg a g gl) s = .next (s.engineEnd s.curEng 2) := congrArg _ (if_pos h)

/-- What BLOOP makes of the engine (14 R294). -/
def loopBegun (x : Engine) (n : Nat) : Engine :=
  if n = 0 then { x with ptr := matchingEnd x.cmds 1024 (x.ptr + 1) 0 } else { x with ptr := x.ptr + 1, loops := (x.ptr + 1, n) :: x.loops }

theorem exec_bloop (s : State) (g : BitVec 4) : exec (.bloop g) s = .next (s.withEng (loopBegun s.eng (s.eng.reg g).toNat)) := rfl

/-- What BEND makes of the engine (14 R294; log 34). -/
def loopEnded (x : Engine) : Engine :=
  match x.loops with
  | (start, n) :: rest => if n ≤ 1 then { x with ptr := x.ptr + 1, loops := rest } else { x with ptr := start, loops := (start, n - 1) :: rest }
  | [] => { x with ptr := x.ptr + 1 }

theorem exec_bend (s : State) : exec .bend s = .next (s.withEng (loopEnded s.eng)) := rfl

/-- The one lane that BRED.tree leaves is a sum of the tree, as a code of 32 bits. -/
theorem laneTree_eq (a : AccSet) : ∃ v : BitVec 32, [v.toNat] = pairTree laneAdd 6 (a.lanes.toList.map (·.toNat)) := by
  obtain ⟨v, hv, tree⟩ := pairTree_of_length (op := laneAdd) (p := (· < 2 ^ 32)) (fun _ _ => res_f32_lt _ _ _) 5
    (xs := a.lanes.toList.map (·.toNat)) (by simp)
  exact ⟨BitVec.ofNat 32 v, by rw [tree, BitVec.toNat_ofNat, Nat.mod_eq_of_lt hv]⟩

theorem exec_bredTree {s : State} {a : BitVec 2} {v : BitVec 32}
    (h : [v.toNat] = pairTree laneAdd 6 ((s.eng.acc[a.toNat]).lanes.toList.map (·.toNat))) : exec (.bredTree a) s =
      .next (s.withEng ((s.eng.setAcc a ⟨Vector.ofFn fun l : Fin 64 => if l.val = 0 then v else 0, .f32⟩).then_ 1)) := by
  show execBredTree a s = _
  rw [execBredTree, engStep_eq_withEng]
  · simp only [← h, List.headD_cons, BitVec.ofNat_toNat, BitVec.setWidth_eq]
  · rfl

/-- Settles O37: each command is one change of the current engine, and BSEG, BHALT and an unassigned word end its program. -/
theorem engineCommandsAct : Obligations.EngineCommandsAct := by
  intro s g gl a b imm mask fmt w x next reg acc f32 code base len limit
  refine ⟨rfl, rfl, rfl, rfl, exec_bseg_within, exec_bseg_outside, fun h => ?_, fun h => ?_, fun start n rest h hn => ?_,
    fun start n rest h hn => ?_, fun h => ?_, rfl, rfl, ?_, rfl, ?_, rfl, rfl⟩
  · have looping : (s.eng.reg g).toNat ≠ 0 := fun h0 => h (BitVec.eq_of_toNat_eq h0)
    rw [exec_bloop, loopBegun, if_neg looping]
    rfl
  · have skipped : (s.eng.reg g).toNat = 0 := congrArg BitVec.toNat h
    rw [exec_bloop, loopBegun, if_pos skipped]
  · rw [exec_bend, loopEnded, show s.eng.loops = _ from h]
    exact congrArg _ (congrArg _ (if_neg (by omega)))
  · rw [exec_bend, loopEnded, show s.eng.loops = _ from h]
    exact congrArg _ (congrArg _ (if_pos hn))
  · rw [exec_bend, loopEnded, show s.eng.loops = _ from h]
  · obtain ⟨v, hv⟩ := laneTree_eq s.eng.acc[a.toNat]
    exact ⟨v, exec_bredTree hv, hv⟩
  · cases fmt <;> rfl

end Sys2Proof.Proofs
end

section
/-! PROOFS. The entry into a handler (02 R39; 19 R341, R343, R346; 22 R390): the three sc that it takes, with nothing in flight but the trap
record, O15 and O16. -/

namespace Sys2Proof.Proofs

open Sys2Proof Sys2Proof.Machine Sys2Proof.Laws

/-! ### An sc in which nothing is due -/

/-- A core an sc later, with no result in flight. -/
def idled (c : Core) : Core := landing (begun c).sc [] (begun c)

theorem committed_begun_of_nil {c : Core} (h : c.pend = []) : committed (begun c).sc (begun c) = idled c := by
  have due : duePending (begun c).pend (begun c).sc = [] := by
    show duePending c.pend _ = _
    rw [h]
    rfl
  rw [committed, due]
  rfl

theorem modCore_eq_setCore (s : State) (c : CoreId) (f : Core → Core) : s.modCore c f = s.setCore c (f (s.core c)) := rfl

theorem setCore_setCore (s : State) (c : CoreId) (x y : Core) : (s.setCore c x).setCore c y = s.setCore c y := by
  simp [State.setCore]

/-- With no result and no load in flight, and no store that takes effect in it, an sc changes its core alone. -/
theorem tick_setCore_idle {s : State} {c : CoreId} {x : Core} (hp : x.pend = []) (hl : x.loc.loads = [])
    (hs : ∀ st ∈ x.loc.stores, st.due ≠ (begun x).sc) : (s.setCore c x).tick c = s.setCore c (idled x) := by
  have begin_ : (s.setCore c x).modCore c begun = s.setCore c (begun x) := by
    rw [modCore_eq_setCore, core_setCore_same, setCore_setCore]
  have none_ : ((begun x).loc.stores.filter fun st => st.due == (begun x).sc) = [] :=
    List.filter_eq_nil_iff.2 fun st hst => by simpa using hs st hst
  have all : dropStores (begun x).sc (begun x) = begun x := by
    have keep : ((begun x).loc.stores.filter fun st => st.due != (begun x).sc) = (begun x).loc.stores :=
      List.filter_eq_self.2 fun st hst => by simpa using hs st hst
    rw [dropStores, keep]
  show ((s.setCore c x).modCore c begun).settle c = _
  rw [begin_, settle_eq, performLoads_of_nil (by rwa [core_setCore_same]), core_setCore_same, none_, List.foldl_nil, modCore_modCore,
    modCore_eq_setCore, core_setCore_same, setCore_setCore, all, committed_begun_of_nil hp]

/-- With nothing in flight an sc leaves all that a program sees of its core as it was. -/
theorem idled_keeps (c : Core) : (idled c).pc = c.pc ∧ (idled c).sys = c.sys ∧ (idled c).s = c.s ∧ (idled c).p = c.p ∧ (idled c).v = c.v ∧
    (idled c).td = c.td ∧ (idled c).ctl = c.ctl ∧ (idled c).loc = c.loc ∧ (idled c).cyc = c.cyc + 1 :=
  ⟨rfl, rfl, rfl, rfl, rfl, rfl, rfl, rfl, rfl⟩

theorem quiet_idled {c : Core} (hp : c.pend = []) (hl : c.loc.loads = []) (hs : c.loc.stores = []) :
    (idled c).pend = [] ∧ (idled c).loc.loads = [] ∧ (idled c).loc.stores = [] := by
  refine ⟨?_, hl, hs⟩
  show c.pend.filter _ = []
  rw [hp]
  rfl

/-- With nothing in flight, time alone passes on a core. -/
theorem ticks_setCore_idle {s : State} {c : CoreId} {x : Core} (n : Nat) (hp : x.pend = []) (hl : x.loc.loads = [])
    (hs : x.loc.stores = []) : (s.setCore c x).ticks c n = s.setCore c (idled^[n] x) := by
  induction n generalizing x with
  | zero => rfl
  | succ n ih =>
    obtain ⟨hp', hl', hs'⟩ := quiet_idled hp hl hs
    rw [State.ticks, tick_setCore_idle hp hl (by simp [hs]), ih hp' hl' hs', Function.iterate_succ_apply]

theorem dropTransient_of_nil {c : Core} (h : c.pend = []) : c.dropTransient = { c with bypass := [] } := by
  have keep : c.dropTransient.pend = c.pend := by
    show c.pend.filter _ = _
    rw [h]
    rfl
  show { c with bypass := [], pend := c.dropTransient.pend } = _
  rw [keep]

/-! ### The entry of the system class -/

/-- A core whose supervisor handler begins (19 R346). -/
def systemEntered (x : Core) (cause tcause : Nat) (tbaddr t0 t1 : Word) : Core :=
  { x with
    bypass := []
    sys := { x.sys with
      tcause := BitVec.ofNat 32 tcause, tbaddr := tbaddr, tinfo0 := t0, tinfo1 := t1
      pm := x.sys.mode, sh := true, mode := true, held := 0
      inPfw := x.sys.inPfw || cause == 0x14
      pfbud := if cause == 0x14 then 4096 else x.sys.pfbud }
    loops := x.loops.map fun r => { r with maskS := r.maskS || r.active }
    pc := x.sys.shentry, jump := none, skipRun := 0 }

theorem enterSystem_quiet {s : State} {c : CoreId} (cause tcause : Nat) (tbaddr t0 t1 : Word) (hp : (s.core c).pend = [])
    (hl : (s.core c).loc.loads = []) (hs : (s.core c).loc.stores = []) : s.enterSystem c cause tcause tbaddr t0 t1 =
      s.setCore c (idled^[3] (systemEntered (s.core c) cause tcause tbaddr t0 t1)) := by
  rw [State.enterSystem, dropTransient_of_nil hp]
  exact ticks_setCore_idle 3 hp hl hs

/-- A trap of the system class, or in privileged mode, that meets no handler in its way. -/
theorem takeTrap_system {s : State} {c : CoreId} {cause : Nat} {sync : Bool} (slot : Nat) (t0 t1 tbaddr : Word)
    (h : systemCause cause = true ∨ ((s.core c).sys.mode = true ∧ (sync = false ∨ (s.core c).sys.uh = false)))
    (hs : (s.core c).sys.sh = false) : s.takeTrap c slot cause sync t0 t1 tbaddr =
      s.enterSystem c cause (tcauseValue cause slot sync (s.core c).sys.uh) tbaddr t0 t1 := by
  have unnested : (sync && (s.core c).sys.uh && !systemCause cause) = false := by
    obtain h | ⟨-, h | h⟩ := h <;> simp [h]
  have enters : (systemCause cause || (s.core c).sys.mode) = true := by
    obtain h | ⟨h, -⟩ := h <;> simp [h]
  simp [State.takeTrap, unnested, enters, hs]

/-- tcause's fields (19 R350). -/
theorem tcauseValue_eq {cause : Nat} (slot : Nat) (sync uh : Bool) (h : cause < 256) : (BitVec.ofNat 32 (tcauseValue cause slot sync uh)).toNat =
    cause + slot % 8 * 2 ^ 8 + (if sync then 2 ^ 11 else 0) + (if uh then 2 ^ 12 else 0) := by
  have slots : slot % 8 < 8 := Nat.mod_lt _ (by decide)
  rw [BitVec.toNat_ofNat, tcauseValue, Nat.mod_eq_of_lt h]
  cases sync <;> cases uh <;> simp [b2n] <;> omega

/-- Settles O16: with nothing in flight the entry is one change of the core, and the sc that it takes change nothing else. -/
theorem systemTrapEntry : Obligations.SystemTrapEntry := by
  intro s c slot cause sync t0 t1 tbaddr x h hsh hc hp hl hs _ t y
  have enters : systemCause cause = true ∨ (x.sys.mode = true ∧ (sync = false ∨ x.sys.uh = false)) := by
    obtain rfl | rfl | rfl | h := h
    · exact .inl rfl
    · exact .inl rfl
    · exact .inl rfl
    · exact .inr h
  have ht : t = s.setCore c (idled^[3] (systemEntered x cause (tcauseValue cause slot sync x.sys.uh) tbaddr t0 t1)) :=
    (takeTrap_system slot t0 t1 tbaddr enters hsh).trans (enterSystem_quiet _ _ _ _ _ hp hl hs)
  have hy : y = idled^[3] (systemEntered x cause (tcauseValue cause slot sync x.sys.uh) tbaddr t0 t1) := by
    show t.core c = _
    rw [ht, core_setCore_same]
  have others : ∀ d, d ≠ c → t.core d = s.core d := fun d hd => by rw [ht, core_setCore_ne hd]
  have hf : t.hbm = s.hbm ∧ t.scm = s.scm ∧ t.tasks = s.tasks := by
    rw [ht]
    exact ⟨rfl, rfl, rfl⟩
  have hcyc : x.cyc + 1 + 1 + 1 = x.cyc + 3 := by ring
  rw [hy]
  simp only [Function.iterate_succ_apply, Function.iterate_zero, id_eq, idled_keeps, systemEntered, hcyc, true_and]
  exact ⟨tcauseValue_eq slot sync _ hc, others, hf⟩

/-! ### The entry of the user class -/

/-- The store that writes a trap record, two sc after the trap (19 R346). -/
def recordStore (x : Core) (tcause : Nat) (tbaddr t0 t1 : Word) : LocalStore :=
  { due := x.sc + 2, slot := 0, issue := x.issue, addr := x.sys.trapRec, bytes := trapRecord tcause tbaddr t0 t1, half := false }

/-- A core whose user handler begins, with one more store in flight (19 R346). -/
def userEntered (x : Core) (entry tbaddr : Word) (st : LocalStore) : Core :=
  { x with
    bypass := []
    sys := { x.sys with uret := tbaddr, uh := true }
    loops := x.loops.map fun r => { r with maskU := r.maskU || r.active }
    loc := { x.loc with stores := x.loc.stores ++ [st] }
    pc := entry, jump := none, skipRun := 0 }

/-- A core with bytes written into its local memory, no store in flight, and what its queues keep. -/
def storeDone (x : Core) (q : Queues) (a : Nat) (bs : List Byte) : Core :=
  { x with q := q, loc := { x.loc with lmem := x.loc.lmem.put a bs, stores := [] } }

/-- The sc in which the one store in flight, to the scratchpad, takes effect. -/
theorem tick_setCore_stores {s : State} {c : CoreId} {x : Core} {st : LocalStore} (hp : x.pend = []) (hl : x.loc.loads = [])
    (hs : x.loc.stores = [st]) (hd : st.due = (begun x).sc) (hf : st.half = false) (hb : st.bytes ≠ [])
    (h : st.addr + st.bytes.length ≤ x.stashBase) : ∃ q, (s.setCore c x).tick c = s.setCore c (idled (storeDone x q st.addr st.bytes)) := by
  have begin_ : (s.setCore c x).modCore c begun = s.setCore c (begun x) := by
    rw [modCore_eq_setCore, core_setCore_same, setCore_setCore]
  have due : ((begun x).loc.stores.filter fun st => st.due == (begun x).sc) = [st] := by
    show (x.loc.stores.filter fun st => st.due == (begun x).sc) = _
    rw [hs]
    simp [hd]
  have left : dropStores (begun x).sc (begun x) = { begun x with loc := { x.loc with stores := [] } } := by
    have gone : (x.loc.stores.filter fun st => st.due != (begun x).sc) = [] := by
      rw [hs]
      simp [hd]
    rw [dropStores]
    show { begun x with loc := { x.loc with stores := x.loc.stores.filter fun st => st.due != (begun x).sc } } = _
    rw [gone]
  obtain ⟨q, hq⟩ := storedBytes_eq (dropStores (begun x).sc (begun x)) st.issue st.addr st.bytes
  refine ⟨q, ?_⟩
  show ((s.setCore c x).modCore c begun).settle c = _
  rw [begin_, settle_eq, performLoads_of_nil (by rwa [core_setCore_same]), core_setCore_same, due, List.foldl_cons, List.foldl_nil,
    performStore_scratchpad hf hb (by rw [core_modCore_same, core_setCore_same]; exact h), modCore_modCore, modCore_modCore,
    modCore_eq_setCore, core_setCore_same, setCore_setCore, hq, left]
  exact congrArg _ (committed_begun_of_nil (c := storeDone x q st.addr st.bytes) hp)

theorem bytes_put_same {m : Mem} (hw : m.wf = true) (bs : List Byte) (a : Nat) : (m.put a bs).bytes a bs.length = bs := by
  induction bs generalizing m a with
  | nil => rfl
  | cons b bs ih =>
    rw [Mem.put, List.length_cons, Mem.bytes, ih (mem_wf_set hw), mem_get_put_ne (.inl (Nat.lt_succ_self a)), mem_get_set_same hw]

theorem length_trapRecord (tcause : Nat) (tbaddr t0 t1 : Word) : (trapRecord tcause tbaddr t0 t1).length = 32 := by
  simp [trapRecord, bytesOfNat]

section
variable {s : State} {c : CoreId} {tbaddr t0 t1 : Word} {tcause : Nat}

theorem enterUser_gated (h : (s.core c).gatedSpan (s.core c).sys.trapRec 32 = true) :
    s.enterUser c tcause tbaddr t0 t1 = s.violation c 1 (s.core c).sys.trapRec tbaddr := if_pos h

/-- The record stands, and the handler's first bundle is next. -/
def userHandled (x : Core) (entry tbaddr : Word) (st : LocalStore) (q : Queues) : Core :=
  idled (idled (storeDone (idled (userEntered x entry tbaddr st)) q st.addr st.bytes))

theorem lmem_userHandled (x : Core) (entry tbaddr : Word) (st : LocalStore) (q : Queues) :
    (userHandled x entry tbaddr st q).loc.lmem = x.loc.lmem.put st.addr st.bytes := rfl

theorem userHandled_leaves (x : Core) (entry tbaddr : Word) (st : LocalStore) (q : Queues) :
    let y := userHandled x entry tbaddr st q
    y.pc = entry ∧ y.sys = { x.sys with uret := tbaddr, uh := true } ∧ y.cyc = x.cyc + 3 ∧ y.bypass = [] ∧
    y.s = x.s ∧ y.p = x.p ∧ y.v = x.v ∧ y.td = x.td ∧ y.ctl = x.ctl := by
  simp only [userHandled, storeDone, userEntered, idled_keeps]
  exact ⟨trivial, trivial, by ring, rfl, trivial, trivial, trivial, trivial, trivial⟩

/-- The entry: in the first sc the record is on its way, in the second it is written, and the third passes. -/
theorem ticks_userEntered {x : Core} (entry : Word) {st : LocalStore} (hp : x.pend = []) (hl : x.loc.loads = []) (hs : x.loc.stores = [])
    (hd : st.due = x.sc + 2) (hf : st.half = false) (hb : st.bytes ≠ []) (hr : st.addr + st.bytes.length ≤ x.stashBase)
    (hc : x.cyc.toNat + 3 < 2 ^ 64) : ∃ q, (s.setCore c (userEntered x entry tbaddr st)).ticks c 3 =
      s.setCore c (userHandled x entry tbaddr st q) := by
  have sc1 : (begun x).sc = x.sc + 1 := by
    show (x.cyc + 1).toNat = x.cyc.toNat + 1
    bv_omega
  have sc2 : (begun (begun x)).sc = x.sc + 2 := by
    show (x.cyc + 1 + 1).toNat = x.cyc.toNat + 2
    bv_omega
  have stores : (userEntered x entry tbaddr st).loc.stores = [st] := by
    show x.loc.stores ++ [st] = [st]
    rw [hs, List.nil_append]
  have drained : (idled (userEntered x entry tbaddr st)).pend = [] := by
    show x.pend.filter _ = []
    rw [hp]
    rfl
  obtain ⟨q, hq⟩ := tick_setCore_stores (s := s) (c := c) drained hl stores (hd.trans sc2.symm) hf hb hr
  obtain ⟨hp', hl', hs'⟩ := quiet_idled (c := storeDone (idled (userEntered x entry tbaddr st)) q st.addr st.bytes) drained hl rfl
  have early : ∀ st' ∈ (userEntered x entry tbaddr st).loc.stores, st'.due ≠ (begun (userEntered x entry tbaddr st)).sc := by
    intro st' hst
    rw [stores] at hst
    rw [List.mem_singleton.1 hst, hd]
    show x.sc + 2 ≠ (begun x).sc
    omega
  exact ⟨q, by rw [State.ticks, tick_setCore_idle (x := userEntered x entry tbaddr st) hp hl early, State.ticks, hq, ticks_setCore_idle 1 hp' hl' hs', userHandled,
    Function.iterate_one]⟩

theorem enterUser_quiet (h : (s.core c).gatedSpan (s.core c).sys.trapRec 32 = false) (hp : (s.core c).pend = [])
    (hl : (s.core c).loc.loads = []) (hs : (s.core c).loc.stores = []) (hr : (s.core c).sys.trapRec + 32 ≤ (s.core c).stashBase)
    (hc : (s.core c).cyc.toNat + 3 < 2 ^ 64) : ∃ q, s.enterUser c tcause tbaddr t0 t1 = s.setCore c
      (userHandled (s.core c) (s.userEntry c) tbaddr (recordStore (s.core c) tcause tbaddr t0 t1) q) := by
  have entered : s.enterUser c tcause tbaddr t0 t1 =
      (s.setCore c (userEntered (s.core c) (s.userEntry c) tbaddr (recordStore (s.core c) tcause tbaddr t0 t1))).ticks c 3 := by
    have shut : ((s.core c).dropTransient).gatedSpan (s.core c).dropTransient.sys.trapRec 32 = false := h
    rw [State.enterUser, shut, dropTransient_of_nil hp]
    exact if_neg Bool.false_ne_true
  rw [entered]
  exact ticks_userEntered _ hp hl hs rfl rfl (List.ne_nil_of_length_eq_add_one (length_trapRecord tcause tbaddr t0 t1))
    (by rw [recordStore, length_trapRecord]; exact hr) hc

/-- A trap of the user class in user mode outside handlers, with a handler to go to. -/
theorem takeTrap_user {cause : Nat} (slot : Nat) (sync : Bool) (t0 t1 : Word) (hc : systemCause cause = false)
    (hm : (s.core c).sys.mode = false) (hu : (s.core c).sys.uh = false) (he : s.userEntry c ≠ 0) :
    s.takeTrap c slot cause sync t0 t1 tbaddr = s.enterUser c (tcauseValue cause slot sync false) tbaddr t0 t1 := by
  rw [State.takeTrap, hc, hm, hu, Bool.and_false, Bool.false_and, if_neg Bool.false_ne_true, Bool.or_self, if_neg Bool.false_ne_true,
    beq_false_of_ne he, if_neg Bool.false_ne_true]

end

/-- Settles O15: with nothing in flight but the record the entry is one change of the core, made in the three sc that it takes. -/
theorem userTrapEntry : Obligations.UserTrapEntry := by
  intro s c slot cause sync t0 t1 tbaddr x hcause hm hu he t y
  have user : systemCause cause = false := by simp [systemCause, hcause]
  have ht : t = s.enterUser c (tcauseValue cause slot sync false) tbaddr t0 t1 := takeTrap_user slot sync t0 t1 user hm hu he
  refine ⟨fun h => ht.trans (enterUser_gated h), fun h hp hl hs hw hr hc => ?_⟩
  obtain ⟨q, hq⟩ := enterUser_quiet (tbaddr := tbaddr) (t0 := t0) (t1 := t1) (tcause := tcauseValue cause slot sync false) h hp hl hs hr hc
  have hy : y = userHandled x (s.userEntry c) tbaddr (recordStore x (tcauseValue cause slot sync false) tbaddr t0 t1) q := by
    show t.core c = _
    rw [ht, hq, core_setCore_same]
  have record : trapRecord (tcauseValue cause slot sync false) tbaddr t0 t1 =
      bytesOfNat 4 (cause % 256 + slot % 8 * 2 ^ 8 + (if sync then 2 ^ 11 else 0)) ++ bytesOfNat 4 0
        ++ bytesOfNat 8 tbaddr.toNat ++ bytesOfNat 8 t0.toNat ++ bytesOfNat 8 t1.toNat := by
    cases sync <;> simp [trapRecord, tcauseValue, b2n]
  have others : ∀ d, d ≠ c → t.core d = s.core d := fun d hd => by rw [ht, hq, core_setCore_ne hd]
  have mem : y.loc.lmem = x.loc.lmem.put x.sys.trapRec (trapRecord (tcauseValue cause slot sync false) tbaddr t0 t1) := by
    rw [hy]
    exact lmem_userHandled x _ _ _ q
  refine ⟨?_, fun a ha => ?_, ?_⟩
  · rw [mem, ← record]
    exact length_trapRecord (tcauseValue cause slot sync false) tbaddr t0 t1 ▸ bytes_put_same hw _ _
  · rw [mem, mem_get_put_ne (by rwa [length_trapRecord])]
  · obtain ⟨pc, sys, cyc, bypass, ks, kp, kv, ktd, kctl⟩ := userHandled_leaves x (s.userEntry c) tbaddr
      (recordStore x (tcauseValue cause slot sync false) tbaddr t0 t1) q
    rw [hy]
    refine ⟨pc, sys, cyc, bypass, ks, kp, kv, ktd, kctl, others, ?_⟩
    rw [ht, hq]
    exact ⟨rfl, rfl, rfl⟩

end Sys2Proof.Proofs
end

section
/-! PROOFS. What the module's own memory traffic leaves as it was (05 R90, 19 R355; 21 R376): a write of the error log with its recalls
changes cores, tasks, memory, L2, translations and the log, and nothing else. -/

namespace Sys2Proof.Proofs

open Sys2Proof Sys2Proof.Machine Sys2Proof.Laws

/-- t is s but for what memory traffic of the module changes. -/
def Traffic (s t : State) : Prop :=
  t = { s with cores := t.cores, tasks := t.tasks, hbm := t.hbm, l2 := t.l2, trans := t.trans, elog := t.elog, supEvents := t.supEvents }

section
variable {s t u : State}

theorem Traffic.refl (s : State) : Traffic s s := rfl

theorem Traffic.trans (h : Traffic s t) (h' : Traffic t u) : Traffic s u := by
  unfold Traffic at *
  rw [h', h]

theorem Traffic.curEng (h : Traffic s t) : t.curEng = s.curEng := by rw [h]

theorem Traffic.foldl {β : Type} {f : State → β → State} (hf : ∀ s x, Traffic s (f s x)) (l : List β) (s : State) : Traffic s (l.foldl f s) :=
  List.foldlRecOn l f (.refl s) fun t ht x _ => ht.trans (hf t x)

theorem Traffic.modCore (s : State) (c : CoreId) (f : Core → Core) : Traffic s (s.modCore c f) := rfl

theorem Traffic.pokeCells (s : State) (p : Option Page) (ia : Nat) (l : List (Nat × Byte)) : Traffic s (s.pokeCells p ia l) := by
  cases p with
  | none => exact .refl s
  | some p => exact .foldl (f := fun s x => s.pokeAt p (ia + x.1) x.2) (fun _ _ => rfl) l s

theorem Traffic.recallFrom (s : State) (p : Option Page) (ia : Nat) (write : Bool) (c : CoreId) : Traffic s (s.recallFrom p ia write c) := by
  refine .foldl (fun s g => ?_) _ s
  split
  · split
    · extract_lets
      split
      · exact (Traffic.pokeCells ..).trans ((Traffic.pokeCells ..).trans (.modCore ..))
      · exact (Traffic.pokeCells ..).trans (.modCore ..)
    · exact .refl s
  · exact .refl s

theorem Traffic.recall (s : State) (p : Option Page) (ia : Nat) (write : Bool) (skip : Option CoreId) : Traffic s (s.recall p ia write skip) :=
  .foldl (fun s c => .recallFrom s p ia write c) _ s

theorem Traffic.recallIa (s : State) (ia n : Nat) (write : Bool) : Traffic s (s.recallIa ia n write) := by
  refine .foldl (fun s i => ?_) _ s
  split
  · exact .recall ..
  · exact .refl s

theorem Traffic.overtake (s : State) (skip : Option CoreId) (ia n : Nat) : Traffic s (s.overtake skip ia n) := by
  unfold State.overtake
  extract_lets t
  have ht : Traffic s t := .foldl (fun s c => .modCore s c _) _ s
  split
  · exact ht.trans rfl
  · exact ht

theorem Traffic.writeIa {ia : Nat} {bs : List Byte} (h : s.writeIa ia bs = some t) : Traffic s t := by
  unfold State.writeIa at h
  split at h
  · cases h
    exact (Traffic.recallIa ..).trans ((Traffic.overtake ..).trans (.foldl (fun _ _ => .pokeCells ..) ..))
  · cases h

theorem Traffic.logEntry (s : State) (addr : Nat) (taskid cyc : Word) (kind code core : Nat) :
    Traffic s (s.logEntry addr taskid cyc kind code core) := by
  unfold State.logEntry
  extract_lets
  split
  · exact .refl s
  · split
    · rfl
    · split
      · exact .refl s
      next h => exact (Traffic.writeIa h).trans rfl

theorem Traffic.logModule (s : State) (addr : Nat) (taskid : Word) (kind code : Nat) : Traffic s (s.logModule addr taskid kind code) :=
  .logEntry ..

theorem Traffic.missed (s : State) (cls addr : Nat) : Traffic s (s.missed cls addr) := by
  unfold State.missed State.cachePage
  repeat' split
  all_goals rfl

theorem Traffic.logJobViolation (s : State) (j : BankJob) (cls addr : Nat) : Traffic s (s.logJobViolation j cls addr) := by
  refine (Traffic.missed s cls addr).trans ?_
  unfold State.logJobViolation State.logJob
  split
  · exact .logEntry ..
  · exact .logModule ..

end

end Sys2Proof.Proofs
end

section
/-! PROOFS. The streams of an engine (14 R295 to R299; log 34): the elements in the bytes of a beat, one beat, and BLDV, BOUT and BSIG; O38. -/

namespace Sys2Proof.Proofs

open Sys2Proof Sys2Proof.Machine Sys2Proof.Laws

/-! ### Elements in little-endian bytes (00 R6, 03 R46) -/

theorem byte_of_natOfBytes (bs : List Byte) (i : Nat) : natOfBytes bs / 256 ^ i % 256 = (bs.getD i 0).toNat := by
  induction bs generalizing i with
  | nil => simp [natOfBytes]
  | cons b bs ih =>
    have hb := b.isLt
    cases i with
    | zero => simp [natOfBytes]; omega
    | succ i =>
      have rest : (b.toNat + 256 * natOfBytes bs) / 256 = natOfBytes bs := by omega
      rw [natOfBytes, pow_succ', ← Nat.div_div_eq_div_mul, rest, ih, List.getD_cons_succ]

theorem pow_two_eight_mul (i : Nat) : 2 ^ (8 * i) = 256 ^ i := by rw [pow_mul]; norm_num

theorem elem_eight (bs : List Byte) (i : Nat) : natOfBytes bs / 2 ^ (8 * i) % 2 ^ 8 = (bs.getD i 0).toNat := by
  rw [pow_two_eight_mul]
  exact byte_of_natOfBytes bs i

theorem elem_sixteen (bs : List Byte) (i : Nat) : natOfBytes bs / 2 ^ (16 * i) % 2 ^ 16 =
    (bs.getD (2 * i) 0).toNat + 256 * (bs.getD (2 * i + 1) 0).toNat := by
  have place : 2 ^ (16 * i) = 256 ^ (2 * i) := by rw [← pow_two_eight_mul]; congr 1; omega
  rw [place, ← byte_of_natOfBytes, ← byte_of_natOfBytes, pow_succ 256, ← Nat.div_div_eq_div_mul]
  omega

theorem elem_four (bs : List Byte) (i : Nat) : natOfBytes bs / 2 ^ (4 * i) % 2 ^ 4 = (bs.getD (i / 2) 0).toNat / 16 ^ (i % 2) % 16 := by
  have place : 2 ^ (4 * i) = 256 ^ (i / 2) * 16 ^ (i % 2) := by
    rw [← pow_two_eight_mul, show (16 : Nat) = 2 ^ 4 from rfl, ← pow_mul, ← pow_add]
    congr 1
    omega
  rw [place, ← Nat.div_div_eq_div_mul, ← byte_of_natOfBytes]
  obtain h | h := Nat.mod_two_eq_zero_or_one i <;> rw [h] <;> omega

/-! ### One beat (14 R295) -/

/-- The values of a beat's elements. -/
def beatElems (ty : BTy) (bs sc : List Byte) : Array Machine.Num :=
  let codes := elemsOfNat (beatBits ty) (1024 / beatBits ty) (natOfBytes bs)
  ((List.range codes.length).zipWith (fun i c => beatValue ty (((sc.map (·.toNat)).toArray).getD (i / 32) 0) c) codes).toArray

theorem beatElems_getD (ty : BTy) (bs sc : List Byte) {i : Nat} (h : i < 64 * beatCols ty) : (beatElems ty bs sc).getD i .nan =
    beatValue ty (sc.getD (i / 32) 0).toNat (natOfBytes bs / 2 ^ (beatBits ty * i) % 2 ^ beatBits ty) := by
  have count : 1024 / beatBits ty = 64 * beatCols ty := by cases ty <;> rfl
  have code := elemsOfNat_getElem? (beatBits ty) (natOfBytes bs) (count ▸ h)
  have scale : ((sc.map (·.toNat)).toArray).getD (i / 32) 0 = (sc.getD (i / 32) 0).toNat := by
    simp only [Array.getD_eq_getD_getElem?, List.getElem?_toArray, List.getElem?_map, List.getD_eq_getElem?_getD]
    cases sc[i / 32]? <;> rfl
  rw [beatElems, Array.getD_eq_getD_getElem?, List.getElem?_toArray, List.getElem?_zipWith, code, length_elemsOfNat, count,
    List.getElem?_range h, ← scale]
  rfl

/-- The segments after a beat: 128 bytes on, and for b4 the next one 8 scale bytes on. -/
def beatSegs (x : Engine) (sg : BitVec 2) (ty : BTy) : Vector Seg 4 :=
  let moved := x.sg.set sg.toNat { x.sg[sg.toNat] with pos := (x.sg[sg.toNat]).pos + 128 }
  match ty with
  | .b4 => moved.set (sg + 1).toNat { x.sg[(sg + 1).toNat] with pos := (x.sg[(sg + 1).toNat]).pos + 8 }
  | _ => moved

/-- An accumulator set after a beat of these bytes. -/
def beatAcc (x : Engine) (acc : AccSet) (g : BitVec 4) (ty : BTy) (bs sc : List Byte) : AccSet :=
  let vs := (List.range (beatCols ty)).map fun q => FFmt.bf16.value false (x.vbuf.nat (2 * ((x.reg g).toNat + q)) 2)
  { acc with lanes := Vector.ofFn fun l : Fin 64 => beatLane ty (beatElems ty bs sc) vs acc.lanes[l] l.val }

/-- The engine after a beat of these bytes. -/
def beaten (x : Engine) (a sg : BitVec 2) (g : BitVec 4) (ty : BTy) (bs sc : List Byte) : Engine :=
  { x with
    sg := beatSegs x sg ty
    acc := x.acc.set a.toNat (beatAcc x x.acc[a.toNat] g ty bs sc)
    g := x.g.set g.toNat (x.reg g + BitVec.ofNat 32 (beatCols ty)) }

section
variable {s : State} {x : Engine} {sg : BitVec 2} {g : BitVec 4} {ty : BTy} (a : BitVec 2)

theorem beat_short (h : (x.sg[sg.toNat]).len < (x.sg[sg.toNat]).pos + 128) : s.beat a sg g ty x = .error 3 := if_pos h

theorem beat_past_vbuf (h : (x.sg[sg.toNat]).pos + 128 ≤ (x.sg[sg.toNat]).len) (hv : 8192 < (x.reg g).toNat + beatCols ty) :
    s.beat a sg g ty x = .error 4 := (if_neg (by omega)).trans (if_pos hv)

/-- The next segment is another one, so that its place is not that of the beat's own. -/
theorem getElem_set_next (v : Vector Seg 4) (i : BitVec 2) (y : Seg) : (v.set i.toNat y)[(i + 1).toNat] = v[(i + 1).toNat] := by
  have apart : i.toNat ≠ (i + 1).toNat := fun h => by
    have := BitVec.eq_of_toNat_eq h
    bv_omega
  exact Vector.getElem_set_ne _ _ apart

theorem beatScales_short (h : (x.sg[(sg + 1).toNat]).len < (x.sg[(sg + 1).toNat]).pos + 8) (y : Seg) :
    s.beatScales .b4 sg (x.setSeg sg y) = .error 3 := by
  have same : (x.setSeg sg y).sg[(sg + 1).toNat] = x.sg[(sg + 1).toNat] := getElem_set_next x.sg sg y
  simp only [State.beatScales, same]
  exact if_pos h

theorem beatScales_within {sc : List Byte} (h : (x.sg[(sg + 1).toNat]).pos + 8 ≤ (x.sg[(sg + 1).toNat]).len)
    (hs : s.engInput ((x.sg[(sg + 1).toNat]).base + (x.sg[(sg + 1).toNat]).pos) 8 = .ok sc) (y : Seg) :
    s.beatScales .b4 sg (x.setSeg sg y) =
      .ok ((x.setSeg sg y).setSeg (sg + 1) { x.sg[(sg + 1).toNat] with pos := (x.sg[(sg + 1).toNat]).pos + 8 }, sc) := by
  have same : (x.setSeg sg y).sg[(sg + 1).toNat] = x.sg[(sg + 1).toNat] := getElem_set_next x.sg sg y
  simp only [State.beatScales, same]
  rw [if_neg (by omega), hs]
  rfl

theorem beat_within {bs sc : List Byte} (h : (x.sg[sg.toNat]).pos + 128 ≤ (x.sg[sg.toNat]).len)
    (hv : (x.reg g).toNat + beatCols ty ≤ 8192) (hb : s.engInput ((x.sg[sg.toNat]).base + (x.sg[sg.toNat]).pos) 128 = .ok bs)
    (hs : ty = .b4 → (x.sg[(sg + 1).toNat]).pos + 8 ≤ (x.sg[(sg + 1).toNat]).len ∧
      s.engInput ((x.sg[(sg + 1).toNat]).base + (x.sg[(sg + 1).toNat]).pos) 8 = .ok sc) :
    s.beat a sg g ty x = .ok (beaten x a sg g ty bs (if ty = .b4 then sc else [])) := by
  rw [State.beat, if_neg (by omega), if_neg (by omega), hb]
  cases ty with
  | b4 =>
    obtain ⟨room, read⟩ := hs rfl
    simp only [beatScales_within room read]
    rfl
  | bf16 | e4m3 | e5m2 => rfl

theorem beat_short_scales {bs : List Byte} (h : (x.sg[sg.toNat]).pos + 128 ≤ (x.sg[sg.toNat]).len)
    (hv : (x.reg g).toNat + beatCols .b4 ≤ 8192) (hb : s.engInput ((x.sg[sg.toNat]).base + (x.sg[sg.toNat]).pos) 128 = .ok bs)
    (hs : (x.sg[(sg + 1).toNat]).len < (x.sg[(sg + 1).toNat]).pos + 8) : s.beat a sg g .b4 x = .error 3 := by
  rw [State.beat, if_neg (by omega), if_neg (by omega), hb]
  simp only [beatScales_short hs]

end

theorem lane_beaten (x : Engine) (a sg : BitVec 2) (g : BitVec 4) (ty : BTy) (bs sc : List Byte) (l : Fin 64) :
    ((beaten x a sg g ty bs sc).acc[a.toNat]).lanes[l] = BitVec.ofNat 32 (accGroup ((x.acc[a.toNat]).lanes[l]).toNat
      ((List.range (beatCols ty)).map fun q =>
        (beatValue ty (sc.getD ((l.val * beatCols ty + q) / 32) 0).toNat
          (natOfBytes bs / 2 ^ (beatBits ty * (l.val * beatCols ty + q)) % 2 ^ beatBits ty),
          FFmt.bf16.value false (x.vbuf.nat (2 * ((x.reg g).toNat + q)) 2)))) := by
  have elems : ∀ q ∈ List.range (beatCols ty), (beatElems ty bs sc).getD (l.val * beatCols ty + q) .nan = _ := fun q hq =>
    beatElems_getD ty bs sc (by have := List.mem_range.1 hq; have := l.isLt; cases ty <;> simp only [beatCols] at * <;> omega)
  have set : (beaten x a sg g ty bs sc).acc[a.toNat] = beatAcc x x.acc[a.toNat] g ty bs sc := Vector.getElem_set_self a.isLt
  rw [set]
  simp only [beatAcc, Fin.getElem_fin, Vector.getElem_ofFn, beatLane, List.zip_map']
  rw [List.map_congr_left fun q hq => congrArg (Prod.mk · _) (elems q hq)]

theorem acc_beaten_ne (x : Engine) (a sg : BitVec 2) (g : BitVec 4) (ty : BTy) (bs sc : List Byte) (k : Fin 4) (h : k.val ≠ a.toNat) :
    (beaten x a sg g ty bs sc).acc[k] = x.acc[k] := Vector.getElem_set_ne a.isLt k.isLt h.symm

theorem beatsAccumulate : BeatsAccumulate := by
  intro s a sg g ty x bs sc n cols t u v byte el code val vec scaled
  have columns : cols = beatCols ty := by cases ty <;> rfl
  rw [columns]
  refine ⟨fun h hv hb _ hs => ⟨_, beat_within a h hv hb hs, fun l => ?_, fun k hk => acc_beaten_ne _ _ _ _ _ _ _ k hk, rfl, fun hty => ?_,
    fun hty => by rw [hty]; rfl, rfl, rfl, rfl⟩, beat_short a, beat_past_vbuf a, ?_, rfl, fun y hy => ?_, fun e he => ?_⟩
  · rw [lane_beaten]
    refine congrArg (fun l => BitVec.ofNat 32 (accGroup _ l)) (List.map_congr_left fun q _ => congrArg (Prod.mk · _) ?_)
    cases ty with
    | bf16 => exact congrArg _ (elem_sixteen bs _)
    | e4m3 => exact congrArg _ (elem_eight bs _)
    | e5m2 => exact congrArg _ (elem_eight bs _)
    | b4 => exact congrArg (fun c => b4Value _ c false (.ofNat 1)) (elem_four bs _)
  · cases ty with
    | b4 => exact absurd rfl hty
    | bf16 | e4m3 | e5m2 => rfl
  · rintro h hv hb rfl hs
    exact beat_short_scales a h hv hb hs
  · rw [State.beats, hy]
  · rw [State.beats, he]

/-! ### The streams (14 R295, R297, R298) -/

section
variable {s : State} {j : BankJob}

/-- An accumulator set gets the tag f32 (14 R295). -/
def tagged (y : Engine) (a : BitVec 2) : Engine := { y with acc := y.acc.set a.toNat { y.acc[a.toNat] with tag := .f32 } }

/-- The engine has passed so many cycles on a command and goes on to the next word. -/
def advanced (y : Engine) (ptr n : Nat) : Engine := { y with ptr := ptr + 1, cycles := y.cycles + n }

variable {a sg : BitVec 2} {g : BitVec 4} {ty : BTy}

theorem mac_ok {n : Nat} {x y : Engine} (h : s.beats a sg g ty n x = .ok y) :
    s.mac a sg g ty n x = s.withEng (advanced (tagged y a) s.eng.ptr n) := by
  rw [State.mac, h]
  rfl

theorem mac_error {n e : Nat} {x : Engine} (h : s.beats a sg g ty n x = .error e) : s.mac a sg g ty n x = s.engineEnd s.curEng e := by
  rw [State.mac, h]
  rfl

/-- Bytes that BLDV loads. -/
def bldvLen (n : BitVec 10) : Nat := 128 * (n.toNat + 1)

theorem exec_bldv_within {n : BitVec 10} (hv : (s.eng.reg g).toNat % 128 = 0) (hb : (s.eng.reg g).toNat + bldvLen n ≤ 16384)
    (hl : (s.eng.sg[sg.toNat]).pos + bldvLen n ≤ (s.eng.sg[sg.toNat]).len) : exec (.bldv g sg n) s = .next
      (match s.engInput ((s.eng.sg[sg.toNat]).base + (s.eng.sg[sg.toNat]).pos) (bldvLen n) with
      | .error e => s.engineEnd s.curEng e
      | .ok bs => s.engStep (n.toNat + 1) fun x =>
          { (x.setSeg sg { s.eng.sg[sg.toNat] with pos := (s.eng.sg[sg.toNat]).pos + bldvLen n }).setReg g
            (x.reg g + BitVec.ofNat 32 (bldvLen n)) with vbuf := x.vbuf.put (s.eng.reg g).toNat bs }) := by
  unfold bldvLen at *
  show execBldv g sg n s = _
  rw [execBldv, if_neg (by omega), if_neg (by omega)]
  rfl

theorem exec_bldv_outside {n : BitVec 10} (h : (s.eng.reg g).toNat % 128 ≠ 0 ∨ 16384 < (s.eng.reg g).toNat + bldvLen n) :
    exec (.bldv g sg n) s = .next (s.engineEnd s.curEng 4) := congrArg _ (if_pos h)

theorem exec_bldv_short {n : BitVec 10} (hv : (s.eng.reg g).toNat % 128 = 0) (hb : (s.eng.reg g).toNat + bldvLen n ≤ 16384)
    (hl : (s.eng.sg[sg.toNat]).len < (s.eng.sg[sg.toNat]).pos + bldvLen n) : exec (.bldv g sg n) s = .next (s.engineEnd s.curEng 3) := by
  unfold bldvLen at *
  show execBldv g sg n s = _
  rw [execBldv, if_neg (by omega), if_pos hl]
  rfl

/-- Bytes that BOUT sends. -/
def boutLen (s : State) (a : BitVec 2) (m : BitVec 6) : Nat := (m.toNat + 1) * tagBytes (s.eng.acc[a.toNat]).tag

theorem exec_bout_within {m : BitVec 6} (hj : s.engJob = some j) (hv : (s.eng.reg g).toNat % tagBytes (s.eng.acc[a.toNat]).tag = 0)
    (hl : (s.eng.reg g).toNat + boutLen s a m ≤ j.olen) : exec (.bout a g m) s = .next
      (if s.outHeld j then s
      else (s.send (writeAccesses (.engine s.curEng.val j.id) j.who (Mem.put [] 0 ((s.eng.acc[a.toNat]).out (m.toNat + 1)))
        (j.outPieces j.core s.curEng.val (s.eng.reg g).toNat (boutLen s a m)))).engStep 1 fun x =>
          x.setReg g (x.reg g + BitVec.ofNat 32 (boutLen s a m))) := by
  show execBout a g m s = _
  rw [execBout, hj]
  refine congrArg _ (if_neg ?_)
  rw [not_or, not_not, not_lt]
  exact ⟨hv, hl⟩

theorem exec_bout_outside {m : BitVec 6} (hj : s.engJob = some j) (h : (s.eng.reg g).toNat % tagBytes (s.eng.acc[a.toNat]).tag ≠ 0 ∨
    j.olen < (s.eng.reg g).toNat + boutLen s a m) : exec (.bout a g m) s = .next (s.engineEnd s.curEng 5) := by
  show execBout a g m s = _
  rw [execBout, hj]
  exact congrArg _ (if_pos h)

theorem exec_bsig_waits (hj : s.engJob = some j) (ho : s.outputs s.curEng = true) : exec (.bsig g) s = .next s := by
  show execBsig g s = _
  rw [execBsig, hj]
  exact congrArg _ (if_pos ho)

/-- The addition to sigctr that BSIG sends (14 R298). -/
def signalling (s : State) (j : BankJob) (g : BitVec 4) (ia : Nat) : Access :=
  { owner := .engine s.curEng.val j.id, target := .global ia, op := .amo 0 4 (s.eng.reg g).toNat none, whole := true
    requester := j.who, va := j.args.toNat + 0x34 }

theorem exec_bsig_sends {ia : Nat} (hj : s.engJob = some j) (ho : s.outputs s.curEng = false)
    (h : translate j.wins { w := true } (j.args.toNat + 0x34) = .ok ia) :
    exec (.bsig g) s = .next ((s.send [signalling s j g ia]).engStep 1 id) := by
  show execBsig g s = _
  rw [execBsig, hj]
  refine congrArg _ ((if_neg (by simp [ho])).trans ?_)
  simp only [h]
  rfl

theorem exec_bsig_denied {e : Nat} (hj : s.engJob = some j) (ho : s.outputs s.curEng = false)
    (h : translate j.wins { w := true } (j.args.toNat + 0x34) = .error e) :
    exec (.bsig g) s = .next ((s.logJobViolation j e (j.args.toNat + 0x34)).engineEnd s.curEng 7) := by
  show execBsig g s = _
  rw [execBsig, hj]
  refine congrArg _ ((if_neg (by simp [ho])).trans ?_)
  simp only [h]
  exact congrArg (State.engineEnd _ · 7) (Traffic.logJobViolation s j e _).curEng

end

theorem engineStreams : EngineStreams := by
  intro s a sg g ty n m j y bs ia x cleared tagged v t len size out sig
  have lane : size = tagBytes (x.acc[a.toNat]).tag := by
    show (match (x.acc[a.toNat]).tag with | .f32 => 4 | .bf16 => 2 | .f16 => 2) = _
    cases (x.acc[a.toNat]).tag <;> rfl
  have bytes : out = boutLen s a m := by
    show (m.toNat + 1) * size = _
    rw [lane]
    rfl
  rw [lane, bytes]
  refine ⟨fun h => congrArg _ (mac_ok h), fun h => congrArg _ (mac_ok h), fun e h => congrArg _ (mac_error h),
    fun e h => congrArg _ (mac_error h), fun hv hb hl h => ?_, exec_bldv_outside, exec_bldv_short, fun e hv hb hl h => ?_,
    fun hj hv hl ho => ?_, fun hj hv hl ho => ?_, exec_bout_outside, fun hj ho h => ?_, fun e hj ho h => exec_bsig_denied hj ho h, exec_bsig_waits⟩
  · rw [exec_bldv_within hv hb hl]
    refine congrArg _ ?_
    rw [bldvLen, h]
    rfl
  · rw [exec_bldv_within hv hb hl]
    refine congrArg _ ?_
    rw [bldvLen, h]
  · rw [exec_bout_within hj hv hl, if_neg (by simp [ho])]
    rfl
  · rw [exec_bout_within hj hv hl, if_pos ho]
  · rw [exec_bsig_sends hj ho h]
    rfl

/-- Settles O38: each stream is its beats or one load, each output its accesses. -/
theorem engineStreamsAndOutputs : Obligations.EngineStreamsAndOutputs := ⟨engineStreams, beatsAccumulate⟩

end Sys2Proof.Proofs
end

section
/-! PROOFS. The power manager's registers (22 R385, R386, R390, R391): each write as its cases, the banks and ways that a gate or a wake
changes, and O46. -/

namespace Sys2Proof.Proofs

open Sys2Proof Sys2Proof.Machine Sys2Proof.Laws

/-! ### Fields of a register -/

theorem bitsOf_zero (x n : Nat) : bitsOf x 0 n = x % 2 ^ n := by rw [bitsOf, pow_zero, Nat.div_one]

theorem ofNat_bitsOf (x lo n : Nat) : BitVec.ofNat n (bitsOf x lo n) = BitVec.ofNat n (x / 2 ^ lo) :=
  BitVec.eq_of_toNat_eq (by simp [bitsOf])

/-- A mask with one bit made zero. -/
theorem ofNat_withBits_zero {n : Nat} (x : BitVec n) (b : Nat) :
    BitVec.ofNat n (withBits x.toNat b 1 0) = x &&& ~~~(BitVec.ofNat n (2 ^ b)) := by
  refine BitVec.eq_of_getLsbD_eq fun i hi => ?_
  have apart : (b ≤ i ∧ i < b + 1) ↔ b = i := by omega
  simp only [BitVec.getLsbD_ofNat, testBit_withBits, BitVec.getLsbD_and, BitVec.getLsbD_not, Nat.testBit_two_pow, hi, apart, decide_true,
    Bool.true_and]
  by_cases h : b = i <;> simp [h, BitVec.testBit_toNat]

section
variable {s : State} {v : Word}

/-! ### PW_CAP (22 R386) -/

theorem writeCap_kept (h : 300 ≤ v.toNat % 2 ^ 16) (fromCore : Bool) : s.writeCap v fromCore = ({ s with power := { s.power with
    cap := BitVec.ofNat 16 (v.toNat % 2 ^ 16), shedCap := s.power.shedTo (capDies (v.toNat % 2 ^ 16)) } }.applyShed).refloor :=
  if_neg (Nat.not_lt.2 h)

theorem writeCap_refused (h : v.toNat % 2 ^ 16 < 300) : s.writeCap v false =
    ({ s with power := { s.power with refusal := 1 } }.logModule (v.toNat % 2 ^ 16) 0 7 0).warn 2 := if_pos h

theorem capDies_eq (cap : Nat) : capDies cap = if cap < 420 then (434 - cap) / 15 else 0 := by
  unfold capDies ceilDiv
  split
  · congr 1
    omega
  · rfl

/-! ### PW_GIVE (22 R385) -/

/-- The module that a give goes to. -/
def givenTo (s : State) (v : Word) : Nat := s.peerModule (BitVec.ofNat 4 (v.toNat / 2 ^ 20)) (BitVec.ofNat 4 (v.toNat / 2 ^ 24))

/-- A give goes to a trained module of this row or of this column. -/
def GivesDirectly (s : State) (v : Word) : Prop :=
  ((givenTo s v / 16 = s.modid.toNat / 16 ∧ givenTo s v % 16 ≠ s.modid.toNat % 16) ∨
    (givenTo s v / 16 ≠ s.modid.toNat / 16 ∧ givenTo s v % 16 = s.modid.toNat % 16)) ∧ s.isTrained (givenTo s v) = true

theorem givesDirectly_iff : GivesDirectly s v ↔
    (((givenTo s v / 16 == s.myRow) != (givenTo s v % 16 == s.myCol)) && s.isTrained (givenTo s v)) = true := by
  rw [Bool.and_eq_true, bne_iff_ne, ne_eq, Bool.eq_iff_iff, beq_iff_eq, beq_iff_eq]
  unfold GivesDirectly State.myRow State.myCol
  tauto

/-- The tokens that a give takes from: those of the next period or of this one. -/
def givenFrom (s : State) (v : Word) : BitVec 16 := if v.getLsbD 16 then s.power.tokNext else s.power.tokNow

/-- PW_GIVE refuses, or moves the tokens of the period that it names. -/
theorem writeGive_eq (s : State) (v : Word) [Decidable (GivesDirectly s v)] : s.writeGive v =
    if ¬GivesDirectly s v ∨ v.toNat % 2 ^ 16 = 0 ∨ (givenFrom s v).toNat < v.toNat % 2 ^ 16 + 420 then
      { s with power := { s.power with refusal := 2 } }
    else if v.getLsbD 16 then { s with power := { s.power with
      tokNext := BitVec.ofNat 16 ((givenFrom s v).toNat - v.toNat % 2 ^ 16), netNext := s.power.netNext - (v.toNat % 2 ^ 16 : Nat) } }
    else { s with power := { s.power with
      tokNow := BitVec.ofNat 16 ((givenFrom s v).toNat - v.toNat % 2 ^ 16), netNow := s.power.netNow - (v.toNat % 2 ^ 16 : Nat) } }.refloor := by
  have held : (if v.getLsbD 16 then s.power.tokNext.toNat else s.power.tokNow.toNat) = (givenFrom s v).toNat := (apply_ite ..).symm
  simp only [State.writeGive, bitsOf_zero, ofNat_bitsOf, held]
  refine if_congr ?_ rfl rfl
  rw [Bool.or_eq_true, Bool.or_eq_true, Bool.not_eq_true', ← Bool.not_eq_true, beq_iff_eq, decide_eq_true_iff, or_assoc]
  exact or_congr_left (not_congr givesDirectly_iff.symm)

theorem writeGive_refused (h : ¬GivesDirectly s v ∨ v.toNat % 2 ^ 16 = 0 ∨ (givenFrom s v).toNat < v.toNat % 2 ^ 16 + 420) :
    s.writeGive v = { s with power := { s.power with refusal := 2 } } := by
  classical
  rw [writeGive_eq, if_pos h]

theorem not_refused (hd : GivesDirectly s v) (hn : 0 < v.toNat % 2 ^ 16) (h : v.toNat % 2 ^ 16 + 420 ≤ (givenFrom s v).toNat) :
    ¬(¬GivesDirectly s v ∨ v.toNat % 2 ^ 16 = 0 ∨ (givenFrom s v).toNat < v.toNat % 2 ^ 16 + 420) := by
  rintro (h' | h' | h')
  · exact h' hd
  · omega
  · omega

theorem writeGive_now (hd : GivesDirectly s v) (hn : 0 < v.toNat % 2 ^ 16) (hv : v.getLsbD 16 = false)
    (h : v.toNat % 2 ^ 16 + 420 ≤ s.power.tokNow.toNat) : s.writeGive v = { s with power := { s.power with
      tokNow := BitVec.ofNat 16 (s.power.tokNow.toNat - v.toNat % 2 ^ 16), netNow := s.power.netNow - (v.toNat % 2 ^ 16 : Nat) } }.refloor := by
  classical
  have held : givenFrom s v = s.power.tokNow := if_neg (by rw [hv]; exact Bool.false_ne_true)
  rw [writeGive_eq, if_neg (not_refused hd hn (held ▸ h)), if_neg (by rw [hv]; exact Bool.false_ne_true), held]

theorem writeGive_next (hd : GivesDirectly s v) (hn : 0 < v.toNat % 2 ^ 16) (hv : v.getLsbD 16 = true)
    (h : v.toNat % 2 ^ 16 + 420 ≤ s.power.tokNext.toNat) : s.writeGive v = { s with power := { s.power with
      tokNext := BitVec.ofNat 16 (s.power.tokNext.toNat - v.toNat % 2 ^ 16), netNext := s.power.netNext - (v.toNat % 2 ^ 16 : Nat) } } := by
  classical
  have held : givenFrom s v = s.power.tokNext := if_pos hv
  rw [writeGive_eq, if_neg (not_refused hd hn (held ▸ h)), if_pos hv, held]

/-! ### PW_SHED and PW_BO (22 R391) -/

/-- The dies in the order that a value of PW_SHED gives. -/
def diesNamed (v : Word) : List Nat := (List.range 8).map fun j => v.toNat / 2 ^ (3 * j) % 8

theorem order_setWidth (p : Power) (v : Word) : Power.order { p with shedOrder := v.setWidth 24 } = diesNamed v := by
  refine List.map_congr_left fun j hj => ?_
  have hj := List.mem_range.1 hj
  simp only [bitsOf, BitVec.toNat_setWidth]
  interval_cases j <;> omega

theorem writeShed_permutation (h : ∀ d, d < 8 → d ∈ diesNamed v) :
    s.writeShed v = { s with power := { s.power with shedOrder := v.setWidth 24 } } := by
  refine if_pos ?_
  rw [order_setWidth]
  simpa [List.all_eq_true] using h

theorem writeShed_refused (h : ¬∀ d, d < 8 → d ∈ diesNamed v) : s.writeShed v = { s with power := { s.power with refusal := 3 } } := by
  refine if_neg ?_
  rw [order_setWidth]
  simpa [List.all_eq_true] using h

theorem writeBo_ordered (h : v.toNat / 2 ^ 8 % 2 ^ 8 < v.toNat % 2 ^ 8) (h' : v.toNat % 2 ^ 8 < v.toNat / 2 ^ 16 % 2 ^ 8) :
    s.writeBo v = { s with power := { s.power with
      boShed := BitVec.ofNat 8 (v.toNat % 2 ^ 8), boAll := BitVec.ofNat 8 (v.toNat / 2 ^ 8 % 2 ^ 8)
      boRestore := BitVec.ofNat 8 (v.toNat / 2 ^ 16 % 2 ^ 8) } } := by
  simp only [State.writeBo, bitsOf_zero]
  exact if_pos ⟨h, h'⟩

theorem writeBo_refused (h : v.toNat % 2 ^ 8 ≤ v.toNat / 2 ^ 8 % 2 ^ 8 ∨ v.toNat / 2 ^ 16 % 2 ^ 8 ≤ v.toNat % 2 ^ 8) :
    s.writeBo v = { s with power := { s.power with refusal := 3 } } := by
  simp only [State.writeBo, bitsOf_zero]
  refine if_neg fun h' => ?_
  simp only [bitsOf] at h'
  omega

/-! ### Gates and wakes (22 R390) -/

/-- The banks that a write of PW_LGATE gates anew. -/
def banksLost (s : State) (v : Word) : List Nat :=
  (List.range 32).filter fun b => (v.setWidth 32).getLsbD b && !s.me.loc.gated.getLsbD b

/-- Local memory without the contents of some banks. -/
def withoutBanks (l : List Nat) (m : Mem) : Mem := l.foldl (fun m b => Mem.clear m (b * 0x8000) 0x8000) m

theorem get_withoutBanks (l : List Nat) (m : Mem) (x : Nat) : (withoutBanks l m).get x = if x / 2 ^ 15 ∈ l then 0 else m.get x := by
  induction l generalizing m with
  | nil => simp [withoutBanks]
  | cons b l ih =>
    rw [withoutBanks, List.foldl_cons, ← withoutBanks, ih, mem_get_clear_slot _ (by decide)]
    by_cases hl : x / 2 ^ 15 ∈ l
    · rw [if_pos hl, if_pos (List.mem_cons_of_mem b hl)]
    · rw [if_neg hl]
      exact if_congr (by rw [List.mem_cons, or_iff_left hl]; exact eq_comm) rfl rfl

theorem mem_banksLost {x : Nat} (h : x < 2 ^ 20) :
    x / 2 ^ 15 ∈ banksLost s v ↔ (v.getLsbD (x / 2 ^ 15) && !s.me.loc.gated.getLsbD (x / 2 ^ 15)) = true := by
  have bank : x / 2 ^ 15 < 32 := by omega
  rw [banksLost, List.mem_filter, List.mem_range, BitVec.getLsbD_setWidth, decide_eq_true bank, Bool.true_and]
  exact and_iff_right bank

theorem writeLgate_eq (s : State) (v : Word) :
    let l := s.me.loc
    let woken := l.gated &&& ~~~(v.setWidth 32)
    s.writeLgate s.cur v = s.withMe { s.me with loc := { l with
      lmem := withoutBanks (banksLost s v) l.lmem, gated := v.setWidth 32, waking := (l.waking &&& ~~~(v.setWidth 32)) ||| woken
      wakeAt := Vector.ofFn fun k : Fin 32 => if woken.getLsbD k.val then s.now + usTicks else l.wakeAt[k] } } := rfl

theorem exec_localBankWakeDone (s : State) (bank : Fin 32) : exec (.localBankWakeDone bank) s =
    .next (if s.me.loc.waking.getLsbD bank.val = true ∧ s.me.loc.wakeAt[bank] ≤ s.now then s.withMe { s.me with loc := { s.me.loc with
        waking := s.me.loc.waking &&& ~~~(BitVec.ofNat 32 (2 ^ bank.val)), lmem := s.me.loc.lmem.clear (2 ^ 15 * bank.val) (2 ^ 15) } }
      else s) := by
  rw [← ofNat_withBits_zero, Nat.mul_comm]
  refine congrArg _ (if_congr ?_ rfl rfl)
  rw [Bool.and_eq_true, decide_eq_true_iff]
  rfl

theorem exec_l2WayWakeDone (s : State) (b : Fin 4) (way : Fin 16) : exec (.l2WayWakeDone b way) s =
    .next (if (s.power.l2waking[b.val]).getLsbD way.val = true ∧ s.power.l2wakeAt[b.val][way] ≤ s.now then
        { s with power := { s.power with
          l2waking := s.power.l2waking.set b.val (s.power.l2waking[b.val] &&& ~~~(BitVec.ofNat 16 (2 ^ way.val))) } }
      else s) := by
  rw [← ofNat_withBits_zero]
  refine congrArg _ (if_congr ?_ rfl rfl)
  rw [Bool.and_eq_true, decide_eq_true_iff]

end

/-- Settles O46: each register's cases, with the supervisor complex running, and the wakes. -/
theorem powerRegistersAct : Obligations.PowerRegistersAct := by
  intro s v b bank way p runs cap
  refine ⟨fun hr h => ?_, fun hr h => ?_, capDies_eq cap, ⟨fun hr hd hn hv h => ?_, fun hr hd hn hv h => ?_, fun hr h => ?_⟩,
    ⟨fun hr h => ?_, fun hr h => ?_⟩, ⟨fun hr h h' => ?_, fun hr h => ?_⟩, fun hr _ => ⟨withoutBanks (banksLost s v) s.me.loc.lmem, ?_,
    fun x hx => ?_⟩, fun hr => ?_, fun x => List.mem_filter, fun hw ht => ?_, fun h => ?_, fun hw ht => ?_, fun h => ?_, fun hr => ?_⟩
  · exact congrArg _ ((supervise_running _ hr).trans (writeCap_kept h false))
  · exact congrArg _ ((supervise_running _ hr).trans (writeCap_refused h))
  · exact congrArg _ ((supervise_running _ hr).trans (writeGive_now hd hn hv h))
  · exact congrArg _ ((supervise_running _ hr).trans (writeGive_next hd hn hv h))
  · exact congrArg _ ((supervise_running _ hr).trans (writeGive_refused h))
  · exact congrArg _ ((supervise_running _ hr).trans (writeShed_permutation h))
  · exact congrArg _ ((supervise_running _ hr).trans (writeShed_refused h))
  · exact congrArg _ ((supervise_running _ hr).trans (writeBo_ordered h h'))
  · exact congrArg _ ((supervise_running _ hr).trans (writeBo_refused h))
  · exact congrArg _ ((supervise_running _ hr).trans (writeLgate_eq s v))
  · rw [get_withoutBanks]
    exact if_congr (mem_banksLost hx) rfl rfl
  · exact congrArg _ (supervise_running _ hr)
  · rw [exec_localBankWakeDone, if_pos ⟨hw, ht⟩]
  · rw [exec_localBankWakeDone, if_neg fun ⟨hw, ht⟩ => h.elim (fun h => Bool.false_ne_true (h.symm.trans hw)) (Nat.not_lt.2 ht)]
  · rw [exec_l2WayWakeDone, if_pos ⟨hw, ht⟩]
  · rw [exec_l2WayWakeDone, if_neg fun ⟨hw, ht⟩ => h.elim (fun h => Bool.false_ne_true (h.symm.trans hw)) (Nat.not_lt.2 ht)]
  · have stopped : s.supStopped = true := by simpa [runs] using hr
    have unchanged : ∀ f, s.supervise f = s := fun f => supervise_stopped f stopped
    exact ⟨congrArg _ (unchanged _), congrArg _ (unchanged _), congrArg _ (unchanged _), congrArg _ (unchanged _), congrArg _ (unchanged _),
      congrArg _ (unchanged _)⟩

end Sys2Proof.Proofs
end

section
/-! PROOFS. Grant periods, tokens and the bus (22 R383 to R385, R387, R389, R391; logs 8, 70): when each event is due, and O47. -/

namespace Sys2Proof.Proofs

open Sys2Proof Sys2Proof.Machine Sys2Proof.Laws

/-! ### Periods and tokens (22 R383 to R385) -/

section
variable {s : State} {n : BitVec 16} {period : BitVec 24}

/-- The periods in a row that the draw has been over the budget, once this one has ended with a draw (22 R384). -/
def periodsOver (p : Power) (n : BitVec 16) : Nat := if p.budget < n.toNat then p.overPeriods + 1 else 0

/-- The next grant period has begun (22 R383). -/
def periodBegun (s : State) (n : BitVec 16) : State :=
  { s with
    choices := s.choices + 1
    power := { s.power with
      draw := n, overPeriods := periodsOver s.power n, tokNow := s.power.tokNext, tokNext := if s.power.coord then 0 else 2600
      period := s.power.period + 1, netNow := s.power.netNext, netNext := 0, periodAt := s.now } }

theorem exec_grantPeriodEnd (s : State) (n : BitVec 16) : exec (.grantPeriodEnd n) s =
    .next (if s.now < s.power.periodAt + 1000 * usTicks then s
      else if 2 ≤ periodsOver s.power n ∧ s.hib.state = .run then (periodBegun s n).refloor.cutDraw s.tasks.length n.toNat s.partDraws
      else (periodBegun s n).refloor) := rfl

/-- Tokens that come to what is held. -/
theorem heldTokens_natCast (a b : Nat) : heldTokens a b = BitVec.ofNat 16 (min 65535 (a + b)) := by
  rw [heldTokens, ← Int.natCast_add, Int.toNat_natCast]

theorem exec_tokenArrival (s : State) (n : BitVec 16) (period : BitVec 24) : exec (.tokenArrival n period) s =
    .next (if period = s.power.period then { s with power := { s.power with
        tokNow := BitVec.ofNat 16 (min 65535 (s.power.tokNow.toNat + n.toNat)), netNow := s.power.netNow + n.toNat } }.refloor
      else if period = s.power.period + 1 then { s with power := { s.power with
        tokNext := BitVec.ofNat 16 (min 65535 (s.power.tokNext.toNat + n.toNat)), netNext := s.power.netNext + n.toNat } }
      else s) := by
  rw [← heldTokens_natCast, ← heldTokens_natCast]
  rfl

theorem exec_coordinatorTokens (s : State) (n : BitVec 16) (period : BitVec 24) : exec (.coordinatorTokens n period) s =
    .next (if s.power.coord = false then s
      else if period = s.power.period then { s with power := { s.power with tokNow := heldTokens n.toNat s.power.netNow } }.refloor
      else if period = s.power.period + 1 then { s with power := { s.power with tokNext := heldTokens n.toNat s.power.netNext } }
      else s) := congrArg _ (if_congr (Bool.not_eq_true' _).to_iff rfl rfl)

/-- The next period is another one. -/
theorem next_period_ne (p : BitVec 24) : p + 1 ≠ p := by bv_omega

end

/-! ### The bus (22 R389) -/

/-- What a condition that has held since a tick causes is due. -/
def BusDue (now : Nat) (since : Option Nat) (hold last gap : Nat) : Prop :=
  ∃ t, since = some t ∧ t + hold ≤ now ∧ (last < t ∨ last + gap ≤ now)

theorem actDue_eq_true {now : Nat} {since : Option Nat} {hold last gap : Nat} :
    actDue now since hold last gap = true ↔ BusDue now since hold last gap := by
  cases since with
  | none => simp [actDue, BusDue]
  | some t => simp [actDue, BusDue]

theorem readBus_eq (s : State) (volts : BitVec 16) : s.readBus volts = { s with power := { s.power with
    volts := volts
    lowSince := if volts.toNat < 4000 + 10 * s.power.boShed.toNat then some (s.power.lowSince.getD s.now) else none
    highSince := if 4000 + 10 * s.power.boRestore.toNat < volts.toNat then some (s.power.highSince.getD s.now) else none } } := by
  have held : ∀ (c : Prop) [Decidable c] (x : Option Nat), (if decide c = true then x else none) = if c then x else none :=
    fun c _ x => if_congr decide_eq_true_iff rfl rfl
  rw [← held (volts.toNat < 4000 + 10 * s.power.boShed.toNat), ← held (4000 + 10 * s.power.boRestore.toNat < volts.toNat)]
  rfl

section
variable {s : State} {volts : BitVec 16} {d : Nat}

theorem exec_brownoutShed_die {p : Power} (hp : p = (s.readBus volts).power) (h : BusDue s.now p.lowSince (20 * usTicks) p.lastShed (50 * usTicks))
    (hd : (p.order.find? fun d => !s.dieShed d) = some d) : exec (.brownoutShed volts) s = .next
      ({ s with power := { p with shedBo := setDie p.shedBo d true, lastShed := s.now } }.applyShed) := by
  subst hp
  show execBrownoutShed volts s = _
  rw [execBrownoutShed]
  refine congrArg _ ((if_pos (actDue_eq_true.2 h)).trans ?_)
  have found : (s.readBus volts).power.order.find? (fun d => !(s.readBus volts).dieShed d) = some d := hd
  rw [found]
  rfl

theorem exec_brownoutShed_none {p : Power} (hp : p = (s.readBus volts).power)
    (h : ¬BusDue s.now p.lowSince (20 * usTicks) p.lastShed (50 * usTicks) ∨ (p.order.find? fun d => !s.dieShed d) = none) :
    exec (.brownoutShed volts) s = .next (s.readBus volts) := by
  subst hp
  show execBrownoutShed volts s = _
  rw [execBrownoutShed]
  refine congrArg _ (ite_eq_right_iff.2 fun due => ?_)
  have found : (s.readBus volts).power.order.find? (fun d => !(s.readBus volts).dieShed d) = none :=
    h.resolve_left (not_not.2 (actDue_eq_true.1 due))
  rw [found]

/-- The end of a brown-out lets a die back: the bus has been high, and no warning has been given. -/
def RestoreDue (s : State) (p : Power) : Prop :=
  s.hib.state.leaving = false ∧ BusDue s.now p.highSince (1000 * usTicks) p.lastRestore (200 * usTicks)

theorem restoreDue_iff {p : Power} : RestoreDue s p ↔
    (!s.hib.state.leaving && actDue s.now p.highSince (1000 * usTicks) p.lastRestore (200 * usTicks)) = true := by
  rw [Bool.and_eq_true, Bool.not_eq_true', actDue_eq_true]
  rfl

theorem exec_brownoutRestore_die {p : Power} (hp : p = (s.readBus volts).power) (h : RestoreDue s p)
    (hd : (p.order.reverse.find? fun d => p.shedBo.getLsbD d) = some d) : exec (.brownoutRestore volts) s = .next
      ({ s with power := { p with shedBo := setDie p.shedBo d false, lastRestore := s.now } }.applyShed) := by
  subst hp
  show execBrownoutRestore volts s = _
  rw [execBrownoutRestore]
  refine congrArg _ ((if_pos (restoreDue_iff.1 h)).trans ?_)
  rw [hd]
  rfl

theorem exec_brownoutRestore_none {p : Power} (hp : p = (s.readBus volts).power)
    (h : ¬RestoreDue s p ∨ (p.order.reverse.find? fun d => p.shedBo.getLsbD d) = none) :
    exec (.brownoutRestore volts) s = .next (s.readBus volts) := by
  subst hp
  show execBrownoutRestore volts s = _
  rw [execBrownoutRestore]
  refine congrArg _ (ite_eq_right_iff.2 fun due => ?_)
  rw [h.resolve_left (not_not.2 (restoreDue_iff.2 due))]

end

/-- Settles O47: each event when it is due and when it is not. -/
theorem powerEventsAct : Obligations.PowerEventsAct := by
  intro s n volts period d p lit above t q u due low high
  have bus : u = s.readBus volts := (readBus_eq s volts).symm
  have reading : q = (s.readBus volts).power := congrArg State.power bus
  refine ⟨fun h hc => ?_, fun h ho hh => ?_, fun h => ?_, fun h => ?_, fun h => ?_, fun h h' => ⟨?_, ?_⟩, fun h => ?_, fun h h' => ?_,
    fun h h' => ?_, fun h hd => ?_, fun h => ?_, fun h => ?_, fun h => ?_, fun h hd => ?_, fun h => ?_, fun h => ?_, fun h => ?_⟩
  · rw [exec_grantPeriodEnd, if_neg (Nat.not_lt.2 h), if_neg fun ⟨ho, hh⟩ => hc.elim (Nat.not_lt.2 ho) fun hn => hn hh]
    rfl
  · rw [exec_grantPeriodEnd, if_neg (Nat.not_lt.2 h), if_pos ⟨ho, hh⟩]
    rfl
  · rw [exec_grantPeriodEnd, if_pos h]
  · rw [exec_tokenArrival, if_pos h]
  · rw [exec_tokenArrival, if_neg fun h0 => next_period_ne p.period (h.symm.trans h0), if_pos h]
  · rw [exec_tokenArrival, if_neg h, if_neg h']
  · rw [exec_coordinatorTokens, if_neg h, if_neg h', ite_self]
  · rw [exec_coordinatorTokens, if_pos h]
  · rw [exec_coordinatorTokens, if_neg fun h0 => Bool.false_ne_true (h0.symm.trans h), if_pos h']
  · rw [exec_coordinatorTokens, if_neg fun h0 => Bool.false_ne_true (h0.symm.trans h),
      if_neg fun h0 => next_period_ne p.period (h'.symm.trans h0), if_pos h']
  · exact exec_brownoutShed_die reading h hd
  · rw [exec_brownoutShed_none reading h, bus]
  · have all : exec (.brownoutAllShed volts) s = .next ({ s with power := { (s.readBus volts).power with
        shedBo := 0xFF, lastShed := s.now } }.applyShed) := congrArg _ (if_pos h)
    rw [all, reading]
  · rw [bus]
    exact congrArg _ (if_neg (Nat.not_lt.2 h))
  · exact exec_brownoutRestore_die reading h hd
  · rw [exec_brownoutRestore_none reading h, bus]
  · rw [bus]
    exact congrArg _ (if_pos h)
  · rw [bus]
    exact congrArg _ (if_neg (Nat.not_lt.2 h))

end Sys2Proof.Proofs
end

section
/-! PROOFS. Power off and on, boot, recovery, attestation and partitions (23 R395; 25 R413 to R419; logs 45, 47): when each event acts and
what it leaves, and O49. -/

namespace Sys2Proof.Proofs

open Sys2Proof Sys2Proof.Machine Sys2Proof.Laws

section
variable {s : State} {v : Word}

/-! ### Power off (23 R395; log 45) -/

theorem exec_powerOff_acts (input : Bool) (hh : s.hib.state = .off) (hb : s.boot.step = .done ∨ s.boot.step = .training) :
    exec (.powerOff input) s = .next { s.unpowered with
      boot := { s.unpowered.boot with offSince := if input then s.now else s.now - restartTicks } } := by
  refine congrArg _ (if_pos ?_)
  obtain hb | hb := hb <;> simp [State.powered, hh, hb]

theorem exec_powerOff_idle (input : Bool) (h : s.hib.state ≠ .off ∨ s.boot.step = .off ∨ s.boot.step = .recovery) :
    exec (.powerOff input) s = .next s := by
  refine congrArg _ (if_neg ?_)
  obtain h | h | h := h <;> simp [State.powered, h]

/-! ### Power on (25 R413) -/

/-- The bus has held long enough, and after a failed self-test it has come back since (25 R413). -/
theorem mayPowerOn_of_held {since : Nat} (hs : s.power.highSince = some since) : s.mayPowerOn = true ↔ s.boot.step = .off ∧
    since + 1000 * usTicks ≤ s.now ∧ s.boot.offSince + restartTicks ≤ s.now ∧ (s.boot.fault = false ∨ s.boot.offSince < since) := by
  simp [State.mayPowerOn, actDue, hs, and_assoc]

theorem mayPowerOn_of_low (hs : s.power.highSince = none) : s.mayPowerOn = false := by
  simp [State.mayPowerOn, actDue, hs]

theorem exec_powerOn_boots {volts : BitVec 16} (h : (s.readBus volts).mayPowerOn = true) : exec (.powerOn volts) s =
    .next ({ s.readBus volts with
      choices := s.choices + 1
      hib := { s.hib with state := .run, reserve := min 54000000000000 (Config.freeNat s.choices) } }.bootUp) := congrArg _ (if_pos h)

theorem exec_powerOn_waits {volts : BitVec 16} (h : ¬(s.readBus volts).mayPowerOn = true) :
    exec (.powerOn volts) s = .next (s.readBus volts) := congrArg _ (if_neg h)

/-! ### Boot (25 R413, R415) -/

/-- The self-test has failed. -/
def bootDark (s : State) : State :=
  { s with choices := s.choices + 2, hib := { s.hib with state := .off }, boot := { s.boot with step := .off, fault := true, offSince := s.now } }

/-- An image of a kind is missing, or LPDDR5X does not train. -/
def bootPoor (s : State) : State := { s with choices := s.choices + 2, boot := { s.boot with fault := false, step := .recovery } }

/-- Firmware stands at its load address, and the fibres train. -/
def bootTrains (s : State) (x y : List Byte) : State :=
  { s with choices := s.choices + 2, boot := { s.boot with
    fault := false, step := .training, fibres := 0, memory := Mem.put [] (imageField x 0x10 8 % 2 ^ 37) (imagePayload x)
    digests := #v[BitVec.ofNat 384 (imageField x 0x18 48), BitVec.ofNat 384 (imageField y 0x18 48)]
    secvers := #v[BitVec.ofNat 16 (imageField x 6 2), BitVec.ofNat 16 (imageField y 6 2)] } }

theorem bootUp_cases (s : State) : s.bootUp = bootDark s ∨ s.bootUp = bootPoor s ∨
    ∃ x y, s.bootImage 1 = some x ∧ s.bootImage 2 = some y ∧ s.bootUp = bootTrains s x y := by
  have images : ∀ k, State.bootImage { s with choices := s.choices + 2, boot := { s.boot with fault := false } } k = s.bootImage k := fun _ => rfl
  cases tested : Config.freeBool s.choices with
  | false => exact .inl (if_pos (by rw [tested]; rfl))
  | true =>
    refine .inr ?_
    rw [State.bootUp, tested]
    simp only [Bool.not_true, Bool.false_eq_true, if_false, images]
    split
    next x y hx hy _ => exact .inr ⟨x, y, hx, hy, rfl⟩
    · exact .inl rfl

theorem exec_flashImageWrite_writes {kind : BitVec 16} {image : List Byte} (slot : Bool) (hb : s.boot.step = .recovery)
    (hk : kind = 1 ∨ kind = 2) (hi : s.imageOk kind.toNat image = true) : exec (.flashImageWrite kind slot image) s =
      .next ({ s with boot := { s.boot with flash := s.boot.flash.set (flashSlot kind.toNat slot).val (some image) } }.bootUp) := by
  refine congrArg _ (if_pos ?_)
  rw [hi, hb]
  obtain rfl | rfl := hk <;> rfl

theorem exec_flashImageWrite_idle {kind : BitVec 16} {image : List Byte} (slot : Bool)
    (h : s.boot.step ≠ .recovery ∨ s.imageOk kind.toNat image = false) : exec (.flashImageWrite kind slot image) s = .next s := by
  refine congrArg _ (if_neg ?_)
  obtain h | h := h <;> simp [h]

/-! ### Attestation (25 R417) -/

theorem startAttest_starts (hv : v.getLsbD 0 = true) (ha : s.boot.attStat ≠ 1) :
    s.startAttest v = { s with boot := { s.boot with attStat := if s.attestOk then 1 else 3 } } := by
  refine if_neg ?_
  rw [hv, beq_false_of_ne ha]
  exact Bool.false_ne_true

theorem startAttest_idle (h : v.getLsbD 0 = false ∨ s.boot.attStat = 1) : s.startAttest v = s := by
  refine if_pos ?_
  obtain h | h := h
  · rw [h]
    rfl
  · rw [h]
    exact Bool.or_true _

theorem exec_attestationDone_misplaced (h : s.boot.attStat = 1) (ha : s.attestOk = false) :
    exec .attestationDone s = .next { s with boot := { s.boot with attStat := 3 } } :=
  congrArg _ ((if_neg (by rw [h]; decide)).trans (if_pos (by rw [ha]; rfl)))

theorem exec_attestationDone_writes {t u : State} {nonce : List Byte} (h : s.boot.attStat = 1) (ha : s.attestOk = true)
    (hf : s.fetchIa s.boot.attIn.toNat 48 = (t, some nonce)) (hw : t.writeIa t.boot.attOut.toNat (t.report nonce) = some u) :
    exec .attestationDone s = .next { u with choices := u.choices + 1, boot := { u.boot with attStat := 2 } } := by
  refine congrArg _ ((if_neg (by rw [h]; decide)).trans ((if_neg (by rw [ha]; decide)).trans ?_))
  simp only [hf, hw]

theorem exec_attestationDone_idle (h : s.boot.attStat ≠ 1) : exec .attestationDone s = .next s := congrArg _ (if_pos (by simpa using h))

/-! ### Partitions (25 R419; log 47) -/

theorem writePartCtl_kept {p : Fin 8} (h : s.partCode p (v.setWidth 32 &&& 0xFFFFFF01) = none) :
    s.writePartCtl p v = { s with parts := s.parts.set p.val { s.parts[p] with ctl := v.setWidth 32 &&& 0xFFFFFF01 } } := by
  simp only [State.writePartCtl, partMask, h]

theorem writePartCtl_refused {p : Fin 8} {code : Nat} (h : s.partCode p (v.setWidth 32 &&& 0xFFFFFF01) = some code) :
    s.writePartCtl p v = { s with parts := s.parts.set p.val { s.parts[p] with refusal := BitVec.ofNat 4 code } } := by
  simp only [State.writePartCtl, partMask, h]

end

/-- Settles O49: each event when it acts and when it does not. -/
theorem powerOffBootAndPartitions : Obligations.PowerOffBootAndPartitions := by
  intro s input volts kind slot image v p since b u runs
  refine ⟨fun hh hb => ⟨_, exec_powerOff_acts input hh hb, ?_⟩, exec_powerOff_idle input, fun hb ho ht hs hf => ⟨_, min_le_left _ _,
    exec_powerOn_boots ((mayPowerOn_of_held hs).2 ⟨hb, ht, ho, hf⟩)⟩, fun h => exec_powerOn_waits fun may => ?_, bootUp_cases s,
    exec_flashImageWrite_writes slot, exec_flashImageWrite_idle slot, fun hr hv ha => ?_, fun h => ?_, exec_attestationDone_misplaced,
    fun t u nonce => exec_attestationDone_writes, exec_attestationDone_idle, fun hr hb h => ?_, fun code hr hb h => ?_, fun h => ?_⟩
  · exact ⟨rfl, rfl, rfl, rfl, rfl, rfl, rfl, rfl, rfl, rfl, rfl, rfl, rfl, rfl, rfl, rfl⟩
  · cases hs : u.power.highSince with
    | none => exact Bool.false_ne_true ((mayPowerOn_of_low hs).symm.trans may)
    | some t =>
      obtain ⟨hb, ht, ho, hf⟩ := (mayPowerOn_of_held hs).1 may
      obtain h | h | h | ⟨h, h'⟩ := h
      · exact h hb
      · exact Nat.not_lt.2 ho h
      · exact Option.some_ne_none t (hs.symm.trans h)
      · cases hs.symm.trans h
        obtain h | ⟨h, h'⟩ := h'
        · exact Nat.not_lt.2 ht h
        · exact hf.elim (fun hf => Bool.false_ne_true (hf.symm.trans h)) (Nat.not_lt.2 h')
  · exact congrArg _ ((supervise_running _ hr).trans (startAttest_starts hv ha))
  · obtain h | h := h
    · exact congrArg _ (supervise_stopped _ (by simpa [runs] using h))
    · exact congrArg _ (supervise_of_fixed (startAttest_idle h))
  · exact congrArg _ ((superviseBooted_done _ hr hb).trans (writePartCtl_kept h))
  · exact congrArg _ ((superviseBooted_done _ hr hb).trans (writePartCtl_refused h))
  · obtain h | h := h
    · exact congrArg _ (superviseBooted_stopped _ (by simpa [runs] using h))
    · exact congrArg _ (superviseBooted_early _ h)

end Sys2Proof.Proofs
end

section
/-! PROOFS. The lease engine's events and the fabric (15 R305, R307 to R311, R314 to R317; 24 R409; logs 40, 59): when each event acts, where
a packet goes and what its way changes, and O43. -/

namespace Sys2Proof.Proofs

open Sys2Proof Sys2Proof.Machine Sys2Proof.Laws

/-! ### Requests (15 R311) -/

section
variable {s : State} {i : StrandId} {u : StrandUse} {id peer n : Nat} {mv nt : Option (StrandUse × Nat)} {fg : Bool} {l : Lease}

theorem exec_leaseAccept_oldest {r : LeaseReq} {rest : List LeaseReq} (h : s.leaseReqs = r :: rest) : exec .leaseAccept s = .next
    (if r.op = 0 then State.admitLease { s with leaseReqs := rest } r
      else if r.op = 1 then State.releaseLease { s with leaseReqs := rest } r else State.renewLease { s with leaseReqs := rest } r) := by
  show execLeaseAccept s = _
  rw [execLeaseAccept, h]
  refine congrArg _ ?_
  dsimp only
  split
  next h0 => rw [if_pos h0]
  next h1 => rw [if_neg (by omega), if_pos h1]
  next h0 h1 => rw [if_neg h0, if_neg h1]

theorem exec_leaseAccept_none (h : s.leaseReqs = []) : exec .leaseAccept s = .next s := by
  show execLeaseAccept s = _
  rw [execLeaseAccept, h]

/-! ### Notices and retunes (15 R315) -/

theorem alloc_subj (h : s.subj = i.val) : s.alloc[s.subj]? = some s.alloc[i.val] := by
  rw [h]
  exact Vector.getElem?_eq_getElem i.isLt

theorem alloc_eta {a : StrandAlloc} {use : StrandUse} (hu : a.use = use) (hn : a.notice = nt) : a = ⟨use, a.moving, nt, a.floorGrant⟩ := by
  rw [← hu, ← hn]

/-- Strands whose notice has ended set out towards the use that takes them. -/
def noticeOver (left : State) (ids : List StrandId) (u : StrandUse) : State :=
  left.modAllocs ids fun a => { a with use := .pool, moving := some (u, left.clearTick ids + retuneTicks), notice := none }

theorem exec_leaseNoticeEnd_ends (ha : s.alloc[s.subj]? = some ⟨.lease id peer, mv, some (u, n), fg⟩) (hn : n ≤ s.now) {ids : List StrandId}
    (hids : ids = s.accrue.strandsWhere fun a => a.use == .lease id peer && a.notice == some (u, n)) {m : State}
    (hm : m = noticeOver (s.accrue.departStrands ids) ids u) :
    exec .leaseNoticeEnd s = .next (((m.lease id).elim m fun v => m.leaseEvent v 3 ids.length).sweepLeases) := by
  show execLeaseNoticeEnd s = _
  rw [execLeaseNoticeEnd, ha]
  dsimp only
  rw [if_neg (Nat.not_lt.2 hn), ← hids]
  refine congrArg (fun t => Host.Outcome.next (State.sweepLeases t)) ?_
  rw [hm, noticeOver]
  split
  next hv => rw [hv, Option.elim_some]
  next hv => rw [hv, Option.elim_none]

theorem exec_leaseNoticeEnd_idle (hi : s.subj = i.val) (h : (s.alloc[i.val]).notice = none ∨ (∀ id peer, (s.alloc[i.val]).use ≠ .lease id peer) ∨
    ((s.alloc[i.val]).notice = some (u, n) ∧ s.now < n)) : exec .leaseNoticeEnd s = .next s := by
  show execLeaseNoticeEnd s = _
  rw [execLeaseNoticeEnd, alloc_subj hi]
  refine congrArg _ ?_
  split
  next ha =>
    rw [Option.some.inj ha] at h
    obtain h | h | ⟨h, hn⟩ := h
    · cases h
    · exact absurd rfl (h _ _)
    · cases h
      exact if_pos hn
  · rfl

theorem exec_strandRetuneDone_lands (hi : s.subj = i.val) (hm : (s.alloc[i.val]).moving = some (u, n)) (hn : n ≤ s.now) :
    exec .strandRetuneDone s = .next (s.land u
      (s.strandsWhere fun b => b.moving == some (u, n) && b.floorGrant == (s.alloc[i.val]).floorGrant) (s.alloc[i.val]).floorGrant) := by
  show execStrandRetuneDone s = _
  rw [execStrandRetuneDone, alloc_subj hi]
  generalize s.alloc[i.val] = a at hm
  obtain ⟨use, mv, nt, fg⟩ := a
  cases hm
  exact congrArg _ (if_neg (Nat.not_lt.2 hn))

theorem exec_strandRetuneDone_idle (hi : s.subj = i.val) (h : (s.alloc[i.val]).moving = none ∨ ((s.alloc[i.val]).moving = some (u, n) ∧ s.now < n)) :
    exec .strandRetuneDone s = .next s := by
  show execStrandRetuneDone s = _
  rw [execStrandRetuneDone, alloc_subj hi]
  generalize s.alloc[i.val] = a at h
  obtain ⟨use, mv, nt, fg⟩ := a
  obtain h | ⟨h, hn⟩ := h
  · cases h
    rfl
  · cases h
    exact congrArg _ (if_pos hn)

/-! ### Starvation and expiry (15 R316, R317) -/

/-- The request has waited for 200 µs with nothing granted, and has not been helped (15 R316). -/
def StarvedFor (s : State) (l : Lease) : Prop := l.starved = false ∧ l.got = 0 ∧ s.want l ≠ 0 ∧ l.acceptedAt + 200 * usTicks ≤ s.now

theorem not_starvedFor_iff : ¬StarvedFor s l ↔
    (l.starved || l.got != 0 || s.want l == 0 || decide (s.now < l.acceptedAt + 200 * usTicks)) = true := by
  simp only [StarvedFor, Bool.or_eq_true, bne_iff_ne, beq_iff_eq, decide_eq_true_iff, ne_eq, not_and_or, not_not, Bool.not_eq_false, not_le,
    or_assoc]

theorem exec_leaseStarvationGrant_takes {t : State} {q : Nat} {ids : List StrandId} (hl : s.leases[s.subj]? = some l) (hd : StarvedFor s l)
    (hb : s.largest ((otherPeers l.peer).filter s.starvable) = some q) :
    let m := s.modLease l.id fun l => { l with starved := true }
    let need := min (min (min (s.want l) 4) (64 - s.committed l.peer)) (s.aboveFloor q)
    let w := t.claim l true ids
    m.pick need (m.defaults q) = (t, ids) → exec .leaseStarvationGrant s = .next
      (((w.leases.filter fun v => v.peer == q).foldr insertVictim []).foldl (fun (x : State × Nat) v =>
        (if min x.2 (x.1.freeOf v).length = 0 then x.1 else x.1.notify v l (min x.2 (x.1.freeOf v).length) true,
          x.2 - min x.2 (x.1.freeOf v).length)) (w, need - ids.length)).1 := by
  intro m need w hp
  show execLeaseStarvationGrant s = _
  rw [execLeaseStarvationGrant, hl]
  refine congrArg _ ((if_neg fun h => not_starvedFor_iff.2 h hd).trans ?_)
  rw [hb]
  dsimp only
  rw [hp]

theorem exec_leaseStarvationGrant_none (hl : s.leases[s.subj]? = some l)
    (hb : s.largest ((otherPeers l.peer).filter s.starvable) = none) : exec .leaseStarvationGrant s = .next s := by
  show execLeaseStarvationGrant s = _
  rw [execLeaseStarvationGrant, hl]
  refine congrArg _ (ite_eq_left_iff.2 fun _ => ?_)
  rw [hb]

theorem exec_leaseStarvationGrant_early (hl : s.leases[s.subj]? = some l) (hd : ¬StarvedFor s l) : exec .leaseStarvationGrant s = .next s := by
  show execLeaseStarvationGrant s = _
  rw [execLeaseStarvationGrant, hl]
  exact congrArg _ (if_pos (not_starvedFor_iff.1 hd))

/-- The lease is gone, and its strands have left. -/
def expiredLeft (s : State) (l : Lease) : State :=
  let m := s.accrue
  let gone := m.held l.id + m.retuning l.id
  let v := { m with leases := m.leases.filter fun x => x.id != l.id }.leaveLeases (m.leaseStrands l.id)
  if gone = 0 then v else v.leaseEvent l 4 gone

theorem exec_leaseExpiry_ends (hl : s.leases[s.subj]? = some l) (he : l.expiry = some n) (hn : n ≤ s.now) : exec .leaseExpiry s =
    .next (if 0 < l.ungranted then (expiredLeft s l).leaseStatus l 3 6 else expiredLeft s l) := by
  show execLeaseExpiry s = _
  rw [execLeaseExpiry, hl]
  dsimp only
  rw [he]
  exact congrArg _ (if_neg (Nat.not_lt.2 hn))

theorem exec_leaseExpiry_early (hl : s.leases[s.subj]? = some l) (h : l.expiry = none ∨ (l.expiry = some n ∧ s.now < n)) :
    exec .leaseExpiry s = .next s := by
  show execLeaseExpiry s = _
  rw [execLeaseExpiry, hl]
  dsimp only
  obtain h | ⟨h, hn⟩ := h <;> rw [h]
  exact congrArg _ (if_pos hn)

theorem exec_noLease_idle (hl : s.leases[s.subj]? = none) : exec .leaseStarvationGrant s = .next s ∧ exec .leaseExpiry s = .next s := by
  show execLeaseStarvationGrant s = _ ∧ execLeaseExpiry s = _
  rw [execLeaseStarvationGrant, execLeaseExpiry, hl]
  exact ⟨rfl, rfl⟩

end

/-! ### The flit boundary of strands that leave (15 R315) -/

/-- One strand's part of the boundary: when the flit on its wire has completed. -/
def laterClear (s : State) (t : Nat) (i : StrandId) : Nat := if (s.strands[i.val]).flying then max t (s.strands[i.val]).qdAt else t

theorem le_laterClear (s : State) (t : Nat) (i : StrandId) : t ≤ laterClear s t i := by
  unfold laterClear
  split
  · exact le_max_left _ _
  · exact le_rfl

theorem le_foldl_laterClear (s : State) (ids : List StrandId) (t : Nat) : t ≤ ids.foldl (laterClear s) t ∧
    ∀ i ∈ ids, (s.strands[i.val]).flying = true → (s.strands[i.val]).qdAt ≤ ids.foldl (laterClear s) t := by
  induction ids generalizing t with
  | nil => exact ⟨le_rfl, by simp⟩
  | cons j ids ih =>
    obtain ⟨hle, hall⟩ := ih (laterClear s t j)
    refine ⟨(le_laterClear s t j).trans hle, fun i hi hf => ?_⟩
    obtain rfl | hi := List.mem_cons.1 hi
    · refine le_trans ?_ hle
      rw [laterClear, if_pos hf]
      exact le_max_right _ _
    · exact hall i hi hf

theorem leaseEventsAct : LeaseEventsAct := by
  intro s t r rest i l u id peer n q ids a
  refine ⟨exec_leaseAccept_oldest, exec_leaseAccept_none, fun hi hu hn ht => ?_, exec_leaseNoticeEnd_idle, exec_strandRetuneDone_lands,
    exec_strandRetuneDone_idle, ⟨fun ⟨hl, hd⟩ hb => exec_leaseStarvationGrant_takes hl hd hb, fun ⟨hl, _⟩ => exec_leaseStarvationGrant_none hl,
    fun hl hd => exec_leaseStarvationGrant_early hl fun h => hd ⟨hl, h⟩⟩, exec_leaseExpiry_ends, exec_leaseExpiry_early, exec_noLease_idle,
    le_foldl_laterClear s ids s.now⟩
  exact exec_leaseNoticeEnd_ends ((alloc_subj hi).trans (congrArg some (alloc_eta hu hn))) ht rfl rfl

/-! ### Routes (15 R307 to R309) -/

section
variable {s t : State} {k : Packet} {p : Nat} {i : StrandId} {is : List StrandId}

theorem lowest_mem {l : List Nat} (h : s.lowest l = some p) : p ∈ l := by
  suffices all : ∀ p, s.lowest l = some p → p ∈ l from all p h
  refine List.foldlRecOn (motive := fun best : Option Nat => ∀ p, best = some p → p ∈ l) l _ (by simp) fun best hb q hq p hp => ?_
  split at hp
  · exact Option.some.inj hp ▸ hq
  · split at hp
    · exact Option.some.inj hp ▸ hq
    · exact hb p hp

/-- A packet in transit takes a minimal hop. -/
theorem nextHop_transit (hv : k.via.isSome = true) (h : s.nextHop k = some p) : p ∈ s.minimalHops k := by
  have transit : k.via.isNone = false := by
    rw [← Option.not_isSome, hv]
    rfl
  simp only [State.nextHop, transit, Bool.false_and, Bool.false_eq_true, if_false] at h
  split at h
  · cases h
  · exact (List.mem_filter.1 (lowest_mem h)).1

/-! ### Buffers that send (15 R309; 24 R409) -/

/-- The strand once a packet's flits have joined its queue. -/
theorem push_eq (z : Strand) (flits now : Nat) :
    z.push flits now = { z with
      qd := z.qd + flits, qdAt := if z.qd = 0 then now else z.qdAt
      due := if z.wth ≠ 0 ∧ z.wth.toNat ≤ z.qd + flits ∧ (z.carry ≠ 0xFF ∨ z.amask ≠ 0xFF) then some (z.due.getD now) else z.due } := by
  have reached : (z.wth != 0 && decide (z.wth.toNat ≤ z.qd + flits) && (z.carry != 0xFF || z.amask != 0xFF)) = true ↔
      z.wth ≠ 0 ∧ z.wth.toNat ≤ z.qd + flits ∧ (z.carry ≠ 0xFF ∨ z.amask ≠ 0xFF) := by
    simp only [Bool.and_eq_true, Bool.or_eq_true, bne_iff_ne, decide_eq_true_iff, and_assoc]
  rw [Strand.push, if_congr reached rfl rfl]

theorem sendPacket_goes (hp : s.nextHop k = some p) (hi : s.pick 1 (s.openStrands p) = (t, i :: is)) :
    s.sendPacket k = some (t.modStrand i fun x => x.push k.flits t.now) := by
  rw [State.sendPacket, hp]
  dsimp only
  rw [hi]

theorem sendPacket_waits (hp : s.nextHop k = none) : s.sendPacket k = none := by
  rw [State.sendPacket, hp]

/-- What one packet makes of the state and of the packets that wait. -/
theorem sendPackets_one (h : s.packets = [k]) : s.sendPackets =
    (s.sendPacket k).elim { s with packets := [k] } fun t => { t with packets := [] } := by
  rw [State.sendPackets, h]
  simp only [List.foldl_cons, List.foldl_nil, List.any_nil, Bool.false_eq_true, if_false]
  cases s.sendPacket k <;> rfl

/-- t is s but for what the fabric changes: buffers, queues and the count of open choices. -/
def Sent (s t : State) : Prop := t = { s with packets := t.packets, strands := t.strands, choices := t.choices }

theorem Sent.trans {u : State} (h : Sent s t) (h' : Sent t u) : Sent s u := by
  unfold Sent at *
  rw [h', h]

theorem Sent.pick {n : Nat} {l ids : List StrandId} (h : s.pick n l = (t, ids)) : Sent s t := by
  cases h
  rfl

theorem Sent.modStrand (s : State) (i : StrandId) (f : Strand → Strand) : Sent s (s.modStrand i f) := rfl

theorem Sent.sendPacket (h : s.sendPacket k = some t) : Sent s t := by
  unfold State.sendPacket at h
  split at h
  · cases h
  · split at h
    next hp =>
      cases h
      exact (Sent.pick hp).trans (.modStrand ..)
    · cases h

theorem Sent.sendPackets (s : State) : Sent s s.sendPackets := by
  suffices buffers : ∀ l : List Packet, Sent s (l.foldl (fun (r : State × List Packet) k =>
      if r.2.any k.sameBuffer then (r.1, r.2 ++ [k])
      else match r.1.sendPacket k with
        | some t => (t, r.2)
        | none => (r.1, r.2 ++ [k])) (s, [])).1 from (buffers s.packets).trans rfl
  intro l
  refine List.foldlRecOn (motive := fun r : State × List Packet => Sent s r.1) l _ rfl fun r hr k _ => ?_
  split
  · exact hr
  · split
    next ht => exact hr.trans (.sendPacket ht)
    · exact hr

end

/-- A packet as FABRIC_PACKET brings it. -/
def arriving (row col : BitVec 4) (flits : PacketFlits) : Packet :=
  { row := row.toNat, col := col.toNat, flits := flits.count, response := flits.response, via := flits.via.map fun v => (v.1.val, v.2) }

section
variable {s : State} {row col : BitVec 4} {flits : PacketFlits}

theorem exec_fabricPacket_queued (hh : s.minimalHops (arriving row col flits) ≠ []) (hc : (arriving row col flits).nextChan ≠ none) :
    exec (.fabricPacket row col flits) s = .next (State.sendPackets { s with packets := s.packets ++ [arriving row col flits] }) := by
  refine congrArg (fun t => Host.Outcome.next (State.sendPackets t)) (if_neg ?_)
  rw [Bool.or_eq_true, List.isEmpty_iff, Option.isNone_iff_eq_none]
  exact not_or.2 ⟨hh, hc⟩

theorem exec_fabricPacket_ended (h : s.minimalHops (arriving row col flits) = [] ∨ (arriving row col flits).nextChan = none) :
    exec (.fabricPacket row col flits) s = .next s.sendPackets := by
  refine congrArg (fun t => Host.Outcome.next (State.sendPackets t)) (if_pos ?_)
  rwa [Bool.or_eq_true, List.isEmpty_iff, Option.isNone_iff_eq_none]

theorem exec_fabricPacket_frame {t : State} (h : exec (.fabricPacket row col flits) s = .next t) : Sent s t := by
  by_cases hq : s.minimalHops (arriving row col flits) = [] ∨ (arriving row col flits).nextChan = none
  · rw [exec_fabricPacket_ended hq] at h
    cases h
    exact .sendPackets s
  · obtain ⟨hh, hc⟩ := not_or.1 hq
    rw [exec_fabricPacket_queued hh hc] at h
    cases h
    exact Sent.trans (t := { s with packets := s.packets ++ [arriving row col flits] }) rfl (.sendPackets _)

end

theorem packetsTravel : PacketsTravel := by
  intro s t row col flits p response via i is k u z reached x
  refine ⟨exec_fabricPacket_queued (flits := ⟨flits, response, via⟩), exec_fabricPacket_ended (flits := ⟨flits, response, via⟩), fun he hh hc hp hi => ?_, fun he hh hc hp => ?_, exec_fabricPacket_frame,
    ?_, fun h => ⟨?_, ?_, ?_⟩, fun hv => nextHop_transit (by simpa [k] using hv)⟩
  · have alone : u.packets = [k] := by
      show s.packets ++ [k] = [k]
      rw [he, List.nil_append]
    rw [exec_fabricPacket_queued (flits := ⟨flits, response, via⟩) hh hc]
    refine congrArg _ ((sendPackets_one alone).trans ?_)
    rw [sendPacket_goes hp hi, Option.elim_some, State.modStrand, push_eq]
  · have alone : u.packets = [k] := by
      show s.packets ++ [k] = [k]
      rw [he, List.nil_append]
    rw [exec_fabricPacket_queued (flits := ⟨flits, response, via⟩) hh hc]
    refine congrArg _ ((sendPackets_one alone).trans ?_)
    rw [sendPacket_waits hp, Option.elim_none, ← alone]
  · rintro rfl
    rfl
  · rintro rfl
    rfl
  · rintro rfl
    rfl
  · rintro rfl
    rfl

/-- Settles O43: each event of the lease engine in its time and before it, and the way of a packet. -/
theorem leaseAndFabricEventsAct : Obligations.LeaseAndFabricEventsAct := ⟨leaseEventsAct, packetsTravel⟩

end Sys2Proof.Proofs
end

section
/-! PROOFS. The hibernation sequence (23 R392 to R401; 28 R437; logs 44, 84): what a drain may cost, the bytes of a manifest, each event in
its state, and O48. -/

namespace Sys2Proof.Proofs

open Sys2Proof Sys2Proof.Machine Sys2Proof.Laws

/-! ### Quiesce and flush (23 R395) -/

section
variable {s : State}

theorem allCores_acknowledged : (allCores.all fun c => (s.core c).acknowledged) = true ↔ ∀ c : CoreId, (s.core c).acknowledged = true := by
  rw [List.all_eq_true]
  exact ⟨fun h c => h c (List.mem_finRange c), fun h c _ => h c⟩

theorem exec_hibernateQuiesce_acts (h : s.hib.state = .warn) (ha : ∀ c : CoreId, (s.core c).acknowledged = true) :
    exec .hibernateQuiesce s = .next (
      (fun (u : State) => { u with hib := { u.hib with state := .quiesce, since := u.now } }.spend none)
        ((List.finRange 256).foldl State.quiesceCore s.settleMigration).stopEngines) := by
  show execHibernateQuiesce s = _
  rw [execHibernateQuiesce, if_pos (by rw [h, allCores_acknowledged.2 ha]; rfl), allCores]

theorem exec_hibernateQuiesce_waits (h : s.hib.state ≠ .warn ∨ ∃ c : CoreId, (s.core c).acknowledged = false) :
    exec .hibernateQuiesce s = .next s := by
  refine congrArg _ (if_neg fun hq => ?_)
  obtain ⟨hw, ha⟩ := Bool.and_eq_true_iff.1 hq
  obtain h | ⟨c, hc⟩ := h
  · exact h (eq_of_beq hw)
  · exact Bool.false_ne_true (hc.symm.trans (allCores_acknowledged.1 ha c))

theorem exec_hibernateFlush_quiesce (h : s.hib.state = .quiesce) : exec .hibernateFlush s =
    .next (if s.quiet then { s with hib := { s.hib with state := .flush, since := s.now } } else s) := by
  show execHibernateFlush s = _
  rw [execHibernateFlush, h]

theorem exec_hibernateFlush_flush (h : s.hib.state = .flush) : exec .hibernateFlush s = .next s.flush := by
  show execHibernateFlush s = _
  rw [execHibernateFlush, h]

theorem exec_hibernateFlush_else (h : s.hib.state ≠ .quiesce) (h' : s.hib.state ≠ .flush) : exec .hibernateFlush s = .next s := by
  show execHibernateFlush s = _
  rw [execHibernateFlush]
  refine congrArg _ ?_
  split
  next hq => exact absurd hq h
  next hf => exact absurd hf h'
  · rfl

/-! ### The reserve (23 R392; 28 R437) -/

/-- A phase takes no more than its most from the reserve. -/
theorem reserve_spend (s : State) (most : Nat) : s.hib.reserve - most ≤ (s.spend (some most)).hib.reserve ∧
    (s.spend (some most)).hib.reserve ≤ s.hib.reserve := by
  have cost : Config.freeNat s.choices % (most + 1) ≤ most := Nat.lt_succ_iff.1 (Nat.mod_lt _ most.succ_pos)
  exact ⟨Nat.sub_le_sub_left cost _, Nat.sub_le _ _⟩

theorem pieceCost_le (s : State) (n : Nat) : s.pieceCost n ≤ 125 * n := by
  rw [Nat.mul_comm]
  exact Nat.lt_succ_iff.1 (Nat.mod_lt _ (n * 125).succ_pos)

/-! ### The drain (23 R394, R396) -/

theorem drainPieces_spent {base scm cap : Nat} {bytes : List Byte} (fuel : Nat) (h : s.hib.reserve ≤ s.hib.floor) :
    s.drainPieces base scm cap bytes (fuel + 1) = { s := s, bytes := bytes, stopped := true } := if_pos h

/-- t has drained from s: the selvedge is the same, and no piece has begun at it or below it. -/
def DrainedFrom (s t : State) : Prop :=
  t.hib.selv = s.hib.selv ∧ min s.hib.reserve (s.hib.floor - 512000) ≤ t.hib.reserve

theorem DrainedFrom.refl (s : State) : DrainedFrom s s := ⟨rfl, min_le_left _ _⟩

theorem DrainedFrom.trans {t u : State} (h : DrainedFrom s t) (h' : DrainedFrom t u) : DrainedFrom s u := by
  obtain ⟨selv, reserve⟩ := h
  obtain ⟨selv', reserve'⟩ := h'
  refine ⟨selv'.trans selv, ?_⟩
  unfold Hib.floor at *
  rw [selv] at reserve'
  omega

/-- One piece of at most 4096 bytes, begun above the selvedge. -/
theorem DrainedFrom.piece {n : Nat} (h : s.hib.floor < s.hib.reserve) (hn : n ≤ 4096) (scm : Mem) (choices : Nat) : DrainedFrom s
    { s with scm := scm, choices := choices, hib := { s.hib with reserve := s.hib.reserve - s.pieceCost n } } := by
  refine ⟨rfl, ?_⟩
  have cost := pieceCost_le s n
  show min s.hib.reserve (s.hib.floor - 512000) ≤ s.hib.reserve - s.pieceCost n
  omega

theorem drainPieces_drained (base scm cap : Nat) (bytes : List Byte) (fuel : Nat) :
    DrainedFrom s (s.drainPieces base scm cap bytes fuel).s := by
  induction fuel generalizing s bytes with
  | zero => exact .refl s
  | succ fuel ih =>
    rw [State.drainPieces]
    extract_lets at_
    split
    · exact .refl s
    next h =>
      split
      · exact .refl s
      · split
        · exact .refl s
        next => exact (DrainedFrom.piece (Nat.lt_of_not_le h) (min_le_left _ _) _ _).trans (ih _)

theorem drainItems_drained (place : Nat) (stopped : Bool) (items : List DrainItem) : DrainedFrom s (s.drainItems place stopped items).1 := by
  induction items generalizing s place stopped with
  | nil => exact .refl s
  | cons i l ih =>
    rw [State.drainItems]
    split
    · exact ih place true
    · split
      · exact ih place false
      · exact (drainPieces_drained ..).trans (ih _ _)

theorem exec_hibernateDrain_drains {t : State} {es : List ManifestEntry} (h : s.hib.state = .drain)
    (hd : State.drainItems { s.writeImage with
        choices := s.writeImage.choices + 1
        hib := { s.writeImage.hib with
          imageTasks := s.writeImage.tasks, imageRegions := s.writeImage.regions, imageSteps := s.writeImage.hib.step
          imageMembers := s.writeImage.hib.member } }
      s.writeImage.hib.data.toNat false (s.contextSet ++ s.drainList) = (t, es)) :
    exec .hibernateDrain s = .next { t with hib := { t.hib with
      state := .seal, since := t.now, entries := es, drained := es.foldl (fun n e => n + e.bytes) 0, reserveSeal := t.hib.joules } } := by
  show execHibernateDrain s = _
  rw [execHibernateDrain, if_pos (by rw [h]; rfl)]
  dsimp only
  rw [hd]

theorem exec_hibernateDrain_else (h : s.hib.state ≠ .drain) : exec .hibernateDrain s = .next s := congrArg _ (if_neg (by simpa using h))

/-! ### The manifest (23 R398) -/

theorem length_bytesOfNat (k n : Nat) : (bytesOfNat k n).length = k := by
  induction k generalizing n with
  | zero => rfl
  | succ k ih => rw [bytesOfNat, List.length_cons, ih]

theorem length_entryBytes (e : ManifestEntry) : e.toBytes.length = 96 := by
  simp only [ManifestEntry.toBytes, List.length_append, length_bytesOfNat]

theorem length_entriesBytes (es : List ManifestEntry) : (es.flatMap ManifestEntry.toBytes).length = 96 * es.length := by
  simp only [List.length_flatMap, length_entryBytes, List.map_const', List.sum_replicate, smul_eq_mul, Nat.mul_comm]

theorem length_manifestHeader (s : State) (gen commit : Nat) : (s.manifestHeader gen commit).length = 128 := by
  simp only [State.manifestHeader, List.length_append, length_bytesOfNat]

theorem length_signatureBytes (sig : BitVec 768) : (signatureBytes sig).length = 96 := by
  rw [signatureBytes, List.length_reverse, length_bytesOfNat]

/-- The slot and the generation of the next manifest: those after the newest one (23 R398). -/
def nextManifest (s : State) : Nat × Nat := s.newestManifest.elim (0, 1) fun m => (1 - m.1, m.2.1 + 1)

/-- The bytes of a manifest, committed and signed. -/
def manifestBytes (s : State) (gen : Nat) : List Byte :=
  s.manifestHeader gen manifestCommit ++ s.hib.entries.flatMap ManifestEntry.toBytes
    ++ signatureBytes (Config.sign (Config.sha384 (s.manifestHeader gen 0 ++ s.hib.entries.flatMap ManifestEntry.toBytes)))

theorem length_manifestBytes (s : State) (gen : Nat) : (manifestBytes s gen).length = 128 + 96 * s.hib.entries.length + 96 := by
  simp only [manifestBytes, List.length_append, length_manifestHeader, length_entriesBytes, length_signatureBytes]

/-- The 32 bytes of a manifest before its commit word. -/
def manifestHead (s : State) (gen : Nat) : List Byte :=
  bytesOfNat 4 manifestMagic ++ (bytesOfNat 2 1 ++ (bytesOfNat 1 s.hib.cause.toNat ++ (bytesOfNat 1 s.modid.toNat ++ (bytesOfNat 8 gen ++
    (bytesOfNat 2 s.hib.reserveWarn ++ (bytesOfNat 2 s.hib.reserveSeal ++ (bytesOfNat 2 s.hib.entries.length ++ (bytesOfNat 2 0 ++
      bytesOfNat 8 s.hib.drained))))))))

theorem manifestBytes_eq (s : State) (gen : Nat) : ∃ rest, manifestBytes s gen = manifestHead s gen ++ (bytesOfNat 8 manifestCommit ++ rest) :=
  ⟨_, by simp only [manifestBytes, State.manifestHeader, manifestHead, List.append_assoc]; rfl⟩

theorem take_manifestBytes (s : State) (gen : Nat) : (manifestBytes s gen).take 4 = [0x46, 0x4D, 0x47, 0x4B] := by
  obtain ⟨rest, eq⟩ := manifestBytes_eq s gen
  rw [eq, manifestHead, List.append_assoc, List.take_left' (length_bytesOfNat 4 _)]
  rfl

theorem commit_manifestBytes (s : State) (gen : Nat) : ((manifestBytes s gen).drop 0x20).take 8 = bytesOfNat 8 0x5345414C45442121 := by
  obtain ⟨rest, eq⟩ := manifestBytes_eq s gen
  have head : (manifestHead s gen).length = 0x20 := by simp only [manifestHead, List.length_append, length_bytesOfNat]
  rw [eq, List.drop_left' head, List.take_left' (length_bytesOfNat 8 _), manifestCommit]

theorem exec_hibernateSeal_seals (h : s.hib.state = .seal) (ha : s.boot.attStat ≠ 1) : exec .hibernateSeal s = .next { s with
    scm := s.scm.put (s.hib.manif.toNat + (nextManifest s).1 * 2 ^ 20) (manifestBytes s (nextManifest s).2)
    hib := { s.hib with state := .off, since := s.now, gen := BitVec.ofNat 32 (nextManifest s).2, imageGen := (nextManifest s).2 } } := by
  show execHibernateSeal s = _
  rw [execHibernateSeal, if_pos (by rw [h, bne_iff_ne.2 ha]; rfl), nextManifest]
  cases s.newestManifest <;> rfl

theorem exec_hibernateSeal_waits (h : s.hib.state ≠ .seal ∨ s.boot.attStat = 1) : exec .hibernateSeal s = .next s := by
  refine congrArg _ (if_neg ?_)
  obtain h | h := h <;> simp [h]

/-! ### Resumption and rejoin (23 R400, R401) -/

theorem resume_else (h : s.hib.state ≠ .restore) : s.resume = s := if_pos (by simpa using h)

/-- The saved regions, tasks and bank commands stand beside those that are there, and the rejoin begins. -/
def rejoining (s : State) : State :=
  { s with
    tasks := s.hib.imageTasks ++ s.tasks.filter fun t => !s.hib.imageTasks.any fun x => x.va == t.va
    regions := s.hib.imageRegions ++ s.regions.filter fun r => !s.hib.imageRegions.any fun x => x.id == r.id
    jobs := s.jobs ++ (s.hib.imageJobs.zip (List.range s.hib.imageJobs.length)).map fun (j, i) => { j with id := s.nextJob + i }
    nextJob := s.nextJob + s.hib.imageJobs.length
    hib := { s.hib with step := s.hib.imageSteps, member := s.hib.imageMembers, state := .rejoin, since := s.now } }

theorem resume_complete (h : s.hib.state = .restore) (hc : s.contextComplete = true) :
    s.resume = ((rejoining s).tasks.foldl State.judge (rejoining s)).rejoinStep := by
  rw [State.resume, if_neg (by simp [h]), if_neg (by simp [hc])]
  rfl

theorem resume_incomplete (h : s.hib.state = .restore) (hc : s.contextComplete = false) {regions : List Region}
    (hr : s.hib.imageRegions ++ (s.regions.filter fun r => !s.hib.imageRegions.any fun x => x.id == r.id) = regions) : s.resume =
      (fun (u : State) => { u with hib := { u.hib with state := .run, since := u.now } }.applyShed)
        (regions.foldl (fun u r => u.postEvent r.id { kind := 3, info := 0, task := 0 } (.hibernationLoss 0)) { s with regions := regions }) := by
  rw [State.resume, if_neg (by simp [h]), if_pos (by simp [hc]), State.installRegions, hr]

theorem judge_unsaved {x : Task} (h : x.saved = []) : s.judge x = s := if_pos (by rw [h]; rfl)

theorem judge_lost {x : Task} (h : x.saved ≠ []) (hl : x.resumable = false ∨ s.touchesLost x = true) : s.judge x = s.loseTask x := by
  rw [State.judge, if_neg (by simpa using h)]
  refine if_pos ?_
  obtain hl | hl := hl <;> simp [hl]

theorem judge_held {x : Task} (h : x.saved ≠ []) (hr : x.resumable = true) (hl : s.touchesLost x = false) :
    s.judge x = s.modTask x.va fun t => { t with state := .held } := by
  rw [State.judge, if_neg (by simpa using h), if_neg (by simp [hr, hl])]

theorem releaseHeld_else (h : s.hib.state ≠ .run) : s.releaseHeld = s := if_pos (by simpa using h)

theorem releaseHeld_run (h : s.hib.state = .run) :
    s.releaseHeld = s.tasks.foldl (fun s t => if t.state = .held then s.makeReady t.va .preempted else s) s := if_neg (by simp [h])

/-- A member's step has arrived. -/
def answered (s : State) (g : BitVec 6) (m : BitVec 8) (step : Word) : State :=
  { s with hib := { s.hib with
    answers := (g.toNat, m.toNat, step) :: s.hib.answers.filter fun a => !(a.1 == g.toNat && a.2.1 == m.toNat) } }

theorem exec_rejoinTraffic_restore {g : BitVec 6} {m : BitVec 8} {step : Word} (h : s.hib.state = .restore) :
    exec (.rejoinTraffic g m step) s = .next (answered s g m step) := by
  show execRejoinTraffic g m step s = _
  rw [execRejoinTraffic, answered]
  dsimp only
  rw [h]

theorem exec_rejoinTraffic_rejoin {g : BitVec 6} {m : BitVec 8} {step : Word} (h : s.hib.state = .rejoin) :
    exec (.rejoinTraffic g m step) s = .next (answered s g m step).rejoinStep := by
  show execRejoinTraffic g m step s = _
  rw [execRejoinTraffic, answered]
  dsimp only
  rw [h]

theorem exec_rejoinTraffic_else {g : BitVec 6} {m : BitVec 8} {step : Word} (h : s.hib.state ≠ .restore) (h' : s.hib.state ≠ .rejoin) :
    exec (.rejoinTraffic g m step) s = .next s := by
  show execRejoinTraffic g m step s = _
  rw [execRejoinTraffic]
  refine congrArg _ ?_
  dsimp only
  split
  next hs => exact absurd hs h
  next hs => exact absurd hs h'
  · rfl

theorem exec_rejoinTimeout_ends (h : s.hib.state = .rejoin) (ht : s.hib.since + 10000000 * usTicks ≤ s.now) : exec .rejoinTimeout s = .next
    ((s.hib.groups.filter fun g => (s.groupStep g).isNone).foldl (fun (u : State) g =>
      { u with hib := { u.hib with agreed := u.hib.agreed.set g.val (BitVec.allOnes 64) } }) s).finishRejoin :=
  congrArg _ (if_pos (by rw [h, decide_eq_true ht]; rfl))

theorem exec_rejoinTimeout_waits (h : s.hib.state ≠ .rejoin ∨ s.now < s.hib.since + 10000000 * usTicks) :
    exec .rejoinTimeout s = .next s := by
  refine congrArg _ (if_neg fun hr => ?_)
  obtain ⟨hs, ht⟩ := Bool.and_eq_true_iff.1 hr
  exact h.elim (fun h => h (eq_of_beq hs)) (Nat.not_lt.2 (of_decide_eq_true ht))

end

/-- Settles O48: each event in its state and in every other. -/
theorem hibernationSequence : Obligations.HibernationSequence := by
  intro s t es g m step most h
  refine ⟨exec_hibernateQuiesce_acts, exec_hibernateQuiesce_waits, fun hs hq => ?_, fun hs hq => ?_, exec_hibernateFlush_flush,
    exec_hibernateFlush_else, reserve_spend s most, exec_hibernateDrain_drains, exec_hibernateDrain_else,
    ⟨fun base scm cap bytes fuel hf => ?_, pieceCost_le s, fun place stopped items => (drainItems_drained place stopped items).2⟩,
    fun hs ha => ⟨(nextManifest s).1, (nextManifest s).2, manifestBytes s (nextManifest s).2, exec_hibernateSeal_seals hs ha, fun hn => ?_,
      fun k n l hn => ?_, take_manifestBytes s _, commit_manifestBytes s _, length_manifestBytes s _⟩,
    exec_hibernateSeal_waits, fun hs => congrArg _ (resume_else hs), ⟨fun hs hc => ?_, fun hs hc => ?_⟩, fun x => ⟨judge_unsaved, judge_lost, judge_held⟩,
    fun hs => congrArg _ (releaseHeld_else hs), fun hs => congrArg _ (releaseHeld_run hs),
    ⟨exec_rejoinTraffic_restore, exec_rejoinTraffic_rejoin, exec_rejoinTraffic_else⟩, exec_rejoinTimeout_ends,
    fun _ ht => exec_rejoinTimeout_waits (.inr ht), fun hs => exec_rejoinTimeout_waits (.inl hs)⟩
  · rw [exec_hibernateFlush_quiesce hs, if_pos hq]
  · rw [exec_hibernateFlush_quiesce hs, if_neg (by simp [hq])]
  · rw [drainPieces_spent fuel hf]
    exact ⟨rfl, rfl⟩
  · rw [nextManifest, hn]
    exact ⟨rfl, rfl⟩
  · rw [nextManifest, hn]
    exact ⟨rfl, rfl⟩
  · exact congrArg Host.Outcome.next (resume_complete hs hc)
  · exact congrArg Host.Outcome.next (resume_incomplete hs hc rfl)

end Sys2Proof.Proofs
end

section
/-! PROOFS. Strands and rings (15 R305; 24 R405 to R410, R412; logs 41, 43): what a count of a strand's queue keeps, what each write and each
event changes, and O50. -/

namespace Sys2Proof.Proofs

open Sys2Proof Sys2Proof.Machine Sys2Proof.Laws

/-! ### The queue of a strand, counted (15 R305) -/

/-- A count changes what is queued and on the wire, and nothing else of a strand. -/
theorem upTo_eq (x : Strand) (w now : Nat) : ∃ qd qdAt flying, x.upTo w now = { x with qd := qd, qdAt := qdAt, flying := flying } := by
  unfold Strand.upTo
  extract_lets left gone
  split
  · exact ⟨_, _, _, rfl⟩
  · split
    · exact ⟨_, _, _, rfl⟩
    · split <;> exact ⟨_, _, _, rfl⟩

section
variable (x : Strand) (w now : Nat)

@[simp] theorem amask_upTo : (x.upTo w now).amask = x.amask := by obtain ⟨_, _, _, h⟩ := upTo_eq x w now; rw [h]

@[simp] theorem carry_upTo : (x.upTo w now).carry = x.carry := by obtain ⟨_, _, _, h⟩ := upTo_eq x w now; rw [h]

@[simp] theorem wakeEnd_upTo : (x.upTo w now).wakeEnd = x.wakeEnd := by obtain ⟨_, _, _, h⟩ := upTo_eq x w now; rw [h]

@[simp] theorem parking_upTo : (x.upTo w now).parking = x.parking := by obtain ⟨_, _, _, h⟩ := upTo_eq x w now; rw [h]

@[simp] theorem due_upTo : (x.upTo w now).due = x.due := by obtain ⟨_, _, _, h⟩ := upTo_eq x w now; rw [h]

theorem qd_upTo : (x.upTo w now).qd = x.qd - x.sent w now := by
  unfold Strand.upTo
  extract_lets left gone
  split
  next h => exact h.symm
  · split
    next h => rw [Strand.sent, if_pos h, Nat.sub_zero]
    · split <;> rfl

end

theorem qd_counted (s : State) (i : StrandId) : (s.strands[i.val].upTo (s.flow i) s.now).qd = s.queueDepth i := qd_upTo _ _ _

theorem flitBoundary_iff (s : State) (i : StrandId) : s.flitBoundary i = true ↔ (s.strands[i.val].upTo (s.flow i) s.now).flying = false := by
  rw [State.flitBoundary, Bool.not_eq_true']

/-! ### Changes of one ring -/

theorem rings_modRing_same (s : State) (r : RingId) (f : Ring → Ring) : ((s.modRing r f).rings[r.val]) = f s.rings[r.val] :=
  Vector.getElem_set_self r.isLt

theorem rings_modRing_ne (s : State) {r q : RingId} (f : Ring → Ring) (h : q ≠ r) : ((s.modRing r f).rings[q.val]) = s.rings[q.val] :=
  Vector.getElem_set_ne r.isLt q.isLt fun h' => h (Fin.ext h'.symm)

theorem modRing_modRing (s : State) (r : RingId) (f g : Ring → Ring) : (s.modRing r f).modRing r g = s.modRing r fun x => g (f x) := by
  simp [State.modRing]

/-- A change of a ring that leaves its disable leaves every ring's. -/
theorem disable_modRing (s : State) (r q : RingId) {f : Ring → Ring} (h : ∀ x, (f x).disable = x.disable) :
    ((s.modRing r f).rings[q.val]).disable = (s.rings[q.val]).disable := by
  by_cases hq : q = r
  · rw [hq, rings_modRing_same, h]
  · rw [rings_modRing_ne s f hq]

theorem disable_moveChannel (s : State) (p : Nat) (r q : RingId) :
    ((s.moveChannel p r).rings[q.val]).disable = (s.rings[q.val]).disable := by
  unfold State.moveChannel
  extract_lets router ok
  split
  · rfl
  next k _ =>
    extract_lets a b back s1 s2 s3
    have first : (s2.rings[q.val]).disable = (s1.rings[q.val]).disable := disable_modRing s1 r q fun _ => rfl
    have second : (s3.rings[q.val]).disable = (s2.rings[q.val]).disable := disable_modRing s2 k q fun _ => rfl
    exact second.trans first

/-! ### The subject of a step -/

theorem subjStrand_of_val {s : State} {i : StrandId} (h : s.subj = i.val) : s.subjStrand = i := by
  rw [State.subjStrand, h]
  exact Fin.ext (Nat.mod_eq_of_lt i.isLt)

theorem subjRing_of_val {s : State} {r : RingId} (h : s.subj = r.val) : s.subjRing = r := by
  rw [State.subjRing, h]
  exact Fin.ext (Nat.mod_eq_of_lt r.isLt)

/-! ### Registers (24 R405, R407 to R409) -/

section
variable {s : State} {i : StrandId} {r : RingId} {v : Word}

/-- The wake that a mask calls for ends then, where it wakes a channel (24 R409). -/
def ctlWake (x : Strand) (m : BitVec 8) (now : Nat) : Option Nat :=
  if m &&& ~~~x.carry = 0 then x.wakeEnd else some (x.wakeEnd.getD (now + 102 * usTicks / 10))

/-- A strand under a new mask, with its wake. -/
def masked (z : Strand) (m : BitVec 8) (now : Nat) : Strand := { z with amask := m, wakeEnd := ctlWake z m now }

/-- OSTR_CTL on a strand that waits for no wake of its own (24 R405, R408, R409). -/
theorem writeStrandCtl_eq (hm : v.setWidth 8 ≠ (0 : BitVec 8)) (hd : (s.strands[i.val]).due = none) : s.writeStrandCtl i v =
    s.modStrand i fun z =>
      if z.amask &&& ~~~(v.setWidth 8) = 0 then masked z (v.setWidth 8) s.now
      else if (ctlWake z (v.setWidth 8) s.now).isSome || s.ringWakes i then { masked z (v.setWidth 8) s.now with parkDue := true }
      else { masked z (v.setWidth 8) s.now with parking := true } := by
  rw [State.writeStrandCtl]
  refine (if_neg hm).trans ?_
  have stays : ((s.strands[i.val].upTo (s.flow i) s.now)).autoWake = s.strands[i.val].upTo (s.flow i) s.now := by
    rw [Strand.autoWake, due_upTo, hd]
  have woken : ∀ z : Strand, (if v.setWidth 8 &&& ~~~z.carry = 0 then { z with amask := v.setWidth 8 }
      else Strand.startWake { z with amask := v.setWidth 8 } s.now) = masked z (v.setWidth 8) s.now := by
    intro z
    rw [masked, ctlWake]
    split <;> rfl
  simp only [State.modStrand, stays, woken]
  rfl

theorem writeRingMap_same (h : v.getLsbD 7 = (s.rings[r.val]).disable) :
    s.writeRingMap r v = s.modRing r fun x => { x with sw := v.getLsbD 6, swapped := x.swapped && !v.getLsbD 21 } :=
  if_pos (by rw [h]; exact beq_self_eq_true _)

theorem writeRingMap_disable (hv : v.getLsbD 7 = true) (h : (s.rings[r.val]).disable = false) :
    s.writeRingMap r v = (s.modRing r fun x => { x with sw := v.getLsbD 6, swapped := x.swapped && !v.getLsbD 21 }).disableRing r :=
  (if_neg (by rw [hv, h]; decide)).trans (if_neg (by rw [h]; decide))

theorem writeRingMap_enable (hv : v.getLsbD 7 = false) (h : (s.rings[r.val]).disable = true) :
    s.writeRingMap r v = (s.modRing r fun x => { x with sw := v.getLsbD 6, swapped := x.swapped && !v.getLsbD 21 }).enableRing r :=
  (if_neg (by rw [hv, h]; decide)).trans (if_pos h)

/-- A ring back in service, its channel on the line it returns to. -/
def ringBack (s : State) (r : RingId) : State :=
  let u := (s.settleStrand (s.ringStrand r)).modRing r fun x => { x with disable := false, line := s.lineBack r }
  { u with choices := u.choices + 1 }

theorem ring_ringBack (s : State) (r : RingId) :
    (ringBack s r).rings[r.val] = { s.rings[r.val] with disable := false, line := s.lineBack r } := by
  rw [ringBack]
  exact rings_modRing_same (s.settleStrand (s.ringStrand r)) r fun x => { x with disable := false, line := s.lineBack r }

theorem ringStrand_ringBack (s : State) (r : RingId) : (ringBack s r).ringStrand r = s.ringStrand r := by
  rw [State.ringStrand, ring_ringBack, State.ringStrand]

theorem lineSuits_ringBack (s : State) (r : RingId) (line : Nat) : (ringBack s r).lineSuits r line = s.lineSuits r line := by
  simp only [State.lineSuits, ringStrand_ringBack]
  rfl

/-- A ring comes back into service with the channel that it has (24 R403, R407). -/
def ringReturned (s : State) (r : RingId) : State :=
  match ((ringBack s r).alloc[(s.ringStrand r).val]).use.peer with
  | some p => if (ringBack s r).lineSuits r ((ringBack s r).rings[r.val]).line then ringBack s r else (ringBack s r).moveChannel p r
  | none => ringBack s r

/-- The ring with a channel that no other ring carries: its old one where that is free, else a spare one (24 R403; log 41). -/
def ringSpared (s : State) (r : RingId) : State :=
  if s.channelTaken r then
    match s.spareChannel r with
    | some (i, c) => s.modRing r fun x => { x with strand := BitVec.ofNat 10 i, chan := BitVec.ofNat 3 c }
    | none => s
  else s

set_option maxRecDepth 10000 in
theorem restoreRing_eq (s : State) (r : RingId) : s.restoreRing r = ringReturned (ringSpared s r) r := by
  unfold State.restoreRing
  rfl

/-- A ring that comes back into service is enabled. -/
theorem disable_restoreRing (s : State) (r : RingId) : ((s.restoreRing r).rings[r.val]).disable = false := by
  rw [restoreRing_eq, ringReturned]
  split
  · split
    · rw [ring_ringBack]
    · rw [disable_moveChannel, ring_ringBack]
  · rw [ring_ringBack]

/-- The ring with its old channel on a line that suits it: the channel does not move (24 R403; log 41). -/
theorem restoreRing_stays (hc : s.channelTaken r = false) (hl : s.lineSuits r (s.lineBack r) = true) : s.restoreRing r = ringBack s r := by
  have free : ringSpared s r = s := if_neg (by rw [hc]; exact Bool.false_ne_true)
  rw [restoreRing_eq, free, ringReturned]
  split
  · exact if_pos (by rw [lineSuits_ringBack, ring_ringBack, hl])
  · rfl

/-- The strand's wake that a ring joins, or a wake of its own. -/
def joinedWake (s : State) (r : RingId) : Nat := ((s.strands[(s.ringStrand r).val]).wakeEnd).getD (s.now + 102 * usTicks / 10)

/-- An enabled ring wakes (24 R407, R409). -/
def ringWoken (s : State) (r : RingId) : State := s.modRing r fun x => { x with settle := some (joinedWake s r), wake := true }

theorem enableRing_eq (s : State) (r : RingId) : s.enableRing r = ringWoken (s.restoreRing r) r := rfl

theorem ring_ringWoken (s : State) (r : RingId) :
    (ringWoken s r).rings[r.val] = { s.rings[r.val] with settle := some (joinedWake s r), wake := true } := by
  rw [ringWoken]
  exact rings_modRing_same s r fun x => { x with settle := some (joinedWake s r), wake := true }

/-- An enabled ring is in service and wakes. -/
theorem ring_enabled (s : State) (r : RingId) : ((s.enableRing r).rings[r.val]).disable = false ∧
    ((s.enableRing r).rings[r.val]).wake = true ∧ ((s.enableRing r).rings[r.val]).settle.isSome = true := by
  have back := disable_restoreRing s r
  rw [enableRing_eq]
  generalize s.restoreRing r = u at back ⊢
  rw [ring_ringWoken]
  exact ⟨back, rfl, rfl⟩

theorem wakeEnd_settleStrand (s : State) (i : StrandId) : ((s.settleStrand i).strands[i.val]).wakeEnd = (s.strands[i.val]).wakeEnd := by
  have counted : (s.settleStrand i).strands[i.val] = (s.strands[i.val]).upTo (s.flow i) s.now := Vector.getElem_set_self i.isLt
  rw [counted, wakeEnd_upTo]

theorem joinedWake_ringBack (s : State) (r : RingId) : joinedWake (ringBack s r) r = joinedWake s r := by
  simp only [joinedWake, ringStrand_ringBack]
  exact congrArg (·.getD (s.now + 102 * usTicks / 10)) (wakeEnd_settleStrand s (s.ringStrand r))

theorem enableRing_stays (hc : s.channelTaken r = false) (hl : s.lineSuits r (s.lineBack r) = true) : s.enableRing r =
    { (s.settleStrand (s.ringStrand r)).modRing r fun x =>
        { x with disable := false, line := s.lineBack r, settle := some (joinedWake s r), wake := true } with choices := s.choices + 1 } := by
  rw [enableRing_eq, restoreRing_stays hc hl, ringWoken, joinedWake_ringBack]
  exact congrArg (fun u : State => { u with choices := s.choices + 1 }) (modRing_modRing (s.settleStrand (s.ringStrand r)) r
    (fun x => { x with disable := false, line := s.lineBack r }) fun x => { x with settle := some (joinedWake s r), wake := true })

/-! ### Parks and wakes (24 R408, R409) -/

theorem parkAfter_parks (hp : (s.strands[i.val]).parkDue = true) (hw : (s.strands[i.val]).wakeEnd = none) (hr : s.ringWakes i = false) :
    s.parkAfter i = s.modStrand i fun x => { x with parking := true, parkDue := false } :=
  if_pos (by rw [hp, State.wakes, hw, hr]; rfl)

theorem parkAfter_waits (h : (s.strands[i.val]).parkDue = false ∨ (s.strands[i.val]).wakeEnd.isSome = true ∨ s.ringWakes i = true) :
    s.parkAfter i = s := by
  refine if_neg ?_
  rw [State.wakes]
  obtain h | h | h := h <;> rw [h] <;> simp

theorem exec_strandPark_parks (hi : s.subj = i.val) (hp : (s.strands[i.val]).parking = true) (hb : s.flitBoundary i = true) :
    exec .strandPark s = .next (s.modStrand i fun x =>
      if x.autoWake.parking then { x.autoWake with carry := x.autoWake.carry &&& x.autoWake.amask, parking := false } else x.autoWake) := by
  obtain rfl := subjStrand_of_val hi
  show execStrandPark s = _
  exact congrArg _ (if_pos (by rw [hp, hb]; rfl))

theorem exec_strandPark_waits (hi : s.subj = i.val) (h : (s.strands[i.val]).parking = false ∨ ¬s.flitBoundary i = true) :
    exec .strandPark s = .next s := by
  obtain rfl := subjStrand_of_val hi
  show execStrandPark s = _
  refine congrArg _ (if_neg ?_)
  obtain h | h := h <;> simp [h]

theorem exec_wakeComplete_ends {t : Nat} (hi : s.subj = i.val) (hw : (s.strands[i.val]).wakeEnd = some t) (ht : t ≤ s.now)
    (hb : s.flitBoundary i = true) : exec .wakeComplete s =
      .next ((s.modStrand i fun x => { x with carry := x.carry ||| x.amask, wakeEnd := none }).parkAfter i) := by
  obtain rfl := subjStrand_of_val hi
  show execWakeComplete s = _
  rw [execWakeComplete, hw]
  exact congrArg _ (if_pos (by rw [decide_eq_true ht, hb]; rfl))

theorem exec_wakeComplete_waits {t : Nat} (hi : s.subj = i.val) (h : (s.strands[i.val]).wakeEnd = none ∨ ¬s.flitBoundary i = true ∨
    ((s.strands[i.val]).wakeEnd = some t ∧ s.now < t)) : exec .wakeComplete s = .next s := by
  obtain rfl := subjStrand_of_val hi
  show execWakeComplete s = _
  rw [execWakeComplete]
  refine congrArg _ ?_
  split
  next t' ht =>
    refine if_neg fun hq => ?_
    obtain ⟨hle, hb⟩ := Bool.and_eq_true_iff.1 hq
    obtain h | h | ⟨h, hlt⟩ := h
    · exact Option.some_ne_none t' (ht.symm.trans h)
    · exact h hb
    · cases ht.symm.trans h
      exact Nat.not_lt.2 (of_decide_eq_true hle) hlt
  · rfl

theorem exec_autoWake_due {t : Nat} (hi : s.subj = i.val) (hd : (s.strands[i.val]).due = some t) :
    exec .autoWake s = .next (s.modStrand i Strand.autoWake) := by
  obtain rfl := subjStrand_of_val hi
  show execAutoWake s = _
  exact congrArg _ (if_pos (by rw [hd]; rfl))

theorem exec_autoWake_idle (hi : s.subj = i.val) (hd : (s.strands[i.val]).due = none) : exec .autoWake s = .next s := by
  obtain rfl := subjStrand_of_val hi
  show execAutoWake s = _
  exact congrArg _ (if_neg (by rw [hd]; exact Bool.false_ne_true))

theorem autoWake_of_none {z : Strand} (hd : z.due = none) : z.autoWake = z := by rw [Strand.autoWake, hd]

theorem autoWake_lit {z : Strand} {t : Nat} (hd : z.due = some t) (hc : z.carry = 0xFF) :
    z.autoWake = { z with amask := 0xFF, parking := false, parkDue := false, due := none } := by
  rw [Strand.autoWake, hd]
  exact if_pos hc

theorem autoWake_dark {z : Strand} {t : Nat} (hd : z.due = some t) (hc : z.carry ≠ 0xFF) : z.autoWake =
    { z with amask := 0xFF, parking := false, parkDue := false, due := none, wakeEnd := some (z.wakeEnd.getD (t + 102 * usTicks / 10)) } := by
  rw [Strand.autoWake, hd]
  exact if_neg hc

/-! ### Rings that settle or lose their lock (24 R407, R412; log 43) -/

/-- The ring has settled. -/
def ringSettled (s : State) (r : RingId) : State :=
  (s.settleStrand (s.ringStrand r)).modRing r fun y => { y with settle := none, wake := false }

theorem ringStrand_ringSettled (s : State) (r : RingId) : (ringSettled s r).ringStrand r = s.ringStrand r := by
  have ring : (ringSettled s r).rings[r.val] = { s.rings[r.val] with settle := none, wake := false } := rings_modRing_same _ r _
  rw [State.ringStrand, ring, State.ringStrand]

theorem exec_ringResettleDone_settles {t : Nat} (hr : s.subj = r.val) (ht : (s.rings[r.val]).settle = some t) (hn : t ≤ s.now) :
    exec .ringResettleDone s = .next (if ((s.rings[r.val]).disable && (s.rings[r.val]).wake) = true then (ringSettled s r).restoreRing r
      else (ringSettled s r).parkAfter (s.ringStrand r)) := by
  rw [← ringStrand_ringSettled]
  obtain rfl := subjRing_of_val hr
  show execRingResettleDone s = _
  rw [execRingResettleDone, ht]
  exact congrArg _ (if_neg (Nat.not_lt.2 hn))

theorem exec_ringResettleDone_waits {t : Nat} (hr : s.subj = r.val) (h : (s.rings[r.val]).settle = none ∨
    ((s.rings[r.val]).settle = some t ∧ s.now < t)) : exec .ringResettleDone s = .next s := by
  obtain rfl := subjRing_of_val hr
  show execRingResettleDone s = _
  rw [execRingResettleDone]
  obtain h | ⟨h, hn⟩ := h <;> rw [h]
  exact congrArg _ (if_pos hn)

end

theorem Traffic.rings {s t : State} (h : Traffic s t) : t.rings = s.rings := by rw [h]

theorem Traffic.alloc {s t : State} (h : Traffic s t) : t.alloc = s.alloc := by rw [h]

theorem Traffic.leases {s t : State} (h : Traffic s t) : t.leases = s.leases := by rw [h]

/-- An entry about a ring is traffic of the module. -/
theorem traffic_logRing (s : State) (n : Nat) : Traffic { s with choices := s.choices + 1 } (s.logRing n) := .logModule ..

/-- The ring alone is out of service, and allocations and leases stand (24 R412). -/
structure LockLost (s : State) (r : RingId) (t : State) : Prop where
  disabled : (t.rings[r.val]).disable = true
  alloc : t.alloc = s.alloc
  leases : t.leases = s.leases
  others : ∀ q, q ≠ r → t.rings[q.val] = s.rings[q.val]

theorem LockLost.modRing {s u : State} {r : RingId} {f : Ring → Ring} (hr : u.rings = s.rings) (ha : u.alloc = s.alloc)
    (hl : u.leases = s.leases) (hf : ∀ x, (f x).disable = true) : LockLost s r (u.modRing r f) where
  disabled := by rw [rings_modRing_same, hf]
  alloc := ha
  leases := hl
  others q hq := by rw [rings_modRing_ne u f hq, hr]

theorem LockLost.logRing {s t : State} {r : RingId} (h : LockLost s r t) (n : Nat) : LockLost s r (t.logRing n) where
  disabled := by rw [(traffic_logRing t n).rings, h.disabled]
  alloc := (traffic_logRing t n).alloc.trans h.alloc
  leases := (traffic_logRing t n).leases.trans h.leases
  others q hq := by rw [(traffic_logRing t n).rings, h.others q hq]

theorem exec_cdrLoss_disables {s : State} {r : RingId} (hr : s.subj = r.val) (hd : (s.rings[r.val]).disable = false) :
    ∃ t, exec .cdrLoss s = .next t ∧ LockLost s r t := by
  obtain rfl := subjRing_of_val hr
  refine ⟨_, congrArg Host.Outcome.next (if_neg (by rw [hd]; exact Bool.false_ne_true)), ?_⟩
  have log := traffic_logRing (s.settleStrand (s.ringStrand s.subjRing)) s.subjRing.val
  split
  · refine .modRing log.rings log.alloc log.leases ?_
    exact fun _ => rfl
  · refine .logRing ?_ _
    refine .modRing log.rings log.alloc log.leases ?_
    exact fun _ => rfl

theorem exec_cdrLoss_idle {s : State} {r : RingId} (hr : s.subj = r.val) (hd : (s.rings[r.val]).disable = true) :
    exec .cdrLoss s = .next s := by
  obtain rfl := subjRing_of_val hr
  exact congrArg Host.Outcome.next (if_pos hd)

/-! ### O50 -/

/-- Settles O50: each write and event by its own equation, a strand's queue counted up to now. -/
theorem opticsActs : Obligations.OpticsActs := by
  unfold Obligations.OpticsActs
  intro s i r v peer mask t runs x y z withStrand withRing m wake ending mapped k off until_ settled
  have sup : ∀ f, runs → Host.Outcome.next (s.supervise f) = (.next (f s) : Host.Outcome State Fault Refusal) :=
    fun f h => congrArg Host.Outcome.next (supervise_running f h)
  have stopped : ∀ f, ¬runs → Host.Outcome.next (s.supervise f) = (.next s : Host.Outcome State Fault Refusal) :=
    fun f h => congrArg Host.Outcome.next (supervise_stopped f (by simpa [runs] using h))
  have still : z.flying = false → s.flitBoundary i = true := (flitBoundary_iff s i).2
  have moving : z.flying = true → ¬s.flitBoundary i = true := fun h hb => Bool.false_ne_true (((flitBoundary_iff s i).1 hb).symm.trans h)
  have counted : ∀ {f : Strand → Strand} {w : Strand}, f z = w → s.modStrand i f = withStrand w := fun h => congrArg withStrand h
  have zamask : z.amask = x.amask := amask_upTo ..
  have zcarry : z.carry = x.carry := carry_upTo ..
  have zwakeEnd : z.wakeEnd = x.wakeEnd := wakeEnd_upTo ..
  have zparking : z.parking = x.parking := parking_upTo ..
  have zdue : z.due = x.due := due_upTo ..
  have ends : ctlWake z m s.now = ending := by rw [ctlWake, zcarry, zwakeEnd]
  refine ⟨qd_counted s i, rfl, flitBoundary_iff s i, fun hm => ?_, fun h hm hd hp => ?_, fun h hm hd hp he hr => ?_, fun h hm hd hp he => ?_,
    sup _, sup _, fun h hv => ?_, fun h hv hy => ?_, fun _ => rfl, fun h hv hy => ?_, fun h hv hy hc hl => ?_,
    fun h => ⟨stopped _ h, stopped _ h, stopped _ h, stopped _ h⟩, fun hi hp hd hf => ?_, fun hi h => ?_, fun hi hw ht hf => ?_,
    fun hi h => ?_, fun hp hw hr => ?_, fun h => ?_, fun hi hd hc => ?_, fun hi hd hc => ?_, exec_autoWake_idle,
    fun hr ht hn h => ?_, fun hr ht hn hd hw => ?_, exec_ringResettleDone_waits, fun hr hd => ?_, exec_cdrLoss_idle, rfl⟩
  · exact congrArg Host.Outcome.next (supervise_of_fixed (if_pos hm))
  · refine (sup _ h).trans (congrArg Host.Outcome.next ((writeStrandCtl_eq hm hd).trans (counted ?_)))
    rw [zamask, if_pos hp, masked, ends]
  · refine (sup _ h).trans (congrArg Host.Outcome.next ((writeStrandCtl_eq hm hd).trans (counted ?_)))
    rw [zamask, if_neg hp, ends, he, hr, if_neg (by decide), masked, ends, he]
  · refine (sup _ h).trans (congrArg Host.Outcome.next ((writeStrandCtl_eq hm hd).trans (counted ?_)))
    have waits : (ending.isSome || s.ringWakes i) = true := by
      rw [Bool.or_eq_true, Option.isSome_iff_ne_none]
      exact he
    rw [zamask, if_neg hp, ends, if_pos waits, masked, ends]
  · exact (sup _ h).trans (congrArg Host.Outcome.next (writeRingMap_same hv))
  · exact (sup _ h).trans (congrArg Host.Outcome.next (writeRingMap_disable hv hy))
  · exact ⟨_, (sup _ h).trans (congrArg Host.Outcome.next (writeRingMap_enable hv hy)), ring_enabled mapped r⟩
  · exact (sup _ h).trans (congrArg Host.Outcome.next ((writeRingMap_enable hv hy).trans (enableRing_stays hc hl)))
  · have parks : z.parking = true := zparking.trans hp
    refine (exec_strandPark_parks hi hp (still hf)).trans (congrArg Host.Outcome.next (counted ?_))
    rw [autoWake_of_none (zdue.trans hd), if_pos parks, ← zcarry, ← zamask]
  · exact exec_strandPark_waits hi (h.imp_right moving)
  · refine (exec_wakeComplete_ends hi hw ht (still hf)).trans (congrArg Host.Outcome.next (congrArg (State.parkAfter · i) (counted ?_)))
    rw [zcarry, zamask]
  · exact exec_wakeComplete_waits hi (h.imp_right (Or.imp_left moving))
  · exact parkAfter_parks hp hw hr
  · exact parkAfter_waits h
  · refine (exec_autoWake_due hi hd).trans (congrArg Host.Outcome.next (counted ?_))
    rw [autoWake_dark (zdue.trans hd) (zcarry ▸ hc), zwakeEnd]
  · exact (exec_autoWake_due hi hd).trans (congrArg Host.Outcome.next (counted (autoWake_lit (zdue.trans hd) (zcarry ▸ hc))))
  · rw [exec_ringResettleDone_settles hr ht hn, if_neg]
    · rfl
    · rw [Bool.and_eq_true]
      rintro ⟨hd, hw⟩
      exact h.elim (fun h => Bool.false_ne_true (h.symm.trans hd)) fun h => Bool.false_ne_true (h.symm.trans hw)
  · rw [exec_ringResettleDone_settles hr ht hn, if_pos]
    · exact ⟨_, rfl, disable_restoreRing _ r⟩
    · rw [show (s.rings[r.val]).disable = _ from hd, show (s.rings[r.val]).wake = _ from hw]
      rfl
  · obtain ⟨t, ht, lost⟩ := exec_cdrLoss_disables hr hd
    exact ⟨t, ht, lost.disabled, lost.alloc, lost.leases, lost.others⟩

end Sys2Proof.Proofs
end

section
/-! PROOFS. The lock loop and link training (24 R406, R407, R412; log 43): how a ring is corrected, what a period does ring by ring, what a
training leaves as it was, and O51. -/

namespace Sys2Proof.Proofs

open Sys2Proof Sys2Proof.Machine Sys2Proof.Laws

/-! ### The correction of one ring (24 R406) -/

theorem toNat_ofInt_code {n : Int} (h0 : 0 ≤ n) (h1 : n ≤ 1023) : ((BitVec.ofInt 10 n).toNat : Int) = n := by
  rw [BitVec.toNat_ofInt]
  omega

/-- The heater code that the loop sets. -/
def lockCode (x : Machine.Ring) : Int := max 0 (min 1023 ((x.heater.toNat : Int) - max (-16) (min 16 x.detune)))

theorem lockCode_range (x : Machine.Ring) : 0 ≤ lockCode x ∧ lockCode x ≤ 1023 := by
  unfold lockCode
  omega

/-- A ring at the code that the loop sets. -/
def ringCorrected (x : Machine.Ring) : Machine.Ring :=
  { x with heater := BitVec.ofInt 10 (lockCode x), detune := x.detune + lockCode x - x.heater.toNat }

theorem lockRing_corrects {s : State} {r : RingId} (hv : s.ringValid r = true) (hs : (s.rings[r.val]).sw = false) :
    s.lockRing r = s.modRing r ringCorrected :=
  if_neg (by rw [hv, hs]; decide)

theorem lockRing_stays {s : State} {r : RingId} (h : s.ringValid r = false ∨ (s.rings[r.val]).sw = true) : s.lockRing r = s := by
  refine if_pos ?_
  obtain h | h := h <;> rw [h]
  · rfl
  · exact Bool.or_true _

theorem lockRing_eq (s : State) (r : RingId) :
    s.lockRing r = if s.ringValid r = true ∧ (s.rings[r.val]).sw = false then s.modRing r ringCorrected else s := by
  split
  next h => exact lockRing_corrects h.1 h.2
  next h =>
    refine lockRing_stays ?_
    rw [not_and_or, Bool.not_eq_true, Bool.not_eq_false] at h
    exact h

/-! ### Changes of many rings, each by itself -/

/-- t is s but for its rings. -/
def RingsOnly (s t : State) : Prop := t = { s with rings := t.rings }

theorem RingsOnly.trans {s t u : State} (h : RingsOnly s t) (h' : RingsOnly t u) : RingsOnly s u := by
  unfold RingsOnly at *
  rw [h', h]

theorem RingsOnly.strands {s t : State} (h : RingsOnly s t) : t.strands = s.strands := by rw [h]

/-- A change of one ring, which depends on that ring and on the strands alone. -/
structure RingStep (f : State → RingId → State) : Prop where
  frame : ∀ s r, RingsOnly s (f s r)
  others : ∀ s {r q : RingId}, q ≠ r → (f s r).rings[q.val] = s.rings[q.val]
  own : ∀ {s t : State} {r : RingId}, s.rings[r.val] = t.rings[r.val] → s.strands = t.strands → (f s r).rings[r.val] = (f t r).rings[r.val]

theorem RingStep.foldl_frame {f : State → RingId → State} (hf : RingStep f) (l : List RingId) (s : State) :
    RingsOnly s (l.foldl f s) := by
  induction l generalizing s with
  | nil => rfl
  | cons r l ih => exact (hf.frame s r).trans (ih (f s r))

/-- Over rings without repetition each ring ends as its own change leaves it. -/
theorem RingStep.foldl_rings {f : State → RingId → State} (hf : RingStep f) : ∀ {l : List RingId}, l.Nodup → ∀ (s : State) (q : RingId),
    (l.foldl f s).rings[q.val] = if q ∈ l then (f s q).rings[q.val] else s.rings[q.val]
  | [], _, s, q => by rw [if_neg List.not_mem_nil]; rfl
  | r :: l, h, s, q => by
    obtain ⟨hr, hl⟩ := List.nodup_cons.1 h
    rw [List.foldl_cons, hf.foldl_rings hl]
    by_cases hq : q = r
    · subst hq
      rw [if_neg hr, if_pos List.mem_cons_self]
    · have same : (f s r).rings[q.val] = s.rings[q.val] := hf.others s hq
      simp only [List.mem_cons, hq, false_or, same, hf.own same (hf.frame s r).strands]

theorem ringStep_modRing (g : RingId → Machine.Ring → Machine.Ring) : RingStep fun s r => s.modRing r (g r) where
  frame _ _ := rfl
  others s _ _ h := rings_modRing_ne s _ h
  own {s t r} h _ := by rw [rings_modRing_same, rings_modRing_same, h]

theorem ringValid_congr {s t : State} {r : RingId} (h : s.rings[r.val] = t.rings[r.val]) (hs : s.strands = t.strands) :
    s.ringValid r = t.ringValid r := by
  have strand : s.ringStrand r = t.ringStrand r := by rw [State.ringStrand, State.ringStrand, h]
  simp only [State.ringValid, State.ringLocks, State.ringDark, strand, h, hs]

theorem ringStep_lockRing : RingStep State.lockRing where
  frame s r := by
    rw [lockRing_eq]
    split <;> rfl
  others s r q hq := by
    rw [lockRing_eq]
    split
    · exact rings_modRing_ne s _ hq
    · rfl
  own {s t r} h hs := by
    rw [lockRing_eq, lockRing_eq, ringValid_congr h hs, h]
    split
    · rw [rings_modRing_same, rings_modRing_same, h]
    · exact h

/-! ### A period of the loop (24 R406, R407) -/

/-- The rings of a chiplet. -/
def chipletRings (chiplet : Fin 16) : List RingId := (List.finRange 4096).filter fun q => decide (q.val / 256 = chiplet.val)

theorem nodup_chipletRings (chiplet : Fin 16) : (chipletRings chiplet).Nodup := (List.nodup_finRange 4096).filter _

theorem mem_chipletRings {chiplet : Fin 16} {q : RingId} : q ∈ chipletRings chiplet ↔ q.val / 256 = chiplet.val := by
  rw [chipletRings, List.mem_filter, decide_eq_true_iff]
  exact and_iff_right (List.mem_finRange q)

/-- A ring's detuning after so many codes of drift. -/
def ringDrifted (drift : List Int) (q : RingId) (x : Machine.Ring) : Machine.Ring :=
  { x with detune := x.detune + drift.getD (q.val % 256) 0 }

/-- The rings of the chiplet drift. -/
def drifted (s : State) (chiplet : Fin 16) (drift : List Int) : State :=
  (chipletRings chiplet).foldl (fun s q => s.modRing q (ringDrifted drift q)) s

/-- A saturated ring that locks swaps its line. -/
def swapSaturated (t : State) (q : RingId) : State :=
  if t.ringLocks q = true ∧ ((t.rings[q.val]).heater = 0 ∨ (t.rings[q.val]).heater = 1023) then t.lineSwap q else t

theorem lockPeriod_eq (s : State) (chiplet : Fin 16) (drift : List Int) : s.lockPeriod chiplet drift =
    (chipletRings chiplet).foldl swapSaturated ((chipletRings chiplet).foldl State.lockRing (drifted s chiplet drift)) := by
  have rings : ((List.finRange 4096).filter fun q => q.val / 256 == chiplet.val) = chipletRings chiplet := rfl
  have swap : (fun (t : State) (q : RingId) =>
      if t.ringLocks q && ((t.rings[q.val]).heater == 0 || (t.rings[q.val]).heater == 1023) then t.lineSwap q else t) = swapSaturated := by
    funext t q
    simp only [swapSaturated, Bool.and_eq_true, Bool.or_eq_true, beq_iff_eq]
  rw [State.lockPeriod, rings, ← swap]
  rfl

section
variable (s : State) (chiplet : Fin 16) (drift : List Int)

theorem ringStep_drift : RingStep fun s q => s.modRing q (ringDrifted drift q) := ringStep_modRing _

/-- The state in which the period's corrections have been made. -/
def locked : State := (chipletRings chiplet).foldl State.lockRing (drifted { s with lockedAt := s.lockedAt.set chiplet s.now } chiplet drift)

theorem locked_frame : RingsOnly { s with lockedAt := s.lockedAt.set chiplet s.now } (locked s chiplet drift) :=
  ((ringStep_drift drift).foldl_frame _ _).trans (ringStep_lockRing.foldl_frame _ _)

theorem rings_drifted (q : RingId) : (drifted s chiplet drift).rings[q.val] =
    if q.val / 256 = chiplet.val then ringDrifted drift q s.rings[q.val] else s.rings[q.val] := by
  rw [drifted, (ringStep_drift drift).foldl_rings (nodup_chipletRings chiplet), rings_modRing_same]
  simp only [mem_chipletRings]

theorem strands_drifted : (drifted s chiplet drift).strands = s.strands := ((ringStep_drift drift).foldl_frame _ s).strands

/-- Each ring of the chiplet is corrected as it has drifted. -/
theorem rings_locked {u : State} {q : RingId} (hr : u.rings[q.val] = (drifted s chiplet drift).rings[q.val])
    (hs : u.strands = s.strands) : (locked s chiplet drift).rings[q.val] =
      if q.val / 256 = chiplet.val then (u.lockRing q).rings[q.val] else s.rings[q.val] := by
  have rings : (drifted { s with lockedAt := s.lockedAt.set chiplet s.now } chiplet drift).rings[q.val] = u.rings[q.val] := by
    rw [rings_drifted, hr, rings_drifted]
  have strands : (drifted { s with lockedAt := s.lockedAt.set chiplet s.now } chiplet drift).strands = u.strands := by
    rw [strands_drifted, hs]
  rw [locked, ringStep_lockRing.foldl_rings (nodup_chipletRings chiplet), ringStep_lockRing.own rings strands, rings, hr, rings_drifted]
  simp only [mem_chipletRings]
  split <;> rfl

theorem exec_lockLoopPeriod_early (h : s.now < s.lockedAt[chiplet] + 50 * usTicks) : exec (.lockLoopPeriod chiplet drift) s = .next s :=
  congrArg Host.Outcome.next (if_neg (Nat.not_le.2 h))

theorem exec_lockLoopPeriod_due (h : s.lockedAt[chiplet] + 50 * usTicks ≤ s.now) : exec (.lockLoopPeriod chiplet drift) s =
    .next ((chipletRings chiplet).foldl swapSaturated (locked s chiplet drift)) :=
  congrArg Host.Outcome.next ((if_pos h).trans (lockPeriod_eq _ chiplet drift))

end

/-! ### Link training (24 R412; log 43) -/

/-- t is s but for what a training changes of memory traffic, of strands and rings, and of what leases owe. -/
def Relinked (s t : State) : Prop :=
  t = { s with
    cores := t.cores, tasks := t.tasks, hbm := t.hbm, l2 := t.l2, trans := t.trans, elog := t.elog, supEvents := t.supEvents
    choices := t.choices, rings := t.rings, strands := t.strands, alloc := t.alloc, charges := t.charges, accruedAt := t.accruedAt }

section
variable {s t u : State}

theorem Relinked.refl (s : State) : Relinked s s := rfl

theorem Relinked.trans (h : Relinked s t) (h' : Relinked t u) : Relinked s u := by
  unfold Relinked at *
  rw [h', h]

theorem Relinked.foldl {β : Type} {f : State → β → State} (hf : ∀ s x, Relinked s (f s x)) (l : List β) (s : State) : Relinked s (l.foldl f s) :=
  List.foldlRecOn l f (.refl s) fun t ht x _ => ht.trans (hf t x)

theorem Traffic.relinked (h : Traffic s t) : Relinked s t := by
  unfold Traffic at h
  unfold Relinked
  rw [h]

theorem Relinked.boot (h : Relinked s t) : t.boot = s.boot := by rw [h]

theorem Relinked.hib (h : Relinked s t) : t.hib = s.hib := by rw [h]

theorem Relinked.fabRows (h : Relinked s t) : t.fabRows = s.fabRows := by rw [h]

theorem Relinked.fabCols (h : Relinked s t) : t.fabCols = s.fabCols := by rw [h]

theorem Relinked.trained (h : Relinked s t) : t.trained = s.trained := by rw [h]

theorem Relinked.leases (h : Relinked s t) : t.leases = s.leases := by rw [h]

theorem Relinked.power (h : Relinked s t) : t.power = s.power := by rw [h]

end

section
variable (s : State)

theorem relinked_accrue : Relinked s s.accrue := by
  have charged : ∀ (k : Nat) (l : Lease) (t : State) (n : Nat), Relinked t (if n = 0 then t else t.charge l.region k n) := by
    intro k l t n
    split <;> rfl
  exact (Relinked.foldl (fun t l => charged 0x1A8 l t _) s.leases s).trans rfl

theorem relinked_logRing (n : Nat) : Relinked s (s.logRing n) :=
  Relinked.trans (t := { s with choices := s.choices + 1 }) rfl (traffic_logRing s n).relinked

theorem relinked_modRing (r : RingId) (f : Machine.Ring → Machine.Ring) : Relinked s (s.modRing r f) := rfl

theorem relinked_modStrand (i : StrandId) (f : Strand → Strand) : Relinked s (s.modStrand i f) := rfl

theorem relinked_emptyQueues (router : Nat) : Relinked s (s.emptyQueues router) := by
  unfold State.emptyQueues
  rfl

theorem relinked_formStrands (router : Nat) : Relinked s (s.formStrands router) := by
  unfold State.formStrands
  rfl

theorem relinked_formAllocs (router : Nat) : Relinked s (s.formAllocs router) := by
  unfold State.formAllocs
  rfl

theorem relinked_trainFibre (fibre : Fin 64) (res : TrainResult) : Relinked s (s.trainFibre fibre res) := by
  unfold State.trainFibre
  extract_lets s1
  have first : Relinked s s1 := by
    unfold s1
    split
    · exact .refl s
    · exact relinked_logRing ..
  refine first.trans (.foldl (fun t r => ?_) _ _)
  extract_lets on t1
  have ring : Relinked t t1 := relinked_modRing ..
  split
  · exact ring
  · exact ring.trans (relinked_logRing ..)

theorem relinked_logShort (old : State) (router : Nat) : Relinked s (s.logShort old router) := .foldl relinked_logRing _ s

theorem relinked_logUntrained (router : Nat) : Relinked s (s.logUntrained router) := .foldl relinked_logRing _ s

theorem relinked_pick {s u : State} {k : Nat} {l ids : List StrandId} (h : s.pick k l = (u, ids)) : Relinked s u := by
  obtain rfl : (s.pick k l).1 = u := congrArg Prod.fst h
  rfl

theorem relinked_requeue (l : List (Nat × Nat)) : Relinked s (s.requeue l) := by
  refine .foldl (fun t x => ?_) l s
  obtain ⟨p, n⟩ := x
  dsimp only
  split
  · exact .refl t
  · split
    next u i _ hu => exact (relinked_pick hu).trans (relinked_modStrand u i _)
    next u hu => exact relinked_pick hu

end

section
variable (s : State)

theorem boot_refloor : s.refloor.boot = s.boot := rfl

theorem hib_refloor : s.refloor.hib = s.hib := rfl

theorem fabRows_refloor : s.refloor.fabRows = s.fabRows := rfl

theorem fabCols_refloor : s.refloor.fabCols = s.fabCols := rfl

theorem trained_refloor : s.refloor.trained = s.trained := rfl

theorem leases_refloor : s.refloor.leases = s.leases := rfl

end

/-- A fibre's training has set its rings and the strands of its router (steps 1 to 6). -/
def fibreTrained (s : State) (fibre : Fin 64) (res : TrainResult) : State :=
  (((s.accrue.emptyQueues (fibre.val / 32)).trainFibre fibre res).formStrands (fibre.val / 32)).logShort s.accrue (fibre.val / 32)

/-- The fabric as a training finds it (step 7), without the leases of the router's peers. -/
def withFabric (s : State) (fibre : Fin 64) (res : TrainResult) : State :=
  { s with
    fabRows := extent res.rows, fabCols := extent res.cols, trained := res.trained, power := s.power.withCoordinator res.coord
    leases := s.leases.filter fun l => peerRouter l.peer != fibre.val / 32
    boot := { s.boot with fibres := s.boot.fibres ||| BitVec.ofNat 64 (2 ^ fibre.val) } }

/-- The state that a training leaves, but for what it ends of a boot. -/
def linkTrained (s : State) (fibre : Fin 64) (res : TrainResult) : State :=
  ((((withFabric (fibreTrained s fibre res) fibre res).logUntrained (fibre.val / 32)).formAllocs (fibre.val / 32)).requeue
    (s.accrue.queuedFor (fibre.val / 32))).refloor

section
variable (s : State) (fibre : Fin 64) (res : TrainResult)

theorem relinked_fibreTrained : Relinked s (fibreTrained s fibre res) :=
  (relinked_accrue s).trans ((relinked_emptyQueues ..).trans ((relinked_trainFibre ..).trans
    ((relinked_formStrands ..).trans (relinked_logShort ..))))

theorem relinked_withFabric : ∃ u, Relinked (withFabric (fibreTrained s fibre res) fibre res) u ∧ linkTrained s fibre res = u.refloor :=
  ⟨_, (relinked_logUntrained ..).trans ((relinked_formAllocs ..).trans (relinked_requeue ..)), rfl⟩

theorem boot_withFabric : (withFabric s fibre res).boot = { s.boot with fibres := s.boot.fibres ||| BitVec.ofNat 64 (2 ^ fibre.val) } := rfl

theorem hib_withFabric : (withFabric s fibre res).hib = s.hib := rfl

theorem fabRows_withFabric : (withFabric s fibre res).fabRows = extent res.rows := rfl

theorem fabCols_withFabric : (withFabric s fibre res).fabCols = extent res.cols := rfl

theorem trained_withFabric : (withFabric s fibre res).trained = res.trained := rfl

theorem leases_withFabric : (withFabric s fibre res).leases = s.leases.filter fun l => peerRouter l.peer != fibre.val / 32 := rfl

theorem boot_linkTrained : (linkTrained s fibre res).boot = { s.boot with fibres := s.boot.fibres ||| BitVec.ofNat 64 (2 ^ fibre.val) } := by
  obtain ⟨u, hu, h⟩ := relinked_withFabric s fibre res
  rw [h, boot_refloor, hu.boot, boot_withFabric, (relinked_fibreTrained s fibre res).boot]

theorem hib_linkTrained : (linkTrained s fibre res).hib = s.hib := by
  obtain ⟨u, hu, h⟩ := relinked_withFabric s fibre res
  rw [h, hib_refloor, hu.hib, hib_withFabric, (relinked_fibreTrained s fibre res).hib]

theorem fabRows_linkTrained : (linkTrained s fibre res).fabRows = extent res.rows := by
  obtain ⟨u, hu, h⟩ := relinked_withFabric s fibre res
  rw [h, fabRows_refloor, hu.fabRows, fabRows_withFabric]

theorem fabCols_linkTrained : (linkTrained s fibre res).fabCols = extent res.cols := by
  obtain ⟨u, hu, h⟩ := relinked_withFabric s fibre res
  rw [h, fabCols_refloor, hu.fabCols, fabCols_withFabric]

theorem trained_linkTrained : (linkTrained s fibre res).trained = res.trained := by
  obtain ⟨u, hu, h⟩ := relinked_withFabric s fibre res
  rw [h, trained_refloor, hu.trained, trained_withFabric]

theorem leases_linkTrained : (linkTrained s fibre res).leases = s.leases.filter fun l => peerRouter l.peer != fibre.val / 32 := by
  obtain ⟨u, hu, h⟩ := relinked_withFabric s fibre res
  rw [h, leases_refloor, hu.leases, leases_withFabric, (relinked_fibreTrained s fibre res).leases]

theorem coord_withCoordinator (p : Power) (coord : Bool) : (p.withCoordinator coord).coord = coord := by
  cases coord <;> rfl

theorem coord_linkTrained : (linkTrained s fibre res).power.coord = res.coord := by
  obtain ⟨u, hu, h⟩ := relinked_withFabric s fibre res
  rw [h]
  exact (congrArg Power.coord hu.power).trans (coord_withCoordinator _ _)

/-- A training ends a boot once every fibre has trained, in a module that no warning has reached (23 R402, 25 R413). -/
def bootEnded (t : State) (lit : Bool) : State :=
  if t.boot.step == .training && lit && t.hib.state == .run then { t with boot := { t.boot with step := .done } }.readManifests else t

/-- Steps 7 and 8, and the end of a boot, as the model takes them, from the state in which the router's strands have formed. -/
def linkTail (fibre : Fin 64) (res : TrainResult) (waiting : List (Nat × Nat)) (s : State) : State :=
  let router := fibre.val / 32
  let fibres := s.boot.fibres ||| BitVec.ofNat 64 (2 ^ fibre.val)
  let s := { s with
    fabRows := extent res.rows, fabCols := extent res.cols, trained := res.trained
    power := s.power.withCoordinator res.coord
    leases := s.leases.filter fun l => peerRouter l.peer != router
    boot := { s.boot with fibres := fibres } }
  let s := (((s.logUntrained router).formAllocs router).requeue waiting).refloor
  if s.boot.step == .training && fibres == BitVec.allOnes 64 && s.hib.state == .run then
    { s with boot := { s.boot with step := .done } }.readManifests
  else s

theorem linkTail_eq (waiting : List (Nat × Nat)) (u : State) : linkTail fibre res waiting u = bootEnded
    ((((withFabric u fibre res).logUntrained (fibre.val / 32)).formAllocs (fibre.val / 32)).requeue waiting).refloor
    ((u.boot.fibres ||| BitVec.ofNat 64 (2 ^ fibre.val)) == BitVec.allOnes 64) := by
  unfold linkTail
  extract_lets router fibres boot u1 u2
  have last : u2 = ((((withFabric u fibre res).logUntrained (fibre.val / 32)).formAllocs (fibre.val / 32)).requeue waiting).refloor := rfl
  rw [← last]
  clear_value u2
  rfl

theorem execLinkTraining_eq (h : ¬(s.boot.step == .off || s.boot.step == .recovery) = true) : execLinkTraining fibre res s =
    .next (linkTail fibre res (s.accrue.queuedFor (fibre.val / 32)) (fibreTrained s fibre res)) := by
  rw [execLinkTraining, if_neg h, fibreTrained]
  dsimp only
  generalize (((s.accrue.emptyQueues (fibre.val / 32)).trainFibre fibre res).formStrands (fibre.val / 32)).logShort s.accrue
    (fibre.val / 32) = u
  generalize s.accrue.queuedFor (fibre.val / 32) = waiting
  rw [linkTail]

/-- A training of a module that has power (24 R412, 25 R413). -/
theorem exec_linkTraining_powered (h : s.boot.step ≠ .off ∧ s.boot.step ≠ .recovery) : exec (.linkTraining fibre res) s =
    .next (if s.boot.step = .training ∧ s.boot.fibres ||| BitVec.ofNat 64 (2 ^ fibre.val) = BitVec.allOnes 64 ∧ s.hib.state = .run then
      { linkTrained s fibre res with boot := { (linkTrained s fibre res).boot with step := .done } }.readManifests
    else linkTrained s fibre res) := by
  refine (execLinkTraining_eq s fibre res (by simpa using h)).trans ?_
  rw [linkTail_eq, ← linkTrained]
  simp only [bootEnded, hib_linkTrained, boot_linkTrained, (relinked_fibreTrained s fibre res).boot, Bool.and_eq_true, beq_iff_eq, and_assoc]

theorem exec_linkTraining_dark (h : s.boot.step = .off ∨ s.boot.step = .recovery) : exec (.linkTraining fibre res) s = .next s :=
  if_pos (by obtain h | h := h <;> rw [h] <;> rfl)

end

/-! ### The end of a boot (25 R413) -/

/-- t is s but for what shedding changes. -/
def Shedding (s t : State) : Prop := t = { s with cores := t.cores, clusters := t.clusters, accesses := t.accesses }

section
variable {s t u : State}

theorem Shedding.refl (s : State) : Shedding s s := rfl

theorem Shedding.trans (h : Shedding s t) (h' : Shedding t u) : Shedding s u := by
  unfold Shedding at *
  rw [h', h]

theorem Shedding.foldl {β : Type} {f : State → β → State} (hf : ∀ s x, Shedding s (f s x)) (l : List β) (s : State) : Shedding s (l.foldl f s) :=
  List.foldlRecOn l f (.refl s) fun t ht x _ => ht.trans (hf t x)

theorem Shedding.endGrant (s : State) (cl : ClusterId) : Shedding s (s.endGrant cl) := by
  unfold State.endGrant
  split <;> rfl

theorem Shedding.quiesceCore (s : State) (c : CoreId) : Shedding s (s.quiesceCore c) := by
  unfold State.quiesceCore
  extract_lets keep t1 t2
  have quiet : Shedding s t2 := rfl
  split
  · exact quiet.trans (.endGrant ..)
  · exact quiet

theorem Shedding.shedCore (s : State) (c : CoreId) : Shedding s (s.shedCore c) := by
  unfold State.shedCore
  split
  · exact .refl s
  · exact (Shedding.quiesceCore s c).trans rfl

theorem Shedding.unshedCore (s : State) (c : CoreId) : Shedding s (s.unshedCore c) := by
  unfold State.unshedCore
  split <;> rfl

theorem Shedding.applyShed (s : State) : Shedding s s.applyShed := by
  refine .foldl (fun t d => ?_) _ s
  split
  · exact .foldl Shedding.shedCore _ t
  · split
    · exact .foldl Shedding.unshedCore _ t
    · exact .refl t

theorem Shedding.boot (h : Shedding s t) : t.boot = s.boot := by rw [h]

theorem Shedding.hib (h : Shedding s t) : t.hib = s.hib := by rw [h]

end

/-- The manifests read, the module runs or waits in RESTORE (23 R399). -/
theorem readManifests_state (s : State) : s.readManifests.boot = s.boot ∧ (s.readManifests.hib.state = .run ∨ s.readManifests.hib.state = .restore) := by
  unfold State.readManifests
  split
  · have shed := Shedding.applyShed { s with hib := { s.hib with state := .run, since := s.now } }
    exact ⟨shed.boot, .inl (congrArg Hib.state shed.hib)⟩
  · exact ⟨rfl, .inr rfl⟩

/-- A module in the running state stays so, or waits in RESTORE, as its boot ends (25 R413). -/
theorem readManifests_done {s : State} (h : s.boot.step = .done) : s.readManifests.boot.step = .done :=
  (congrArg Boot.step (readManifests_state s).1).trans h

/-- The fibre's own bit is set. -/
theorem getLsbD_or_pow (x : BitVec 64) (fibre : Fin 64) : (x ||| BitVec.ofNat 64 (2 ^ fibre.val)).getLsbD fibre.val = true := by
  rw [BitVec.getLsbD_or, BitVec.getLsbD_ofNat, Nat.testBit_two_pow_self, decide_eq_true fibre.isLt]
  exact Bool.or_true _

/-! ### O51 -/

/-- Settles O51: the correction of one ring in its range, the period ring by ring, and the training by what it leaves. -/
theorem lockLoopAndTraining : Obligations.LockLoopAndTraining := by
  unfold Obligations.LockLoopAndTraining
  intro s r chiplet drift fibre res y corrected mine drifts
  refine ⟨fun hv hs => ?_, fun h => lockRing_stays h, exec_lockLoopPeriod_early s chiplet drift, fun h => ?_,
    exec_linkTraining_dark s fibre res, fun h => ?_, fun h => ⟨_, exec_linkTraining_powered s fibre res ?_, ?_, ?_⟩⟩
  · obtain ⟨low, high⟩ := lockCode_range y
    have locks : s.lockRing r = s.modRing r ringCorrected := lockRing_corrects hv hs
    have ring : corrected = ringCorrected y := by
      show (s.lockRing r).rings[r.val] = _
      rw [locks, rings_modRing_same]
    have code : (corrected.heater.toNat : Int) = lockCode y := by
      rw [ring]
      exact toNat_ofInt_code low high
    refine ⟨code, ?_, fun q hq => ?_⟩
    · rw [code, ring]
      rfl
    · exact ringStep_lockRing.others s hq
  · refine ⟨locked s chiplet drift, locked_frame s chiplet drift, fun q => ?_, exec_lockLoopPeriod_due s chiplet drift h⟩
    refine rings_locked s chiplet drift ?_ rfl
    rw [rings_drifted]
    exact Vector.getElem_ofFn ..
  · refine ⟨_, (exec_linkTraining_powered s fibre res ?_).trans (congrArg Host.Outcome.next (if_neg ?_)), ?_, fabRows_linkTrained s fibre res,
      fabCols_linkTrained s fibre res, trained_linkTrained s fibre res, coord_linkTrained s fibre res, ?_, fun l hl => ?_⟩
    · rw [h]
      decide
    · rw [h]
      rintro ⟨h, -⟩
      cases h
    · rw [boot_linkTrained, h]
    · rw [boot_linkTrained]
      exact getLsbD_or_pow _ fibre
    · rw [leases_linkTrained] at hl
      simpa using (List.mem_filter.1 hl).2
  · rw [h]
    decide
  · intro hf hr
    rw [if_pos ⟨h, hf, hr⟩]
    exact ⟨readManifests_done rfl, (readManifests_state _).2⟩
  · intro hn
    rw [if_neg, boot_linkTrained, h]
    rintro ⟨-, hf, hr⟩
    exact hn.elim (fun hn => hn hf) fun hn => hn hr

end Sys2Proof.Proofs
end
